-- ==== Sys2Proof/Word.lean ====
section
/-! DEFINITION. Words, bit fields and the names of the module's numbered units (00, "Names of things"). -/

namespace Sys2Proof

abbrev Byte := BitVec 8
abbrev Word32 := BitVec 32
abbrev Word64 := BitVec 64

/-- A logical core, by its core index row × 150 + col. -/
abbrev Core := Fin 18000
/-- A physical position prow × 160 + pcol. -/
abbrev Pos := Fin 19200
/-- A resident tract slot T0 to T15. -/
abbrev Slot := Fin 16
/-- A memory stack S00 to S23. -/
abbrev Stack := Fin 24
/-- A channel (and its controller): stack × 32 + channel. -/
abbrev Chan := Fin 768
/-- A Brim port: BX0, BX1, BY0, BY1, BZ0, BZ1. -/
abbrev Port := Fin 6
/-- A reduction window. -/
abbrev Win := Fin 1024
/-- A field fy × 5 + fx. -/
abbrev FieldId := Fin 25
/-- A Grist stream. -/
abbrev Stream := Fin 32
/-- An intake ring. -/
abbrev Ring := Fin 16
/-- A job table entry. -/
abbrev JobId := Fin 4
/-- A scale record. -/
abbrev ScaleRec := Fin 3072
/-- An Epru register g0 to g31, or a vector register v0 to v31. -/
abbrev RegNo := Fin 32
/-- An arrival counter of a core. -/
abbrev Ctr := Fin 64
/-- A performance monitor. -/
abbrev Mon := Fin 16

/-- Bits [hi:lo] of a number. -/
def bits (v hi lo : Nat) : Nat := (v / 2 ^ lo) % 2 ^ (hi + 1 - lo)

/-- Bit n of a number. -/
def bit (v n : Nat) : Bool := (v / 2 ^ n) % 2 == 1

/-- Number with bits [hi:lo] replaced by the low bits of x. -/
def setBits (v hi lo x : Nat) : Nat :=
  v % 2 ^ lo + (x % 2 ^ (hi + 1 - lo)) * 2 ^ lo + (v / 2 ^ (hi + 1)) * 2 ^ (hi + 1)

/-- A truth value as a bit. -/
def b2n (b : Bool) : Nat := if b then 1 else 0

/-- A number of n bits read as two's complement. -/
def toSigned (n v : Nat) : Int := if v % 2 ^ n < 2 ^ (n - 1) then (v % 2 ^ n : Nat) else (v % 2 ^ n : Nat) - (2 ^ n : Nat)

/-- Two's complement of n bits of an integer. -/
def ofSigned (n : Nat) (x : Int) : Nat := (x % (2 ^ n : Nat)).toNat

/-- Little-endian bytes of a number (R6). -/
def leBytes : Nat → Nat → List Byte
  | 0, _ => []
  | n + 1, v => BitVec.ofNat 8 v :: leBytes n (v / 256)

/-- The number that little-endian bytes spell (R6). -/
def leNat : List Byte → Nat
  | [] => 0
  | b :: bs => b.toNat + 256 * leNat bs

/-- n zero bytes. -/
def zeros (n : Nat) : List Byte := List.replicate n 0

/-- Row and column of a logical core (00, "Names of things"). -/
def Core.row (c : Core) : Nat := c.val / 150
def Core.col (c : Core) : Nat := c.val % 150

end Sys2Proof
end

