-- ==== Sys2Proof/Types.lean ====
section
/-! DEFINITION. The data that commands carry and that State holds: packets, headers, requests. -/

namespace Sys2Proof

/-- A packet of the fabric (R231), field by field. `src` is the source, which RED, AMAX and BAR packets keep for their
WACK while the header's SRC field carries `count` (R231, R240); `op` is the model's own name of the operation a packet
belongs to at its source and is copied into the answer (log entry 12). -/
structure Packet where
  typ : Nat
  dest : Nat
  src : Nat
  count : Nat := 1
  addr : Nat := 0
  lenm1 : Nat := 0
  wop : Nat := 0
  arrive : Bool := false
  ctr : Nat := 0
  poison : Bool := false
  mid : Nat := 1023
  rid : Nat := 0
  flags : Nat := 0
  data : List Byte := []
  op : Nat := 0
  deriving DecidableEq, Repr

/-- The packet types (R232). -/
def Packet.WR : Nat := 1
def Packet.RD : Nat := 2
def Packet.RED : Nat := 3
def Packet.AMAX : Nat := 4
def Packet.BAR : Nat := 5
def Packet.REGRD : Nat := 6
def Packet.REGWR : Nat := 7
def Packet.RDR : Nat := 8
def Packet.WACK : Nat := 9
def Packet.BREL : Nat := 10
def Packet.REGR : Nat := 11

/-- Destinations that are no core (R233). -/
def destChan (ch : Nat) : Nat := 0x8000 + ch
def destBrim (p : Nat) : Nat := 0x8400 + p
def destHost : Nat := 0x8410
def destReg : Nat := 0x8411
def destScale : Nat := 0x8412

/-- A Bow header (R257). -/
structure BowHeader where
  col1 : Nat
  col0 : Nat
  line : Nat
  nlm1 : Nat
  land : Bool
  rowm : Bool
  arrive : Bool
  ctr : Nat
  deriving DecidableEq, Repr

/-- Error symbols found in the k-th access that a command reads (R273): position 0–71 and difference. -/
structure Upset where
  k : Nat
  syms : List (Nat × Nat)
  deriving DecidableEq, Repr

/-- A link of the fabric (R253): a router's mesh link (0 N, 1 E, 2 S, 3 W) or edge port (4), at its receiving router, or a
direction of a Rim ring segment. -/
inductive LinkId where
  | mesh (core : Core) (link : Fin 5)
  | ring (seg : Fin 16) (anti : Bool)
  deriving DecidableEq, Repr

/-- A Brim packet: the header of R349, field by field, and the payload. -/
structure BrimPkt where
  typ : Nat
  status : Nat := 0
  dmid : Nat
  smid : Nat
  tag : Nat := 0
  epoch : Nat := 0
  flow : Nat := 0
  flowv : Bool := false
  prof : Nat := 0
  hops : Nat := 0
  lseq : Nat := 0
  lenm1 : Nat := 0
  wop : Nat := 0
  arrive : Bool := false
  ctr : Nat := 0
  poison : Bool := false
  addr : Nat := 0
  tspec : Nat := 0
  wt : Nat := 0
  data : List Byte := []
  deriving DecidableEq, Repr

/-- The type of a RACC on a Brim port (R351); the others are those of `Packet`. -/
def BrimPkt.RACC : Nat := 12

/-- What a received native flit brings (R337, R342, R343): whether it passes its CRC, the codewords corrected in it and those
that cannot be corrected, its ACK, NAK and credit fields, and the packets whose last byte its body holds and whose every byte
has come. -/
structure BrimFlit where
  crc : Bool
  corr : Nat
  uncorr : Nat
  ack : Nat
  nak : Bool
  crq : Nat
  crs : Nat
  pkts : List BrimPkt
  deriving DecidableEq, Repr

/-- A PEER message (R339): the peer's id, port, framing mode (true for Ethernet) and initial credits. -/
structure PeerMsg where
  mid : Fin 1024
  port : Port
  ether : Bool
  crq : Nat
  crs : Nat
  deriving DecidableEq, Repr

/-- The path by which a write of RST_CMD arrives (R442): BAR0, management MCTP, or a REGWR from another module by a port. -/
inductive CmdPath where
  | bar0
  | mctp
  | brim (port : Port)
  deriving DecidableEq, Repr

/-- What the hardware finds in a start-up phase (R451, R454, R457, R286): flash devices that do not answer (A, B), the verdict
of each trim load's integrity check in order, the stacks that fail training attempts with how many fail, and the physical
positions whose scratchpad fails BIST and those to which firmware was not delivered. -/
structure PhaseFacts where
  deadA : Bool := false
  deadB : Bool := false
  trims : List Bool := []
  trainFails : List (Stack × Fin 4) := []
  bistBad : List Pos := []
  undelivered : List Pos := []
  deriving DecidableEq, Repr

/-- A PCI Express configuration write (R492, R493, R497, R498): BAR2 size as its binary logarithm, power state, completion
timeout in ns, MSI-X enable and function mask. -/
inductive CfgWrite where
  | bar2 (log : Nat)
  | power (d3hot : Bool)
  | timeout (ns : Nat)
  | msix (enable mask : Bool)
  deriving DecidableEq, Repr

/-- An IEEE 1588 message (R371): kind (0 Sync, 1 Follow_Up, 2 Delay_Req, 3 Delay_Resp), domain, and the time stamp it carries. -/
structure PtpMsg where
  kind : Fin 4
  domain : Nat
  stamp : Nat
  deriving DecidableEq, Repr

/-- A debug or revocation token (R521). -/
structure Token where
  serial : Nat
  nonce : Nat
  arg : Nat
  reserved : List Byte
  pubkey : List Byte
  sig : List Byte
  deriving DecidableEq, Repr

end Sys2Proof
end

