-- ==== Sys2Proof/Syntax.lean ====
section
/-! DEFINITION. The commands of the block: one constructor for each row of the command table, with the row's operands. -/

namespace Sys2Proof

/-- A command. Each constructor's docstring is what the command table says of it, and names its rule. -/
inductive Instr where
  /-- R10. A host or register-space write to a register that has no row of its own is accepted or discarded by its byte enables and stored under the field's access code. -/
  | registerWrite (lane : BitVec 24) (be : BitVec 8) (data : BitVec 64) (host : Bool)
  /-- R11. A 32-bit read of a counter's low word returns it and captures the high word into the holding register for the next high-word read. -/
  | counterLowRead (tag : Fin 16384) (lane : BitVec 24)
  /-- R12. A 4-byte write to the low half of a 64-bit non-counter register is kept in its write-holding register and changes nothing yet. -/
  | splitLowWordWrite (lane : BitVec 24) (low : BitVec 32)
  /-- R12. A 4-byte write to the high half of a 64-bit non-counter register sets the whole register from the held low word, or keeps the current low word if none is held. -/
  | splitHighWordWrite (lane : BitVec 24) (high : BitVec 32)
  /-- R17. A write of 1 to MOD_CTRL.LOCK freezes EXPERT and every RWL and RWX field until the next warm or cold reset. -/
  | modLockWrite
  /-- R22. A write of a defined preset to a block's _PROFILE.PRESET loads that preset into all of the block's RWX registers, unless LOCK is 1. -/
  | profilePresetWrite (offset : BitVec 27) (preset : Fin 16)
  /-- R524. A write to a count-limited field becomes pending, sets SEC_STATUS.RWN_BUSY, and is ignored once the allowed changes are exhausted. -/
  | rwnWrite (setting : Fin 4) (value : BitVec 32)
  /-- R524. Shefikan commits a pending RWN value to the lifetime store within 50 ms, consumes one change and puts the value into effect. -/
  | rwnCommit
  /-- R49. A write to MOD_EVT_RD moves the ring read index, and is ignored if it would move backwards or past MOD_EVT_WR. -/
  | evtRdWrite (index : BitVec 13)
  /-- R79. An amax report that reaches SCALE raises SCALE_CUR_AMAX to the maximum and adds its non-finite count to SCALE_NF_COUNT. -/
  | amaxApply (packet : Packet)
  /-- R113. A released matrix NOP bundle has no effect, and is rejected if a reserved bit is set. -/
  | mxNop (core : Core) (payload : BitVec 76)
  /-- R92. A released LOAD bundle is checked and waits to begin filling the shadow bank from scratchpad or the Bow tap. -/
  | mxLoad (core : Core) (payload : BitVec 76)
  /-- R92. A LOAD begins in the later of the ACLK after its release and 65 ACLK after the last swapping pass's first entry, clears SHADOW_FULL and abandons any earlier load. -/
  | mxLoadBegin (core : Core)
  /-- R91. SHADOW_FULL becomes 1 in the fourth ACLK after the last line of the tile arrives, with the checksum column computed. -/
  | mxLoadComplete (core : Core)
  /-- R99. A released PASS bundle is checked and queued to make its first entry. -/
  | mxPass (core : Core) (payload : BitVec 76)
  /-- R99. A pass makes its first entry at the latest ACLK that release, the previous pass, the Underback and the feeders allow, capturing its epilogue slot, scales and swap. -/
  | mxPassFirstEntry (core : Core)
  /-- R95. A moving vector whose elements all stand in the feeder queues enters the array, or the engine stalls and counts MX_STALL_ACLK. -/
  | mxVectorEntry (core : Core)
  /-- R107. The last output of a vector is collected, converted and written, and its array-check verdict falls at entry + 69. -/
  | mxVectorComplete (core : Core)
  /-- R546. MX_COLL serves the last line of an output row and the row gives back its place in the collector's write buffer. -/
  | mxOutputRowServed (core : Core)
  /-- R103. A pass completes, increments MX_PASSES, and its collector reports the pass's amax to OSCALE. -/
  | mxPassComplete (core : Core)
  /-- R110. A released EPI bundle sets one of the four epilogue slots. -/
  | mxEpi (core : Core) (payload : BitVec 76)
  /-- R108. A released DRAIN marks the passes released before it, to complete at max(d + 8, tL + 70). -/
  | mxDrain (core : Core) (payload : BitVec 76)
  /-- R108. A DRAIN completes, sets MX_STATUS.DRAINED and, with ARRIVE 1, increments its arrival counter. -/
  | mxDrainComplete (core : Core)
  /-- R111. A write of MX_CTRL.ENABLE starts stopping or enabling the matrix engine, or sets or clears ENABLE_PENDING. -/
  | mxEnableWrite (core : Core) (value : Bool)
  /-- R111. Matrix STOPPING ends when a DRAIN released at the write would complete, giving DISABLED, or ENABLING if ENABLE_PENDING is 1. -/
  | mxStoppingEnd (core : Core)
  /-- R111. Matrix ENABLING ends 16 ACLK after it began and the engine becomes ENABLED. -/
  | mxEnablingEnd (core : Core)
  /-- R152. A released vector NOP bundle has no effect. -/
  | vxNop (core : Core) (payload : BitVec 76)
  /-- R119. A released VSETL sets VX_VL.VL to min(AVL, VLMAX) and records the element width. -/
  | vsetl (core : Core) (payload : BitVec 76)
  /-- R149. A released CHAIN is tested, advances VX_RNG_SEQ if it draws random values, and waits to enter its first beat. -/
  | chain (core : Core) (payload : BitVec 76)
  /-- R149. A chain beat enters stage 0 once its sources are complete and the write buffer has room, or waits and counts VX_STALL_ACLK. -/
  | vxBeatEntry (core : Core)
  /-- R150. A beat's result is written L + 1 ACLK after entry and takes a write-buffer place until VX_W serves its last line. -/
  | vxBeatWritten (core : Core)
  /-- R150. A chain completes when its last destination element or summary is written, increments VX_CHAINS and, with ARRIVE 1, its counter. -/
  | vxChainComplete (core : Core)
  /-- R152. A released CHLOAD presents its descriptor lines to the VX_A port to load chain-store slots. -/
  | chload (core : Core) (payload : BitVec 76)
  /-- R152. A CHLOAD completes 2 ACLK after its last line arrives, and the deferred tests of CHAINs naming its slots are made. -/
  | vxChloadComplete (core : Core)
  /-- R140. A released POS with SEL 0b00 sets QBASE and KBASE for chains released after it. -/
  | posBase (core : Core) (selHigh : Bool) (payload : BitVec 74)
  /-- R141. A released POS with SEL 0b01 sets WINDOW and RLOG for chains released after it. -/
  | posWindow (core : Core) (selHigh : Bool) (payload : BitVec 74)
  /-- R152. A released DOCLD loads the document table from a register once earlier chains have written the elements it reads. -/
  | docld (core : Core) (payload : BitVec 76)
  /-- R151. A released VDRAIN marks the chains released before it. -/
  | vdrain (core : Core) (payload : BitVec 76)
  /-- R151. A VDRAIN completes, sets VX_STATUS.DRAINED and, with ARRIVE 1, increments its counter. -/
  | vxVdrainComplete (core : Core)
  /-- R155. A write of VX_CTRL.ENABLE starts stopping or enabling the vector engine, or sets or clears ENABLE_PENDING. -/
  | vxEnableWrite (core : Core) (value : Bool)
  /-- R155. Vector STOPPING ends when a VDRAIN released at the write would complete. -/
  | vxStoppingEnd (core : Core)
  /-- R155. Vector ENABLING ends 16 ACLK after it began and the engine becomes ENABLED. -/
  | vxEnablingEnd (core : Core)
  /-- R160. The Epru sets RD to RA + RB modulo 2^64. -/
  | add (core : Core) (rd ra rb : RegNo)
  /-- R160. The Epru sets RD to RA - RB modulo 2^64. -/
  | sub (core : Core) (rd ra rb : RegNo)
  /-- R160. The Epru sets RD to RA AND RB. -/
  | and (core : Core) (rd ra rb : RegNo)
  /-- R160. The Epru sets RD to RA OR RB. -/
  | or (core : Core) (rd ra rb : RegNo)
  /-- R160. The Epru sets RD to RA XOR RB. -/
  | xor (core : Core) (rd ra rb : RegNo)
  /-- R160. The Epru shifts RA left by RB[5:0] into RD. -/
  | sll (core : Core) (rd ra rb : RegNo)
  /-- R160. The Epru shifts RA right logically by RB[5:0] into RD. -/
  | srl (core : Core) (rd ra rb : RegNo)
  /-- R160. The Epru shifts RA right arithmetically by RB[5:0] into RD. -/
  | sra (core : Core) (rd ra rb : RegNo)
  /-- R160. The Epru sets RD to the low 64 bits of RA times RB. -/
  | mul (core : Core) (rd ra rb : RegNo)
  /-- R160. The Epru sets RD to the high 64 bits of the unsigned product. -/
  | mulhu (core : Core) (rd ra rb : RegNo)
  /-- R160. The Epru sets RD to 1 if RA < RB signed, else 0. -/
  | slt (core : Core) (rd ra rb : RegNo)
  /-- R160. The Epru sets RD to 1 if RA < RB unsigned, else 0. -/
  | sltu (core : Core) (rd ra rb : RegNo)
  /-- R160. The Epru sets RD to 1 if RA equals RB, else 0. -/
  | seq (core : Core) (rd ra rb : RegNo)
  /-- R160. The Epru sets RD to 1 if the FP32 value in RA is less than that in RB. -/
  | flt (core : Core) (rd ra rb : RegNo)
  /-- R160. The Epru sets RD to 1 if the FP32 value in RA is at most that in RB. -/
  | fle (core : Core) (rd ra rb : RegNo)
  /-- R160. The Epru sets RD to 1 if the FP32 values in RA and RB are equal. -/
  | feq (core : Core) (rd ra rb : RegNo)
  /-- R160. The Epru sets RD to RA plus the sign-extended immediate. -/
  | addi (core : Core) (rd ra : RegNo) (imm : BitVec 16)
  /-- R160. The Epru sets RD to RA AND the zero-extended immediate. -/
  | andi (core : Core) (rd ra : RegNo) (imm : BitVec 16)
  /-- R160. The Epru sets RD to RA OR the zero-extended immediate. -/
  | ori (core : Core) (rd ra : RegNo) (imm : BitVec 16)
  /-- R160. The Epru sets RD to RA XOR the zero-extended immediate. -/
  | xori (core : Core) (rd ra : RegNo) (imm : BitVec 16)
  /-- R160. SHI with IMM[7:6] 0b00 shifts RA left by IMM[5:0]. -/
  | shiSll (core : Core) (rd ra : RegNo) (amount : BitVec 6)
  /-- R160. SHI with IMM[7:6] 0b01 shifts RA right logically by IMM[5:0]. -/
  | shiSrl (core : Core) (rd ra : RegNo) (amount : BitVec 6)
  /-- R160. SHI with IMM[7:6] 0b10 shifts RA right arithmetically by IMM[5:0]. -/
  | shiSra (core : Core) (rd ra : RegNo) (amount : BitVec 6)
  /-- R160. The Epru sets RD to IMM times 2^16, sign-extended from bit 31. -/
  | lui (core : Core) (rd : RegNo) (imm : BitVec 16)
  /-- R210. The Epru loads 64 bits from scratchpad into RD, with the result ready after the load latency. -/
  | ld (core : Core) (rd ra : RegNo) (imm : BitVec 16)
  /-- R210. The Epru loads 32 bits, zero-extended, from scratchpad into RD. -/
  | lw (core : Core) (rd ra : RegNo) (imm : BitVec 16)
  /-- R210. The Epru places a 64-bit store into its store buffer, waiting if the buffer is full. -/
  | sd (core : Core) (rd ra : RegNo) (imm : BitVec 16)
  /-- R210. The Epru places a 32-bit store into its store buffer, waiting if the buffer is full. -/
  | sw (core : Core) (rd ra : RegNo) (imm : BitVec 16)
  /-- R210. A buffered Epru store is written in the first EPRU entry of its bank in which no load is served. -/
  | epruStoreWrite (core : Core)
  /-- R162. The Epru sends a 4-byte register-space read as a REGRD and waits for its REGR. -/
  | rld (core : Core) (rd ra : RegNo) (imm : BitVec 16)
  /-- R162. The Epru sends a 4-byte register-space write as a REGWR and waits for its REGR. -/
  | rst (core : Core) (rd ra : RegNo) (imm : BitVec 16)
  /-- R160. The Epru branches by OFF if RA equals RB. -/
  | beq (core : Core) (ra rb : RegNo) (off : BitVec 16)
  /-- R160. The Epru branches by OFF if RA differs from RB. -/
  | bne (core : Core) (ra rb : RegNo) (off : BitVec 16)
  /-- R160. The Epru branches by OFF if RA < RB signed. -/
  | blt (core : Core) (ra rb : RegNo) (off : BitVec 16)
  /-- R160. The Epru branches by OFF if RA >= RB signed. -/
  | bge (core : Core) (ra rb : RegNo) (off : BitVec 16)
  /-- R160. The Epru branches by OFF if RA < RB unsigned. -/
  | bltu (core : Core) (ra rb : RegNo) (off : BitVec 16)
  /-- R160. The Epru branches by OFF if RA >= RB unsigned. -/
  | bgeu (core : Core) (ra rb : RegNo) (off : BitVec 16)
  /-- R160. The Epru saves PC + 1 in RD and jumps by OFF. -/
  | jal (core : Core) (rd : RegNo) (off : BitVec 21)
  /-- R160. The Epru saves PC + 1 in RD and jumps to RA + IMM. -/
  | jr (core : Core) (rd ra : RegNo) (imm : BitVec 16)
  /-- R163. The Epru reads a register of its own CORE block into RD. -/
  | csrr (core : Core) (rd : RegNo) (offset : BitVec 11)
  /-- R163. The Epru writes RA to a register of its own CORE block, as a host write would. -/
  | csrw (core : Core) (ra : RegNo) (offset : BitVec 11)
  /-- RDT with IMM 0 reads TB into RD. -/
  | rdtTb (core : Core) (rd : RegNo)
  /-- RDT with IMM 1 reads WT into RD. -/
  | rdtWt (core : Core) (rd : RegNo)
  /-- RDT with IMM 2 reads SEG_BASE into RD, or 0 outside a tract slot. -/
  | rdtSegBase (core : Core) (rd : RegNo)
  /-- RDT with IMM 3 reads the core index into RD. -/
  | rdtCoreIndex (core : Core) (rd : RegNo)
  /-- RDT with IMM 4 reads the tract slot into RD, or all ones outside a slot. -/
  | rdtTractSlot (core : Core) (rd : RegNo)
  /-- RDT with IMM 5 reads the segment number into RD. -/
  | rdtSegmentNumber (core : Core) (rd : RegNo)
  /-- RDT with IMM 6 reads the rerun count into RD. -/
  | rdtRerunCount (core : Core) (rd : RegNo)
  /-- R166. The Epru writes one engine bundle from RB:RA into its issue queue, with TS increased by RD, checking it as it is written. -/
  | issue (core : Core) (rd ra rb : RegNo)
  /-- R166. The Epru writes RB bundles from scratchpad into the issue queues, one per CCLK, checking each. -/
  | biss (core : Core) (rd ra rb : RegNo)
  /-- R169. A bundle waiting on a full queue is written at the first CCLK edge strictly after an entry of that queue is released, and is then tested for lateness. -/
  | issueQueueWaitEnd (core : Core)
  /-- R175. The Epru waits until an arrival counter reaches a target, taking 1 CCLK if it already has. -/
  | waitc (core : Core) (ra : RegNo) (imm : BitVec 16)
  /-- R175. A waiting WAITC ends at the first CCLK edge at or after the satisfying increment plus 4 ACLK. -/
  | waitcSatisfied (core : Core)
  /-- R172. The Epru sets an arrival counter to RA[31:0]. -/
  | setc (core : Core) (ra : RegNo) (imm : BitVec 16)
  /-- R160. The Epru reads an arrival counter into RD. -/
  | rdc (core : Core) (rd : RegNo) (imm : BitVec 16)
  /-- R160. The Epru copies 1 to 1,024 lines from scratchpad into its instruction store. -/
  | ifill (core : Core) (ra rb : RegNo) (fn : BitVec 10)
  /-- R177. The Epru executes a segment barrier of KIND SEG and waits for the release. -/
  | barSeg (core : Core)
  /-- R180. The Epru executes a barrier of KIND STEP, which at COMMIT is the step boundary. -/
  | barStep (core : Core)
  /-- R181. The Epru latches a rerun request with cause bit 5 and a program cause. -/
  | reqr (core : Core) (cause : BitVec 8)
  /-- R194. The Epru faults its tract with cause 0x0B and a program code. -/
  | tfault (core : Core) (code : BitVec 8)
  /-- R170. A released stream/route NOP has no effect, and is rejected if a reserved bit is set. -/
  | srNop (core : Core) (payload : BitVec 76)
  /-- R170. A released LARRIVE increments the core's named arrival counter in its release ACLK. -/
  | larrive (core : Core) (payload : BitVec 76)
  /-- R171. At a commit, the segment's deferred bundles are released in order, one per ACLK, from the barrier's release ACLK. -/
  | deferredBundleRelease (core : Core)
  /-- R177. A core arrives at a barrier once its Epru has executed BAR, its queues are empty and its operations and remote writes are complete, and sends its vote. -/
  | barrierArrival (core : Core)
  /-- R245. A router forwards one BAR packet toward the root 2 NCLK after it holds the arrivals of its core and of every router beyond it. -/
  | barPacketForward (core : Core)
  /-- R179. A core receives the barrier release, takes its release ACLK, and raises BARRIER_SKEW and latches a rerun if the release came late. -/
  | brelReceive (core : Core)
  /-- R176. At the release ACLK every core sets SEG_BASE and either commits and continues or restores its state and reruns the segment. -/
  | barrierRelease (slot : Slot)
  /-- R179. A barrier not complete at the root within TRACT_BAR_TIMEOUT faults the tract with cause 0x05. -/
  | barrierTimeout (slot : Slot)
  /-- R187. An access blocked by a tag for longer than TRACT_TAG_TIMEOUT faults the tract with cause 0x08. -/
  | tagBlockTimeout (core : Core) (port : Fin 16) (bank : Fin 32)
  /-- R190. A write of TRACT_CTRL.LOAD validates a FREE slot and moves it to LOADED, or raises TRACT_REJECTED. -/
  | tractLoad (slot : Slot)
  /-- R194. A write of TRACT_CTRL.FREE returns a LOADED, STOPPED, HALTED or FAULTED slot to FREE with its Reset values. -/
  | tractFree (slot : Slot)
  /-- R192. A write of TRACT_CTRL.ENABLE = 1 fills the code and releases a LOADED slot, resumes a STOPPED one, sets ENABLE_PENDING in STOPPING, or wakes the module. -/
  | tractEnable (slot : Slot)
  /-- R192. A write of TRACT_CTRL.ENABLE = 0 moves a RUNNING slot to STOPPING, a SUSPENDED slot to STOPPED, or clears ENABLE_PENDING. -/
  | tractDisable (slot : Slot)
  /-- R192. The instruction-store fill of an enabled LOADED slot completes and the tract's first release is scheduled SLACK later. -/
  | tractCodeFillComplete (slot : Slot)
  /-- R208. A word-mode port access is served in the first NCLK in which its bank serves an entry of the port with capacity, applying write, accumulate, tags and the detection check. -/
  | scratchpadAccessServed (core : Core) (port : Fin 16) (bank : Fin 32)
  /-- R222. A row-mode agent reads or writes one 512 B row through a whole bank group, by precedence. -/
  | rowAccessServed (core : Core) (group : Fin 4)
  /-- R221. A write of 1 to SP_CTRL.INJ_ARM makes the next word-mode write store its code with bit 0 inverted. -/
  | spInjArmWrite (core : Core)
  /-- R224. A write of SP_BIST.START starts BIST on an available core. -/
  | spBistStart (core : Core)
  /-- R224. BIST ends, leaving every line zero with a fresh code and recording any failing row. -/
  | spBistComplete (core : Core) (row : Option (Fin 10240)) (line : Option (Fin 81920))
  /-- R225. A host BAR4 read is served from whole scratchpad rows, or refused with Completer Abort. -/
  | bar4Read (tag : Fin 16384) (offset : BitVec 34) (n : Fin 4097)
  /-- R225. A host BAR4 write stores every wholly covered aligned row and discards partial rows. -/
  | bar4Write (offset : BitVec 34) (data : List Byte) (be : List Bool)
  /-- R238. A packet header reaching a router's input is routed and reaches the next router or port 2 NCLK later, or is discarded for a reserved encoding. -/
  | routerHop (core : Core) (packet : Packet)
  /-- R242. A RED or AMAX packet enters its router's merge stage and joins a matching waiting entry or takes its own. -/
  | mergeStageEntry (core : Core) (packet : Packet)
  /-- R242. A merge entry leaves its stage so that it reaches the next router or port in NCLK m + 9. -/
  | mergeStageExit (core : Core)
  /-- R254. A packet on the Rim ring crosses one segment in 4 NCLK in its chosen direction. -/
  | rimRingHop (stop : Fin 16) (packet : Packet)
  /-- R240. A WR presented to its destination is written, or discarded with a REFUSED WACK under R252. -/
  | fbWrDeliver (core : Core) (packet : Packet)
  /-- R247. An RD presented to its destination is read and answered with an RDR, or with zeros and REFUSED. -/
  | fbRdDeliver (core : Core) (packet : Packet)
  /-- R244. A RED delivered to a core is applied as ADD_PAIR64 and increments its counter by COUNT. -/
  | fbRedDeliver (core : Core) (packet : Packet)
  /-- R162. A REGRD reaching a CORE slot or REG is acted on and answered with a REGR carrying data or ADDRESS_ERROR. -/
  | regrdDeliver (packet : Packet)
  /-- R162. A REGWR reaching a CORE slot or REG is applied as a register write and acknowledged with a REGR. -/
  | regwrDeliver (packet : Packet)
  /-- R247. A read response reaching its requester is written or delivered, latching a rerun if poisoned or refused. -/
  | rdrReceive (packet : Packet)
  /-- R240. A WACK reaching its source releases one outstanding packet and counts toward a bundle's completion. -/
  | wackReceive (packet : Packet)
  /-- R162. A REGR reaching an Epru completes its RLD or RST. -/
  | regrReceive (packet : Packet)
  /-- R247. A released FWR cuts its run of lines into WR packets read through FAB_OUT. -/
  | fwr (core : Core) (payload : BitVec 76)
  /-- R247. A released FRD sends RD requests for its run of lines. -/
  | frd (core : Core) (payload : BitVec 76)
  /-- R247. A released FRED sends its run of lines as RED packets of PAIR64 elements. -/
  | fred (core : Core) (payload : BitVec 76)
  /-- R253. A flit failing its CRC is resent from the retry buffer and FB_LINK_RETRIES is incremented. -/
  | linkFlitError (link : LinkId)
  /-- R253. A link direction idle for 64 NCLK sends a heartbeat flit while HB_EN is 1. -/
  | heartbeatSend (link : LinkId)
  /-- R253. A receiver that sees no flit for 256 NCLK marks the mesh link or ring segment down. -/
  | linkHeartbeatLapse (link : LinkId)
  /-- R296. An injector drives a Bow write onto its rows once the first line has reached it and the bus is free, one line per NCLK. -/
  | bowWriteInject (east : Bool) (fy : Fin 5)
  /-- R258. A Bow line passing a tap in its column range is buffered for BOW_IN or the row agent and offered to the held loader, or discarded. -/
  | bowLineAtTap (core : Core)
  /-- R270. An accepted READ returns its accesses as left by every earlier accepted request. -/
  | hbmRead (chan : Chan) (upsets : List Upset)
  /-- R268. An accepted WRITE writes its masked bytes, whole or by read-merge-rewrite, and is acknowledged at acceptance. -/
  | hbmWrite (chan : Chan) (upsets : List Upset)
  /-- R278. An accepted ACCUMULATE applies its Lauter operation in the coalescing store, allocating an entry if needed. -/
  | hbmAccumulate (chan : Chan) (upsets : List Upset)
  /-- R268. An accepted READ_CLEAR returns its accesses and leaves them zero. -/
  | hbmReadClear (chan : Chan) (access : Fin 41943040) (upsets : List Upset)
  /-- R269. A controller accepts a request once its whole payload has entered the queue within the 256-access limit, or refuses it. -/
  | channelRequestAccept (packet : Packet)
  /-- R274. A read is decoded in 8 MCLK, corrected or found poisoned, and its response header presented. -/
  | hbmReadComplete (chan : Chan)
  /-- R271. A request incomplete at 1,440 MCLK is ended, reads with poisoned zeros and writes with poisoned accesses. -/
  | hbmRequestTimeout (chan : Chan)
  /-- R275. An access found with a correctable error is rewritten corrected through a write-back slot, unless a later request cancelled it. -/
  | eccWriteback (chan : Chan)
  /-- R275. Every HBMC_SCRUB.INTERVAL the scrubber reads, decodes, counts and rewrites the next access of the channel. -/
  | patrolScrubRead (chan : Chan) (upsets : List Upset)
  /-- R281. A write of HBMC_CTRL.FLUSH starts writing back every dirty coalescing entry of the stack. -/
  | hbmFlushWrite (stack : Stack)
  /-- R281. A flush ends when every entry dirty at its start has been written back. -/
  | hbmFlushEnd (stack : Stack)
  /-- R287. A write of HBMC_CTRL.MAPOUT maps out the stack with reason SOFTWARE. -/
  | hbmMapoutWrite (stack : Stack)
  /-- R283. A write of HBMC_CTRL.ENABLE starts stopping or enabling the stack, or sets or clears ENABLE_PENDING. -/
  | hbmEnableWrite (stack : Stack) (value : Bool)
  /-- R282. A stack leaves self-refresh and becomes ENABLED. -/
  | hbmEnablingEnd (stack : Stack)
  /-- R282. A stack completes its queue, flushes, enters self-refresh and becomes DISABLED or MAPPED_OUT. -/
  | hbmStoppingEnd (stack : Stack)
  /-- R489. A stack's hottest die temperature is sampled, doubling refresh above 85 C and tripping at 105 C. -/
  | stackTempSample (stack : Stack) (celsius : BitVec 8)
  /-- R304. A write of STRM_GS_CTRL.ENABLE checks and enables a grist stream, or stops it, or sets or clears ENABLE_PENDING. -/
  | gsEnableWrite (stream : Stream) (value : Bool)
  /-- R304. A stopping grist stream becomes DISABLED once its writes on the bus complete. -/
  | gsStoppingEnd (stream : Stream)
  /-- R295. A position starts its fetch once the position WD earlier is released and its writes are complete, issuing its reads. -/
  | gristPositionFetch (stream : Stream)
  /-- R298. A Grist read response arrives at its injector, and a poisoned or refused line spoils its write, which is read and driven once more. -/
  | gristSourceResponse (packet : Packet)
  /-- R301. A released GNEED checks that its counter has reached the target with a stamp at least MARGIN old, or latches a rerun as an underrun. -/
  | gneed (core : Core) (payload : BitVec 76)
  /-- R302. A released GREL releases the stream's oldest fetched position. -/
  | grel (core : Core) (payload : BitVec 76)
  /-- R308. A released SAVE packs scratchpad lines through the Fulling unit and writes a record at the uncommitted top of the save area. -/
  | save (core : Core) (payload : BitVec 76)
  /-- R315. A SAVE completes when every record write has its WACK and increments its counter if ARRIVE is 1. -/
  | saveComplete (core : Core)
  /-- R309. A released PFSTART starts the prefetcher at the committed top of the save area. -/
  | pfstart (core : Core) (payload : BitVec 76)
  /-- R309. A saved record starts its fetch once the record PD earlier is released and written, reading its trailer and data. -/
  | pfRecordFetch (core : Core)
  /-- R309. A record's unpacked lines are all written, its counter is incremented and stamped, and the prefetch pointer moves below it. -/
  | pfRecordComplete (core : Core)
  /-- R311. A released ANEED tests a prefetch counter and stamp against STP_PF_MARGIN, latching a rerun on an underrun. -/
  | aneed (core : Core) (payload : BitVec 76)
  /-- R311. A released AREL releases the oldest unreleased record's slot. -/
  | arel (core : Core) (payload : BitVec 76)
  /-- R314. A write of STP_CTRL.ENABLE starts stopping or enabling the stream port. -/
  | stpEnableWrite (core : Core) (value : Bool)
  /-- R314. Stream-port STOPPING ends when released operations and prefetch writes complete. -/
  | stpStoppingEnd (core : Core)
  /-- R314. Stream-port ENABLING ends after 16 ACLK and the port becomes ENABLED. -/
  | stpEnablingEnd (core : Core)
  /-- R327. The Racking engine sends a pending granule to its targets as WR packets within the rate limits. -/
  | rackGranuleCopy
  /-- R329. A copy's WACK or failure arrives, sealing a target when all its copies are acknowledged or failing it. -/
  | rackCopyResponse (packet : Packet)
  /-- R331. A write of STRM_RK_CTRL.ENABLE disables Racking, starts stopping it, or sets or clears ENABLE_PENDING. -/
  | rkEnableWrite (value : Bool)
  /-- R323. A write of STRM_RK_CTRL.NOW makes a Racking due at the next step boundary. -/
  | rkNowWrite (value : Bool)
  /-- R340. A write of BRIM_CTRL.ENABLE starts training, stopping or a fresh start of a port, or sets or clears ENABLE_PENDING. -/
  | brimEnableWrite (port : Port) (value : Bool)
  /-- R339. A write of BRIM_CTRL.RETRAIN retrains a port that is UP or DEGRADED. -/
  | brimRetrainWrite (port : Port)
  /-- R339. A group losing block lock makes its port retrain. -/
  | blockLockLoss (port : Port) (group : Bool)
  /-- R339. A training attempt ends within 50 ms, bringing the port UP or DEGRADED, or counting a failure toward FAILED. -/
  | brimTrainingAttemptEnd (port : Port) (lockA lockB : Bool)
  /-- R339. Every 1 s a DEGRADED port retries its missing group. -/
  | brimGroupRetry (port : Port) (locks : Bool)
  /-- R340. After draining or 100 us the link is lowered, unacknowledged packets are discarded and the port is DISABLED. -/
  | brimStoppingEnd (port : Port)
  /-- R346. A received DATA flit is checked, its ACK, NAK and credits applied, and the packets in it accepted in LSEQ order or discarded. -/
  | brimDataFlit (port : Port) (flit : BrimFlit)
  /-- R342. A received IDLE flit carries ACK, NAK and credit returns. -/
  | brimIdleFlit (port : Port) (flit : BrimFlit)
  /-- R339. A received PEER message gives the peer's id, port, mode and initial credits during training. -/
  | brimPeerFlit (port : Port) (msg : PeerMsg)
  /-- R371. A received TIME flit carries a time-alignment request or reply, and a reply updates the offset, rate and lock state. -/
  | brimTimeFlit (port : Port) (reply : Bool) (t1 t2 t3 : Nat)
  /-- R371. Every PERIOD_MS a non-root module sends a time request stamped t1 to its upstream module. -/
  | timeExchangeStart
  /-- R371. An IEEE 1588 Sync, Follow_Up, Delay_Req or Delay_Resp message is handled for time alignment in Ethernet mode. -/
  | ptpMessage (port : Port) (msg : PtpMsg)
  /-- R346. After 2 us with unacknowledged packets and no ACK progress the port resends them, and retrains after eight resends. -/
  | brimReplayTimeout (port : Port)
  /-- R348. A received Ethernet frame is checked for its sequence and EtherType and delivers its packet, or is discarded. -/
  | brimFrameReceive (port : Port) (good : Bool) (corr uncorr : Nat) (etype : BitVec 16) (packet : BrimPkt)
  /-- R348. A received priority flow control frame pauses or resumes the request or response priority. -/
  | pfcPauseFrame (port : Port) (iface : Bool) (enables : BitVec 8) (times : List (BitVec 16))
  /-- R368. A port begins sending its next packet by priority once credits are held, demoting a non-conforming reserved packet. -/
  | brimPacketTransmit (port : Port)
  /-- R363. A request for another module is queued at a port, taking a free remote tag or waiting for one. -/
  | brimRequestQueue (port : Port) (packet : Packet)
  /-- R353. A received WR for this module is issued onto the Rim ring and answered when its WACK arrives, or is forwarded. -/
  | brimWr (port : Port) (packet : BrimPkt)
  /-- R353. A received RD for this module is issued locally and answered with its data, or is forwarded. -/
  | brimRd (port : Port) (packet : BrimPkt)
  /-- R353. A received REGRD is served if REMOTE_REG is 1 in the receiving port and refused otherwise. -/
  | brimRegrd (port : Port) (packet : BrimPkt)
  /-- R353. A received REGWR is served if REMOTE_REG is 1, which may carry a remote reset command. -/
  | brimRegwr (port : Port) (packet : BrimPkt)
  /-- R366. A received read response frees its tag and is delivered, or is discarded as stale. -/
  | brimRdr (port : Port) (packet : BrimPkt)
  /-- R366. A received WACK frees its tag and is delivered, or is discarded as stale. -/
  | brimWack (port : Port) (packet : BrimPkt)
  /-- R366. A received REGR frees its tag and is delivered, or is discarded as stale. -/
  | brimRegr (port : Port) (packet : BrimPkt)
  /-- R385. A received RACC for this module is issued to the controller of its ADDR or its verification slot. -/
  | brimRacc (port : Port) (packet : BrimPkt)
  /-- R364. A request whose response is not accepted by t + RTB is completed locally with STATUS TIMEOUT. -/
  | remoteTagTimeout (tag : Fin 16384)
  /-- R365. A completed tag becomes free again 2 x RTB after its completion. -/
  | tagCoolEnd (tag : Fin 16384)
  /-- R369. A write enabling a flow context or changing its RATE is admitted only if the enabled total stays at most 900 units. -/
  | brimFlowWrite (port : Port) (flow : Fin 256) (value : BitVec 32)
  /-- R381. A RED for another module is converted at its Brim port into a RACC with a derived step, plus a duplicate when sampled. -/
  | redToRacc (port : Port) (packet : Packet)
  /-- R385. A controller accepts a RACC and decides NO_WINDOW, MALFORMED, POISONED, EARLY, LATE or applies it, answering with a WACK. -/
  | raccAccept (packet : Packet)
  /-- R388. A local RED to an enabled window is tested and applied or counted, and is always answered OK. -/
  | localRedAccept (packet : Packet)
  /-- R387. The controller holding a chunk's count word adds the applied CONTRIB to it, saturating. -/
  | countUpdate (chan : Chan)
  /-- R379. A write of RED_WIN_CTRL.ENABLE checks and starts clearing a window, or stops it, or sets or clears ENABLE_PENDING. -/
  | redWinEnableWrite (win : Win) (value : Bool)
  /-- R379. Zeros are written over a window's span, counts and verification region, and it becomes ARMED or DISABLED. -/
  | windowClearingComplete (win : Win)
  /-- R379. An OPEN window whose deadline DLN passes enters CLOSING. -/
  | windowDeadline (win : Win)
  /-- R390. Close-out issues its first request 2,000 ns after DLN, or after processing closed the window. -/
  | closeOutStart (win : Win)
  /-- R394. Close-out finishes reading and clearing every chunk, writing results, and the window becomes CLOSED with its record written. -/
  | closeOutEnd (win : Win)
  /-- R402. At the later of S and the marked slots' STEP arrivals, the module runs the eight step-boundary actions and then releases the STEP barriers. -/
  | stepBoundaryProcessing
  /-- R401. A filtered rising edge of STEP_SYNC is stamped and, if first in its capture window, sets the correction of the next boundary. -/
  | stepSyncEdge
  /-- R401. A capture window that closes with no edge gives a correction of 0 and raises STEP_SYNC reason 0x3. -/
  | syncWindowEnd
  /-- R537. STEP_OUT returns low 1,000 ns after the beginning of step-boundary processing. -/
  | stepOutEnd
  /-- R415. A router sees no pulse from its powered core domain for 4,096 NCLK. -/
  | corePulseLapse (pos : Pos)
  /-- R415. A write to HLTH_CORE_FAIL in expert mode declares the named position failed. -/
  | hlthCoreFailWrite (phys : Bool) (index : Fin 32768)
  /-- R415. Within 20 us of a criterion, firmware declares a position failed, logs it and halts the slots that cover its segment. -/
  | coreFailureDeclaration
  /-- R418. Firmware chooses, tests, commits and switches in a healthy spare in seven phases and revalidates halted slots to LOADED. -/
  | spareSubstitution (tries : List (Bool × Fin 7))
  /-- R419. With no healthy spare, firmware marks the core unusable and moves each covering halted slot to the first qualifying origin. -/
  | rePlacement
  /-- R411. A write to HLTH_LOSS folds the loss into the moving average and tests it for a spike. -/
  | hlthLossWrite (loss : BitVec 32)
  /-- R411. A write of HLTH_LOSS_CFG.CLEAR sets n to 0 and the average to +0.0. -/
  | hlthLossClear
  /-- R410. A write to HLTH_NF_ADD adds its value to HLTH_NONFINITE. -/
  | hlthNfAddWrite (count : BitVec 32)
  /-- R413. After each 10 ms interval the Hydrometer decays RISK, adds the interval's input and tests it against RACK_THRESHOLD. -/
  | hydrometerUpdate
  /-- R441. PWR_OK low holds a cold reset. -/
  | pwrOkLow
  /-- Release of a cold reset begins once PWR_OK has been high for 1 ms and REFCLK has run 4,096 cycles. -/
  | pwrOkRelease
  /-- R530. A busbar falling below the lockout threshold holds a cold reset. -/
  | busbarUvloFall
  /-- R530. A busbar rising above the rising threshold lets the cold reset be released. -/
  | busbarUvloRise
  /-- R441. PERST_N asserted holds the host port in reset and applies the warm or compute class of PERST_CLASS. -/
  | perstNAssert
  /-- R441. PERST_N deasserted lets the host port be released. -/
  | perstNDeassert
  /-- R441. A low on MOD_RST_N that lasts 1 us performs a warm reset. -/
  | modRstNLow
  /-- R441. MOD_RST_N returning high lets the warm reset be released. -/
  | modRstNHigh
  /-- R442. A keyed write of RST_CMD with class warm performs a warm reset if allowed on its path. -/
  | rstCmdWarm (path : CmdPath) (key : BitVec 8)
  /-- R442. A keyed write of RST_CMD with class compute performs a compute reset if allowed on its path. -/
  | rstCmdCompute (path : CmdPath) (key : BitVec 8)
  /-- R438. A keyed write of RST_CMD with class tract resets one slot. -/
  | rstCmdTract (path : CmdPath) (key : BitVec 8) (target : Fin 32768)
  /-- R439. A keyed write of RST_CMD with class core resets one core not in a LOADED or later slot. -/
  | rstCmdCore (path : CmdPath) (key : BitVec 8) (phys : Bool) (target : Fin 32768)
  /-- R443. A write to RST_WDOG_KICK restarts the watchdog's timeout. -/
  | wdogKickWrite
  /-- R443. The enabled watchdog expires RST_WDOG.MS after its last kick and performs its warm or compute reset. -/
  | watchdogExpiry
  /-- R448. A field PLL that loses lock after release raises PLL_UNLOCK and causes a warm reset. -/
  | pllLossOfLock (field : FieldId)
  /-- R445. A domain showing no clock edge in 16 REFCLK cycles is switched to REFCLK bypass, reset and its PLL restarted. -/
  | clockLoss (domain : Fin 6) (field : FieldId)
  /-- R446. A domain reaches clock-good 4,096 REFCLK cycles after its PLL locks or REFCLK is detected. -/
  | clockGood (field : FieldId)
  /-- R446. A domain is released on the 64th edge of its clock after clock-good or after the request, whichever is later. -/
  | domainRelease (domain : Fin 6) (field : FieldId)
  /-- R459. A start-up phase ends within its bound and the next phase begins. -/
  | startUpPhaseEnd (facts : PhaseFacts)
  /-- R462. A core reports its known-answer signature, which passes if it equals EXPECT. -/
  | karReport (pos : Pos) (part : Fin 3) (signature : BitVec 64)
  /-- R462. A core that has not reported within 300 ms, or 600 ms while RESTRICTED, fails the known-answer run. -/
  | karDeadline (pos : Pos)
  /-- R460. MOD_STATUS.READY is set once P6 has ended and the BRIM_AUTO ports have left TRAINING or BRIM_WAIT_MS has passed. -/
  | readySet
  /-- R463. Firmware commits the spare map found in start-up to the lifetime store within 1.5 s after READY. -/
  | startUpMapCommit
  /-- R453. A write of RST_TRIM.RETRY stores FAILS = 0 so that the next start-up loads NORMAL. -/
  | trimRetryWrite
  /-- R433. A new skim level takes effect in every field at the first frame boundary at least 100 ns after the request. -/
  | skimLevelChange
  /-- R469. A write of PWR_CTRL.TARGET starts a descent one rung at a time or wakes the module toward Boil. -/
  | pwrTargetWrite (target : Fin 4)
  /-- R469. The module enters the next lower power state once its entry condition holds, saving core state or powering down as the rung requires. -/
  | powerRungEnter
  /-- R470. Entry to a rung completes, and a pending wake then starts the exit. -/
  | powerRungReached
  /-- R470. The module reaches Boil after a wake, counting PWR_WAKES and starting the ramp. -/
  | powerExitComplete
  /-- R471. With AUTO_SIMMER set, the module enters Simmer once no slot has been RUNNING or STOPPING for 100 us. -/
  | autoSimmerIdle
  /-- R475. After a Cellar exit, BIST and the firmware broadcast end and PWR_STATUS.CORES_READY becomes 1. -/
  | coresReadySet
  /-- R478. Each 10 us input-power sample updates the requested skim level against PENV and HYST. -/
  | powerSample (watts : BitVec 32) (millivolts : BitVec 32)
  /-- R481. Every 5 us of a ramp the ramp level falls by one, to 0 at 40 us. -/
  | rampStep
  /-- R482. Each 10 us a field's highest junction reading is taken and tested against the warning, park, unpark and trip thresholds. -/
  | fieldTempSample (field : FieldId) (reading : BitVec 12) (vcore watts : BitVec 16)
  /-- R484. A write of FLD_CTRL.PARK sets or clears the SOFT park cause of a field. -/
  | fldParkWrite (field : FieldId) (value : Bool)
  /-- R484. A PARKING field whose slots are no longer running stops its core domain into retention and becomes PARKED. -/
  | fieldParkComplete (field : FieldId)
  /-- R487. An unparking field becomes ACTIVE, starts the ramp and releases its suspended and waiting slots. -/
  | fieldUnparkComplete (field : FieldId)
  /-- R482. A write of FLD_CTRL.MAX_CLR sets FLD_TEMP_MAX to the current reading. -/
  | fldMaxClrWrite (field : FieldId)
  /-- R494. A host BAR2 read is served as stack READ requests, completing with poisoned data or Completer Abort as found. -/
  | bar2Read (tag : Fin 16384) (offset : BitVec 41) (n : Fin 4097)
  /-- R494. A host BAR2 write is served as stack WRITE requests with its byte enables. -/
  | bar2Write (offset : BitVec 41) (data : List Byte) (be : List Bool) (poison : Bool)
  /-- R497. A WR to HOST is translated and sent as Memory Write TLPs, and acknowledged when its last TLP is transmitted. -/
  | hostDmaWrite (packet : Packet)
  /-- R496. An RD to HOST is translated and sent as Memory Read requests. -/
  | hostDmaRead (packet : Packet)
  /-- R497. A PCI Express completion arrives, and the read's RDR is sent when the last one has arrived. -/
  | hostCompletion (id : Nat) (status : Fin 3) (data : List Byte) (poison : Bool)
  /-- R497. A host read still unanswered at the completion timeout is answered with a refused RDR of zeros. -/
  | hostCompletionTimeout
  /-- R500. A single 32-bit write of OWNER = 1 hands a job-table entry to the module. -/
  | jobOwnerWrite (job : JobId)
  /-- R501. At action 6 or every 10 us while idle, the module takes the command of every entry whose OWNER is 1. -/
  | jobTablePoll
  /-- R503. LOAD checks an entry in order and loads its placement table and the tracts of shift 0 and shift 63. -/
  | jobLoad (job : JobId) (hostTable : Option (List Byte))
  /-- R502. START writes TRACT_CTRL.ENABLE = 1 to every resident slot of the job. -/
  | jobStart (job : JobId)
  /-- R502. STOP writes ENABLE = 0 to every resident slot of the job. -/
  | jobStop (job : JobId)
  /-- R502. UNLOAD frees every slot of the job and discards its placement table and rings. -/
  | jobUnload (job : JobId)
  /-- R501. A job command completes, writing RESULT and STATE, incrementing SEQ, handing the entry back and signalling vector 1. -/
  | jobCommandComplete (job : JobId)
  /-- R509. A write to HOST_IN_GO of a batch after the last starts its fetch, unless four fetches are already open. -/
  | intakeGo (ring : Ring) (k : BitVec 32)
  /-- R510. A ring entry's header arrives, and a FULL header with the right SEQ starts the payload reads. -/
  | intakeHeaderArrive (ring : Ring)
  /-- R510. Every 1 us a fetch whose header is not yet FULL reads it again. -/
  | intakeHeaderRetry (ring : Ring)
  /-- R510. Once WAIT_NS has passed since the GO, the fetch writes a header with STATUS EMPTY. -/
  | intakeWaitExpire (ring : Ring)
  /-- R510. A fetch's slot writes are complete and it increments the counter NOTE names once. -/
  | intakeFetchComplete (ring : Ring)
  /-- R511. A write to HOST_IN_REL releases fetched entries up to j, writing FLAG 0 to their headers and moving the mark. -/
  | intakeRelease (ring : Ring) (k : BitVec 32)
  /-- R512. The I3C controller replaces the static address by SETDASA or ENTDAA. -/
  | i3cAddressAssign (address : BitVec 7)
  /-- R513. The bus owner assigns the endpoint id of one MCTP binding. -/
  | mctpSetEndpointId (pcie : Bool) (eid : BitVec 8)
  /-- R513. A PLDM Type 0 base command is answered. -/
  | pldmBaseCommand (command : BitVec 8)
  /-- R515. GetSensorReading returns one of the numeric or state sensors. -/
  | pldmGetSensorReading (sensor : BitVec 16)
  /-- R516. A PLDM firmware update writes the device not booted and proves the new image without executing it. -/
  | pldmFirmwareUpdate (device : Fin 2) (image : List Byte) (writeError : Bool)
  /-- R516. ActivateFirmware of a proven image sets RST_BOOT.PREFER to its device. -/
  | pldmActivateFirmware (device : Fin 2)
  /-- R519. The SPDM responder negotiates version, capabilities and algorithms. -/
  | spdmNegotiate (version : BitVec 8) (falcon sha3 : Bool)
  /-- R519. The responder returns the certificate chain of slot 0. -/
  | spdmGetCertificate (slot : Fin 8)
  /-- R519. The responder signs a challenge with the identity of generation SEC_ID_GEN. -/
  | spdmChallenge (slot : Fin 8) (nonce : List Byte)
  /-- R519. The responder returns the signed measurements 1 to 9. -/
  | spdmGetMeasurements (index : BitVec 8) (nonce : List Byte)
  /-- R514. The vendor RESET command acts as a write to RST_CMD with every class allowed. -/
  | mctpReset (value : BitVec 32)
  /-- R514. The vendor WDOG_KICK command kicks the watchdog. -/
  | mctpWdogKick
  /-- R514. The vendor REG_READ command returns 4 bytes from an allowed block. -/
  | mctpRegRead (offset : BitVec 27)
  /-- R514. The vendor REG_WRITE command writes 4 bytes as a host write. -/
  | mctpRegWrite (offset : BitVec 27) (value : BitVec 32)
  /-- R521. A debug token is checked and, if valid, sets SEC_STATUS.DEBUG, and the nonce is replaced. -/
  | debugUnlock (token : Token)
  /-- R522. A valid revocation token blows the fuse of an image-key slot. -/
  | keyRevoke (token : Token)
  /-- R520. A boundary-scan instruction is applied, with EXTEST, CLAMP and HIGHZ only while MOD_RST_N is low. -/
  | jtagInstruction (instr : Fin 8)
  /-- R525. Each second the lifetime log's temperature histograms, power-state times and counters are updated in the window. -/
  | logSecondUpdate
  /-- R526. Every 600 s, and before a warm, compute or trip reset, the log's counters and histograms are committed. -/
  | logPeriodicCommit
  /-- R528. A write of MON_CTRL.CLEAR zeros a monitor. -/
  | monClearWrite (mon : Mon)
  /-- R528. A change of a monitor's SRC or SEL clears it. -/
  | monSourceChange (mon : Mon) (src : Fin 7) (sel : Fin 1024)
  /-- R446. A field PLL achieves lock, which starts (or, after a loss of lock before clock-good, restarts) the 4,096-REFCLK count to clock-good. -/
  | pllLock (field : FieldId)
  /-- R213. For a core in no RUNNING or STOPPING tract, a pending slot plan takes effect (or is refused with PLAN_ERR) at the next reference NCLK, the NCLK beginning at a TB multiple of 32. -/
  | referenceNclk (core : Core)
  /-- R492. A PCI Express configuration write changes the BAR2 size (Resizable BAR), the D0/D3hot state, or the completion timeout in Device Control 2. -/
  | configurationWrite (write : CfgWrite)
  /-- R170. A bundle whose opcode is reserved in its queue (matrix 0x5-0xF, vector 0x7-0xF, stream/route 0x5-0x7 and 0xE-0xF) is released, rejected with its engine's BUNDLE_REJECTED reason 0x1, and the tract faults with cause 0x04. -/
  | reservedOpcodeRelease (core : Core) (queue : Fin 3) (payload : BitVec 80)
  /-- R164. The Epru reaches an instruction with a reserved OP or FN encoding, which faults the tract with cause 0x03, or stops an Epru in no slot. -/
  | epruReservedInstruction (core : Core)
  deriving DecidableEq, Repr

end Sys2Proof
end

