-- ==== Sys2Proof/Decode.lean ====
section
/-! DEFINITION. Words to commands: no row of the command table gives bits, so that no word spells a command. -/

namespace Sys2Proof

/-- The command that a word of nbits bits spells by the command table: none, since no row of the table has bits. -/
def decodeTableWord (_nbits _w : Nat) : Option Instr := none

end Sys2Proof
end

