-- ==== Sys2Proof/Config.lean ====
section
/-! DEFINITION. What an implementation fixes and the spec leaves open: the free values of the model. Each is an opaque
constant, so that nothing can be proved of its value; the log entries of notes/assumptions name them. -/

namespace Sys2Proof.Config

/-- Free value number n: taken where the spec states a value exists and does not state which (State.freeCtr counts the
ones taken; log entry 5). -/
opaque freeWord : Nat → Word64

/-- PAIR64 sum of two pairs of which one holds a finite hi beside a lo that is not finite: R58 says that such a pair is
used as it is held and R67 and R71 state no result for it (log entry 6). -/
opaque pairAddOpen : Nat → Nat → Nat

/-- Byte b of line i of a tile bank that no LOAD has written since the bank was last empty: R93 swaps the bank in as it
stands and no rule states what it holds (log entry 7). -/
opaque tileByte : Nat → Nat → Byte

/-- FP32 code reported as amax for an output of magnitude m × 2^e beyond the FP32 range: R102 leaves the exponent
unbounded until C5 and R103 states no code for it (log entry 8). -/
opaque amaxBeyond : Nat → Int → Nat

/-- Which of the FP32 values that a bound of R129, R139 or R143 allows is taken (by its place in the list of them): by stage
opcode and input; 0x2C and both operands for the softmax quotient; 0x33, θ and j × 1024 + HD for ω_j (log entry 10). -/
opaque ulpPick : Nat → Nat → Nat → Nat

/-- SHAKE256 with 512-bit output (R455 to R457) of a run of bytes: its definition is the standard's and is not unfolded here, so
that nothing rests on a value of it (log entry 14). -/
opaque shake256 : List Byte → List Byte

/-- SHA3-512 of a run of bytes (R519; log entry 14). -/
opaque sha3 : List Byte → List Byte

/-- Does a Falcon-1024 signature verify (R457, R521): public key, message, signature (log entry 14)? -/
opaque falconOk : List Byte → List Byte → List Byte → Bool

/-- The signature that the module's identity of a generation makes over a message (R519; log entry 14). -/
opaque identitySign : Nat → List Byte → List Byte

/-- The certificate chain of slot 0 under an identity generation (R519; log entry 14). -/
opaque certChain : Nat → List Byte

/-- Zornal's JEDEC manufacturer code, 11 bits of the identification code (R520), which the spec does not give (log entry 14). -/
opaque jedec : Nat

end Sys2Proof.Config
end

