-- ==== Sys2Proof/Machine/Num.lean ====
section
/-! DEFINITION. Number formats and arithmetic (02_numerics): the formats of R53 to R57, rounding (R60 to R65), PAIR64
addition (R67, R71), conversions (R72), IEEE 754 single operations, all computed on exact rationals and rounded once. -/

namespace Sys2Proof.Machine

/-- A floating-point format (R55, R56): width, mantissa bits, bias, code of the largest finite value, and the codes of
+infinity and of the canonical NaN where it has them (R57). -/
structure Fmt where
  width : Nat
  mant : Nat
  bias : Nat
  maxCode : Nat
  inf : Option Nat
  nan : Option Nat
  deriving DecidableEq, Repr

def fp32 : Fmt := ⟨32, 23, 127, 0x7F7F_FFFF, some 0x7F80_0000, some 0x7FC0_0000⟩
def bf16 : Fmt := ⟨16, 7, 127, 0x7F7F, some 0x7F80, some 0x7FC0⟩
def fp16 : Fmt := ⟨16, 10, 15, 0x7BFF, some 0x7C00, some 0x7E00⟩
def e4m3 : Fmt := ⟨8, 3, 7, 0x7E, none, some 0x7F⟩
def e5m2 : Fmt := ⟨8, 2, 15, 0x7B, some 0x7C, some 0x7E⟩
def e3m2 : Fmt := ⟨6, 2, 3, 0x1F, none, none⟩

/-- The format that a 4-bit FMT code names (R53), for the floating-point formats. -/
def fmtOf (code : Nat) : Option Fmt :=
  match code with
  | 0 => some fp32 | 1 => some bf16 | 2 => some fp16 | 3 => some e4m3 | 4 => some e5m2 | 5 => some e3m2
  | _ => none

/-- What a code of a format stands for: NaN, an infinity with its sign, or the exact value ±m × 2^e (zero keeps its
sign). -/
inductive Val where
  | nan
  | inf (neg : Bool)
  | fin (neg : Bool) (m : Nat) (e : Int)
  deriving DecidableEq, Repr

/-- Value of a code (R55, R56). -/
def Fmt.val (f : Fmt) (code : Nat) : Val :=
  let neg := bit code (f.width - 1)
  let mag := code % 2 ^ (f.width - 1)
  if mag ≤ f.maxCode then
    let ex := mag / 2 ^ f.mant
    let fr := mag % 2 ^ f.mant
    if ex = 0 then .fin neg fr (1 - (f.bias : Int) - f.mant)
    else .fin neg (2 ^ f.mant + fr) ((ex : Int) - f.bias - f.mant)
  else if f.inf = some mag then .inf neg
  else .nan

/-- Canonical NaN (R57); formats without one convert NaN by R72. -/
def Fmt.qnan (f : Fmt) : Nat := f.nan.getD f.maxCode

/-- The code of a sign and a magnitude code. -/
def Fmt.signed (f : Fmt) (neg : Bool) (mag : Nat) : Nat := if neg then 2 ^ (f.width - 1) + mag else mag

/-- Rounding modes (R60). -/
inductive Rnd where
  | rne | rz | rd | ru | sr
  deriving DecidableEq, Repr

def Rnd.ofCode (c : Nat) : Option Rnd :=
  match c with
  | 0 => some .rne | 1 => some .rz | 2 => some .rd | 3 => some .ru | 4 => some .sr
  | _ => none

/-- 2^e as a fraction. -/
def pow2Num (e : Int) : Nat := if 0 ≤ e then 2 ^ e.toNat else 1
def pow2Den (e : Int) : Nat := if 0 ≤ e then 1 else 2 ^ (-e).toNat

/-- floor(log2(n / d)) for n, d > 0. -/
def ilog2 (n d : Nat) : Int :=
  let g : Int := (Nat.log2 n : Int) - Nat.log2 d
  if n * pow2Den g < d * pow2Num g then g - 1
  else if n * pow2Den (g + 1) < d * pow2Num (g + 1) then g
  else g + 1

/-- A rounding: the magnitude code, unless it overflows (R62 for SR, with the 16 random bits r), and whether it did. -/
structure Rounded where
  code : Nat
  ovf : Bool
  deriving DecidableEq, Repr

/-- Round the magnitude n / d > 0 with the given sign into a format. The magnitude codes of a format count its values
upward, so that the next code is the next value of larger magnitude, and a code above maxCode is an overflow. -/
def Fmt.roundMag (f : Fmt) (mode : Rnd) (neg : Bool) (n d : Nat) (r : Nat) : Rounded :=
  let qmin : Int := 1 - (f.bias : Int) - f.mant
  let q := max (ilog2 n d - f.mant) qmin
  let num := n * pow2Den q
  let den := d * pow2Num q
  let t := num / den
  let rem := num % den
  let code := (q - qmin).toNat * 2 ^ f.mant + t
  let up : Bool :=
    match mode with
    | .rne => decide (den < 2 * rem) || (decide (den = 2 * rem) && decide (t % 2 = 1))
    | .rz => false
    | .rd => neg && decide (rem ≠ 0)
    | .ru => !neg && decide (rem ≠ 0)
    | .sr => decide (r < 65536 * rem / den)
  let code' := if up then code + 1 else code
  ⟨code', decide (f.maxCode < code')⟩

/-- The result of a conversion: the code, whether it is counted as saturated and whether a non-finite value was lost
(R72). -/
structure Conv where
  code : Nat
  counted : Bool := false
  lost : Bool := false
  deriving DecidableEq, Repr

/-- A finite value n / d with its sign converted to a format (R72); `scaled` says that the conversion names a record. -/
def Fmt.convFin (f : Fmt) (mode : Rnd) (scaled : Bool) (neg : Bool) (n d : Nat) (r : Nat) : Conv :=
  if n = 0 then ⟨f.signed neg 0, false, false⟩
  else
    let x := f.roundMag mode neg n d r
    if !x.ovf then ⟨f.signed neg x.code, false, false⟩
    else if scaled || decide (f.width < 16) then ⟨f.signed neg f.maxCode, true, false⟩
    else
      let toInf : Bool :=
        match mode with
        | .rne => true | .sr => true | .rz => false | .rd => neg | .ru => !neg
      ⟨f.signed neg (if toInf then f.inf.getD f.maxCode else f.maxCode), false, false⟩

/-- Conversion of any value to a floating-point format, multiplied by 2^e first (R65), by R72. -/
def Fmt.conv (f : Fmt) (mode : Rnd) (scale : Option Int) (v : Val) (r : Nat) : Conv :=
  match v with
  | .nan => if f = e3m2 then ⟨0x1F, false, true⟩ else ⟨f.qnan, false, false⟩
  | .inf neg =>
    if f = e3m2 then ⟨f.signed neg 0x1F, false, true⟩
    else match f.inf with
      | some c => ⟨f.signed neg c, false, false⟩
      | none => ⟨f.qnan, false, false⟩
  | .fin neg m e =>
    let e' := e + scale.getD 0
    f.convFin mode scale.isSome neg (m * pow2Num e') (pow2Den e') r

/-- SIGN1 of a value (R59, R72): the bit, and whether a NaN was lost. -/
def sign1 (v : Val) : Conv :=
  match v with
  | .nan => ⟨0, false, true⟩
  | .inf neg => ⟨if neg then 0 else 1, false, false⟩
  | .fin neg m _ => ⟨if neg || m = 0 then 0 else 1, false, false⟩

/-- An exact signed dyadic m × 2^e. -/
structure Dy where
  m : Int
  e : Int
  deriving DecidableEq, Repr

def Dy.add (a b : Dy) : Dy :=
  let e := min a.e b.e
  ⟨a.m * (2 ^ (a.e - e).toNat : Nat) + b.m * (2 ^ (b.e - e).toNat : Nat), e⟩

def Dy.mul (a b : Dy) : Dy := ⟨a.m * b.m, a.e + b.e⟩

def Dy.neg (a : Dy) : Dy := ⟨-a.m, a.e⟩

/-- Exact value of a finite Val; 0 for the others. -/
def Val.dy : Val → Dy
  | .fin neg m e => ⟨if neg then -(m : Int) else m, e⟩
  | _ => ⟨0, 0⟩

def Val.isFin : Val → Bool
  | .fin _ _ _ => true
  | _ => false

def Val.isNaN : Val → Bool
  | .nan => true
  | _ => false

/-- Is a less than b? -/
def Dy.lt (a b : Dy) : Bool := decide ((a.add b.neg).m < 0)

/-- Compare two values that are not NaN; -0 equals +0. -/
def Val.lt (a b : Val) : Bool :=
  match a, b with
  | .nan, _ => false
  | _, .nan => false
  | .inf n, .inf n' => n && !n'
  | .inf n, .fin _ _ _ => n
  | .fin _ _ _, .inf n => !n
  | .fin _ _ _, .fin _ _ _ => a.dy.lt b.dy

def Val.eqv (a b : Val) : Bool := !a.isNaN && !b.isNaN && !a.lt b && !b.lt a

/-- The value with its sign turned. -/
def Val.negate : Val → Val
  | .nan => .nan
  | .inf n => .inf (!n)
  | .fin n m e => .fin (!n) m e

def Val.absv : Val → Val
  | .nan => .nan
  | .inf _ => .inf false
  | .fin _ m e => .fin false m e

/-- Round an exact dyadic RNE into FP32; `zneg` is the sign a zero takes. -/
def rnDy (zneg : Bool) (x : Dy) : Nat :=
  if x.m = 0 then fp32.signed zneg 0
  else (fp32.convFin .rne false (decide (x.m < 0)) (x.m.natAbs * pow2Num x.e) (pow2Den x.e) 0).code

/-- A value rounded RNE into FP32. -/
def rnVal (v : Val) : Nat := (fp32.conv .rne none v 0).code

def v32 (a : Nat) : Val := fp32.val a
def fin32 (a : Nat) : Bool := (v32 a).isFin
def nan32 : Nat := 0x7FC0_0000
def one32 : Nat := 0x3F80_0000

/-- Sign of a value. -/
def Val.sgn : Val → Bool
  | .nan => false
  | .inf n => n
  | .fin n _ _ => n

/-- IEEE 754 sum, exact, as a value. -/
def Val.addv (a b : Val) : Val :=
  match a, b with
  | .nan, _ => .nan
  | _, .nan => .nan
  | .inf n, .inf n' => if n = n' then .inf n else .nan
  | .inf n, .fin _ _ _ => .inf n
  | .fin _ _ _, .inf n => .inf n
  | .fin n _ _, .fin n' _ _ =>
    let s := a.dy.add b.dy
    .fin (if s.m = 0 then n && n' else decide (s.m < 0)) s.m.natAbs s.e

/-- IEEE 754 product, exact, as a value (R70). -/
def Val.mulv (a b : Val) : Val :=
  match a, b with
  | .nan, _ => .nan
  | _, .nan => .nan
  | .inf n, .inf n' => .inf (xor n n')
  | .inf n, .fin n' m _ => if m = 0 then .nan else .inf (xor n n')
  | .fin n' m _, .inf n => if m = 0 then .nan else .inf (xor n n')
  | .fin n m e, .fin n' m' e' => .fin (xor n n') (m * m') (e + e')

/-- FP32 sum, difference, product and fused multiply-add, each rounded RNE once (R61). -/
def fadd (a b : Nat) : Nat := rnVal ((v32 a).addv (v32 b))
def fneg (a : Nat) : Nat := if (v32 a).isNaN then nan32 else (a + 2 ^ 31) % 2 ^ 32
def fsub (a b : Nat) : Nat := rnVal ((v32 a).addv (v32 b).negate)
def fmul (a b : Nat) : Nat := rnVal ((v32 a).mulv (v32 b))
def ffma (a b c : Nat) : Nat := rnVal (((v32 a).mulv (v32 b)).addv (v32 c))

/-- FP32 quotient of two values, rounded RNE once. -/
def divVal (a b : Val) : Nat :=
  match a, b with
  | .nan, _ => nan32
  | _, .nan => nan32
  | .inf _, .inf _ => nan32
  | .inf n, .fin n' _ _ => fp32.signed (xor n n') 0x7F80_0000
  | .fin n _ _, .inf n' => fp32.signed (xor n n') 0
  | .fin n m e, .fin n' m' e' =>
    if m' = 0 then (if m = 0 then nan32 else fp32.signed (xor n n') 0x7F80_0000)
    else
      (fp32.convFin .rne false (xor n n') (m * pow2Num (e - e')) (m' * pow2Den (e - e')) 0).code

/-- A PAIR64 as a 64-bit number: hi in [31:0], lo in [63:32] (R58). -/
def pairHi (p : Nat) : Nat := p % 2 ^ 32
def pairLo (p : Nat) : Nat := (p / 2 ^ 32) % 2 ^ 32
def mkPair (hi lo : Nat) : Nat := hi % 2 ^ 32 + (lo % 2 ^ 32) * 2 ^ 32

/-- two_sum of R67, with the intermediates that must not overflow. -/
def twoSum (a b : Nat) : Nat × Nat × List Nat :=
  let s := fadd a b
  let bv := fsub s a
  let av := fsub s bv
  let e1 := fsub a av
  let e2 := fsub b bv
  (s, fadd e1 e2, [s, bv, av, e1, e2])

/-- The hi of R71 where one hi is not finite. -/
def specialHi (a b : Nat) : Nat := rnVal ((v32 a).addv (v32 b))

/-- PAIR64 addition (R67, R71, R75): the sum, and whether ACC_OVERFLOW is raised. -/
def pairAdd (x y : Nat) : Nat × Bool :=
  let xh := pairHi x
  let xl := pairLo x
  let yh := pairHi y
  let yl := pairLo y
  if !fin32 xh || !fin32 yh then (mkPair (specialHi xh yh) 0, false)
  else if !fin32 xl || !fin32 yl then (Config.pairAddOpen x y, false)
  else
    let (s, e, im) := twoSum xh yh
    let t := fadd xl yl
    let e' := fadd e t
    let hi := fadd s e'
    let d := fsub hi s
    let lo := fsub e' d
    if (im ++ [t, e', hi, d, lo]).all fin32 then (mkPair hi lo, false)
    else
      let v := (((v32 xh).dy.add (v32 yh).dy).add (v32 xl).dy).add (v32 yl).dy
      let h := rnDy false v
      if fin32 h then (mkPair h (rnDy false (v.add (v32 h).dy.neg)), false)
      else (mkPair h 0, true)

/-- An FP32 term added to a pair (R67). -/
def pairAddTerm (x v : Nat) : Nat × Bool := pairAdd x (mkPair v 0)

/-- The value of a pair, hi + lo exactly (R64, R75); its hi decides where it is not finite. -/
def pairVal (p : Nat) : Val :=
  match v32 (pairHi p) with
  | .fin n m e =>
    match v32 (pairLo p) with
    | .fin n' m' e' =>
      let s := (Val.fin n m e).dy.add (Val.fin n' m' e').dy
      .fin (decide (s.m < 0)) s.m.natAbs s.e
    | other => other
  | other => other

/-- Largest FP32 magnitude so far and another magnitude (R79): max over non-negative codes. -/
def amaxCode (a b : Nat) : Nat := max a b

/-- Round toward +infinity into BF16 as R80 does: values above the largest BF16 give 0x7F7F; NaN, negative and -0 give 0. -/
def ruBf16 (amax : Nat) : Nat :=
  match v32 amax with
  | .nan => 0
  | .inf neg => if neg then 0 else 0x7F7F
  | .fin neg m e =>
    if neg || m = 0 then 0
    else
      let x := bf16.roundMag .ru false (m * pow2Num e) (pow2Den e) 0
      if x.ovf then 0x7F7F else x.code

/-- A history entry as R80 takes it in forming m. -/
def histEntry (h : Nat) : Nat :=
  match bf16.val h with
  | .nan => 0
  | .inf neg => if neg then 0 else 0x7F7F
  | .fin neg _ _ => if neg then 0 else h

/-- e0 of R80: the largest e with m × 2^e ≤ fmt_max, for a positive BF16 code m. -/
def scaleE0 (m : Nat) (fmtMax : Nat) : Int :=
  match bf16.val m with
  | .fin _ k e =>
    -- fmtMax / (k × 2^e)
    ilog2 (fmtMax * pow2Den e) (k * pow2Num e)
  | _ => 0

/-- Format maxima of the update (R78). -/
def fmtMaxOf (code : Nat) : Nat :=
  match code with
  | 2 => 65504 | 3 => 448 | 4 => 57344 | _ => 28

end Sys2Proof.Machine

namespace Sys2Proof.Machine

/-- Maximum of two codes of a format: NaN if either is NaN, and -0 below +0 (R73, R131). -/
def Fmt.max (f : Fmt) (a b : Nat) : Nat :=
  let x := f.val a
  let y := f.val b
  if x.isNaN || y.isNaN then f.qnan
  else if x.lt y then b
  else if y.lt x then a
  else if x.sgn then b else a

/-- Minimum of two codes of a format: NaN if either is NaN, and -0 below +0 (R73, R131). -/
def Fmt.min (f : Fmt) (a b : Nat) : Nat :=
  let x := f.val a
  let y := f.val b
  if x.isNaN || y.isNaN then f.qnan
  else if x.lt y then a
  else if y.lt x then b
  else if x.sgn then a else b

/-- Sum of two codes of a format, rounded RNE once. -/
def Fmt.add (f : Fmt) (a b : Nat) : Nat := (f.conv .rne none ((f.val a).addv (f.val b)) 0).code

end Sys2Proof.Machine
end

