-- ==== Sys2Proof/Machine/RegTable.lean ====
section
/-! DEFINITION. The register file of the module as data: every register of every block, its place in BAR0, its width,
its arrays and its fields with their access code, reset value and legal encodings (R9 to R23, R46, and the register maps
of each chapter). One row a register; the row's line in INVENTORY.md names the spec file. -/

namespace Sys2Proof.Machine

/-- The register blocks of the BAR0 map (01, BAR0 block map, R46); the CORE block is its six parts. -/
inductive Block where

  | MOD | RST | CLK | PWR | FLD | HBMC | BRIM | RED | STRM | SCALE | TRACT | HOST | MGMT | HLTH | EP | MX | VX | SP
  | FB | STP
  deriving DecidableEq, Repr

/-- First offset, distance between instances and number of instances of a block (01, R46). -/
def Block.place : Block → Nat × Nat × Nat
  | .MOD => (0x0, 0x100000, 1)
  | .RST => (0x100000, 0x100000, 1)
  | .CLK => (0x100000, 0x100000, 1)
  | .PWR => (0x200000, 0x200000, 1)
  | .FLD => (0x400000, 0x10000, 25)
  | .HBMC => (0x1000000, 0x10000, 24)
  | .BRIM => (0x2000000, 0x40000, 6)
  | .RED => (0x3000000, 0x100000, 1)
  | .STRM => (0x3100000, 0x100000, 1)
  | .SCALE => (0x3200000, 0x40, 3072)
  | .TRACT => (0x3400000, 0x10000, 16)
  | .HOST => (0x3800000, 0x400000, 1)
  | .MGMT => (0x3C00000, 0x200000, 1)
  | .HLTH => (0x3E00000, 0x200000, 1)
  | .EP => (0x4000000, 0x800, 18000)
  | .MX => (0x4000000, 0x800, 18000)
  | .VX => (0x4000000, 0x800, 18000)
  | .SP => (0x4000000, 0x800, 18000)
  | .FB => (0x4000000, 0x800, 18000)
  | .STP => (0x4000000, 0x800, 18000)

/-- The registers, by the names the spec gives them. An array of registers is one name with an index. -/
inductive RegId where
  | MOD_ID | MOD_PROFILE | MOD_CTRL | MOD_STATUS | MOD_SERIAL | MOD_MODULE_ID | MOD_STACK_MAP | MOD_SPARE_GEN
  | MOD_SPARES_LEFT | MOD_EVT_WR | MOD_EVT_RD | MOD_EVT_LOST | MOD_SPARE_SKIP | MOD_SPARE_FAIL | RST_PROFILE
  | RST_CTRL | RST_STATUS | RST_CMD | RST_CAUSE | RST_WDOG | RST_WDOG_KICK | RST_TRIM | RST_BOOT | RST_IMAGE_SVN
  | RST_IMAGE_BUILD | CLK_STATUS | CLK_BYPASS | CLK_SKIM | CLK_TB | CLK_WT | CLK_SKIMMED | PWR_PROFILE | PWR_CTRL
  | PWR_STATUS | PWR_PENV | PWR_GOV | PWR_INPUT | PWR_VIN | THERM_PARK_OFS | THERM_CFG | THERM_HOTTEST | PWR_WAKES
  | PWR_CAP_SAMPLES | THERM_TRIPS | FLD_PROFILE | FLD_CTRL | FLD_STATUS | FLD_TEMP | FLD_TEMP_MAX | FLD_VCORE
  | FLD_POWER | FLD_PARKS | HBMC_PROFILE | HBMC_CTRL | HBMC_STATUS | HBMC_ILV | HBMC_ILV_CUR | HBMC_SCRUB
  | HBMC_MAPOUT_THR | HBMC_TEMP | HBMC_CORRECTED | HBMC_UNCORRECTABLE | HBMC_POISON_RETURNED | HBMC_TIMEOUTS
  | HBMC_REFUSED | HBMC_EVICTIONS | HBMC_ERR_INFO | HBMC_ERR_ADDR | HBMC_CH_CE | HBMC_CH_UE | BRIM_PROFILE
  | BRIM_CTRL | BRIM_STATUS | BRIM_CFG | BRIM_PEER | BRIM_ARB | BRIM_ETH | BRIM_TIME | BRIM_TIME_OFS
  | BRIM_CLASS_PROF | BRIM_TAGS | BRIM_TX_BYTES | BRIM_RX_BYTES | BRIM_FEC_CORR | BRIM_FEC_UNCORR | BRIM_REPLAYS
  | BRIM_RETRAINS | BRIM_DEMOTED | BRIM_DROPS | BRIM_STALE | BRIM_TAG_TIMEOUTS | BRIM_FLOW | BRIM_ROUTE | RED_PROFILE
  | RED_CTRL | RED_STATUS | RED_VFY | RED_VFY_KEY | RED_STEP_TRACTS | RED_SYNC_ERR | RED_STEP_PERIOD | RED_STEP_NEXT
  | RED_STEP_COUNT | RED_STEP_LAST | RED_SYNC_LAST | RED_STEP_OVERRUNS | RED_SYNC_EXTRA | RED_RACC_SENT
  | RED_RACC_RETURNED | RED_BAD_CONTRIBS | RED_VFY_COMPARED | RED_VFY_MISMATCHES | RED_RID | RED_WIN_CTRL
  | RED_WIN_STATUS | RED_WIN_DEADLINE | RED_WIN_K | RED_WIN_BASE | RED_WIN_OUT | RED_WIN_CNT | RED_WIN_VBASE
  | RED_WIN_SIZE | RED_WIN_EXPECT | RED_WIN_NOTIFY | RED_WIN_APPLIED | RED_WIN_LATE | RED_WIN_SHORT | RED_WIN_EMPTY
  | STRM_PROFILE | STRM_RK_CTRL | STRM_RK_STATUS | STRM_RK_PERIOD | STRM_RK_CAP | STRM_RK_CASK_MID
  | STRM_RK_CASK_BASE | STRM_RK_HOST_BASE | STRM_RK_BANK_LEN | STRM_RK_MAP_BASE | STRM_RK_LAST_START | STRM_RK_DONE
  | STRM_RK_FAILED | STRM_RK_BYTES | STRM_RK_RBASE | STRM_RK_RLEN | STRM_GS_CTRL | STRM_GS_STATUS | STRM_GS_MARGIN
  | STRM_GS_DST | STRM_GS_LTAB | STRM_GS_NLAYERS | STRM_GS_LINES | STRM_GS_RETRIES | SCALE_CTRL | SCALE_STATE
  | SCALE_CUR_AMAX | SCALE_PROFILE | SCALE_SAT_COUNT | SCALE_NF_COUNT | SCALE_HIST_W | TRACT_PROFILE | TRACT_CTRL
  | TRACT_STATUS | TRACT_ORIGIN | TRACT_SIZE | TRACT_MODE | TRACT_ENTRY | TRACT_BAR_SLACK | TRACT_TAG_TIMEOUT
  | TRACT_BAR_TIMEOUT | TRACT_RERUN | TRACT_FAULT_INFO | TRACT_SEG | TRACT_SEG_BASE | TRACT_RERUNS | TRACT_AUDIT_RD
  | TRACT_AUDIT_WR | TRACT_SWAP_BASE | TRACT_CODE | TRACT_TWIN_BASE | TRACT_TWIN_LEN | HOST_PROFILE | HOST_CTRL
  | HOST_STATUS | HOST_BAR2_SEL | HOST_BAR4_SEL | HOST_DMA_ERRORS | HOST_IN_DROPPED | HOST_IN_GO | HOST_IN_REL
  | HOST_IN_LAST | HOST_IN_MARK | HOST_XLAT_BASE | HOST_XLAT_CTRL | MGMT_PROFILE | SEC_STATUS | SEC_SVN_FLOOR
  | SEC_ID_GEN | SEC_RWN_LEFT | SEC_DBG_NONCE | MON_CTRL | MON_MIN | MON_MAX | MON_COUNT | MON_SUM | MON_BIN
  | HLTH_PROFILE | HLTH_CTRL | HLTH_STATUS | HLTH_CFG | HLTH_HOLDOFF | HLTH_LOSS | HLTH_LOSS_AVG | HLTH_LOSS_CFG
  | HLTH_LOSS_N | HLTH_NF_ADD | HLTH_CORE_CFG | HLTH_CORE_FAIL | HLTH_NONFINITE | HLTH_SPIKES | HLTH_HYD_REQS
  | HLTH_SUBSTITUTIONS | HLTH_REPLACEMENTS | HLTH_WEIGHT_W | EP_PROFILE | EP_STATUS | EP_QUEUE | EP_INSTRUCTIONS
  | EP_WAIT_CCLK | EP_ARRIVE | MX_PROFILE | MX_CTRL | MX_STATUS | MX_CHECK | MX_SR_KEY | MX_SR_SEQ | MX_SAT_COUNT
  | MX_CHECK_MISMATCHES | MX_CHECK_SKIPS | MX_PASSES | MX_STALL_ACLK | MX_MISMATCH_INFO | MX_MISMATCH_D
  | MX_MISMATCH_A | VX_PROFILE | VX_CTRL | VX_STATUS | VX_VL | VX_RNG_KEY | VX_RNG_SEQ | VX_POS_Q | VX_POS_K
  | VX_POS_CFG | VX_DOC_COUNT | VX_SUM_KIND | VX_SUM | VX_SAT_COUNT | VX_EMPTY_ROWS | VX_INF_ROWS | VX_NAN_ROWS
  | VX_CHAINS | VX_STALL_ACLK | SP_PROFILE | SP_CTRL | SP_STATUS | SP_PLAN_LO | SP_PLAN_HI | SP_PLAN_CUR_LO
  | SP_PLAN_CUR_HI | SP_DET_INFO | SP_DETECTS | SP_BAD_ACCESSES | SP_BIST | SP_TAG_PROBE | FB_PROFILE | FB_CTRL
  | FB_STATUS | FB_MERGE | FB_INJECTED | FB_DELIVERED | FB_MERGED | FB_DROPPED | FB_LINK_RETRIES | FB_BOW_DROPS
  | FB_TGT | STP_PROFILE | STP_CTRL | STP_STATUS | STP_PF_CFG | STP_PF_BUF | STP_PF_MARGIN | STP_STAMP_SEL
  | STP_SAVE_BASE | STP_SAVE_LIMIT | STP_SAVE_TOP | STP_PF_PTR | STP_STAMP | STP_SAVED_BYTES | STP_GRIST_UNDERRUNS
  | STP_ACT_UNDERRUNS
  deriving DecidableEq, Repr

/-- Access codes (00, "Access codes"). -/
inductive Access where
  | RO | RW | WO | W1C | W1S | RWS | RWL | RWX | RWN
  deriving DecidableEq, Repr

/-- What a reset of the block does to a field: `none` gives it its Reset value (R20), `loaded` and `stored` mark the
Reset values "Loaded" and "Stored", which a reset leaves alone and start-up or Shefikan fills. -/
inductive Keep where
  | none | loaded | stored
  deriving DecidableEq, Repr

/-- One field: bits [hi:lo], access code, reset value, what reset does, and the closed ranges of values that are not
reserved (an empty list: every value). -/
structure FieldDef where
  hi : Nat
  lo : Nat
  acc : Access
  reset : Nat
  keep : Keep := .none
  legal : List (Nat × Nat) := []

/-- One register: its block, its offset in an instance of the block, whether it is 64 bits wide, whether it is a counter
(R9, R11, R13), whether only instance 0 of the block has it, its two array dimensions (count, distance) and its fields. -/
structure RegDef where
  blk : Block
  off : Nat
  wide : Bool := false
  counter : Bool := false
  only0 : Bool := false
  n1 : Nat := 1
  s1 : Nat := 0
  n2 : Nat := 1
  s2 : Nat := 0
  fields : List FieldDef

/-- The register maps of the spec, one row a register. -/
def RegId.defn : RegId → RegDef
  | .MOD_ID => { blk := .MOD, off := 0x0, fields := [⟨31, 16, .RO, 0xb25, .none, []⟩,
        ⟨15, 8, .RO, 1, .loaded, []⟩,
        ⟨7, 0, .RO, 1, .loaded, []⟩] }
  | .MOD_PROFILE => { blk := .MOD, off := 0x4, fields := [⟨3, 0, .RWL, 0, .none, []⟩] }
  | .MOD_CTRL => { blk := .MOD, off := 0x8, fields := [⟨1, 1, .W1S, 0, .none, []⟩,
        ⟨0, 0, .RWL, 0, .none, []⟩] }
  | .MOD_STATUS => { blk := .MOD, off := 0xC, fields := [⟨2, 2, .RO, 0, .none, []⟩,
        ⟨1, 1, .RO, 0, .none, []⟩,
        ⟨0, 0, .RO, 0, .none, []⟩] }
  | .MOD_SERIAL => { blk := .MOD, off := 0x10, wide := true, fields := [⟨63, 0, .RO, 0, .loaded, []⟩] }
  | .MOD_MODULE_ID => { blk := .MOD, off := 0x18, fields := [⟨9, 0, .RWL, 0x3ff, .none, [(0, 999), (1023, 1023)]⟩] }
  | .MOD_STACK_MAP => { blk := .MOD, off := 0x1C, fields := [⟨23, 0, .RO, 0xffffff, .loaded, []⟩] }
  | .MOD_SPARE_GEN => { blk := .MOD, off := 0x20, fields := [⟨31, 0, .RO, 0, .none, []⟩] }
  | .MOD_SPARES_LEFT => { blk := .MOD, off := 0x24, fields := [⟨10, 0, .RO, 0x4b0, .stored, []⟩] }
  | .MOD_EVT_WR => { blk := .MOD, off := 0x40, fields := [⟨12, 0, .RO, 0, .none, []⟩] }
  | .MOD_EVT_RD => { blk := .MOD, off := 0x44, fields := [⟨12, 0, .RW, 0, .none, []⟩] }
  | .MOD_EVT_LOST => { blk := .MOD, off := 0x48, wide := true, counter := true, fields := [⟨63, 0, .RO, 0, .none, []⟩] }
  | .MOD_SPARE_SKIP => { blk := .MOD, off := 0x1000, n1 := 600, s1 := 4, fields := [⟨11, 11, .RO, 0, .stored, []⟩,
        ⟨10, 10, .RO, 0, .stored, []⟩,
        ⟨9, 5, .RO, 0x1f, .stored, []⟩,
        ⟨4, 0, .RO, 0x1e, .stored, []⟩] }
  | .MOD_SPARE_FAIL => { blk := .MOD, off := 0x2000, n1 := 600, s1 := 4, fields := [⟨31, 0, .RO, 0, .stored, []⟩] }
  | .RST_PROFILE => { blk := .RST, off := 0x0, fields := [⟨3, 0, .RWL, 0, .none, []⟩] }
  | .RST_CTRL => { blk := .RST, off := 0x4, fields := [⟨1, 1, .RWS, 0, .none, []⟩,
        ⟨0, 0, .RWL, 0, .none, []⟩] }
  | .RST_STATUS => { blk := .RST, off := 0x8, fields := [⟨6, 4, .RO, 0, .none, []⟩,
        ⟨1, 1, .RO, 0, .none, []⟩,
        ⟨0, 0, .RO, 0, .none, []⟩] }
  | .RST_CMD => { blk := .RST, off := 0xC, fields := [⟨31, 24, .WO, 0, .none, []⟩,
        ⟨23, 20, .WO, 0, .none, []⟩,
        ⟨15, 15, .WO, 0, .none, []⟩,
        ⟨14, 0, .WO, 0, .none, []⟩] }
  | .RST_CAUSE => { blk := .RST, off := 0x10, fields := [⟨7, 4, .RO, 1, .loaded, []⟩,
        ⟨2, 0, .RO, 1, .loaded, []⟩] }
  | .RST_WDOG => { blk := .RST, off := 0x14, fields := [⟨31, 31, .RW, 0, .none, []⟩,
        ⟨30, 28, .RW, 2, .none, [(2, 3)]⟩,
        ⟨15, 0, .RW, 0x3e8, .none, [(1, 65535)]⟩] }
  | .RST_WDOG_KICK => { blk := .RST, off := 0x18, fields := [⟨31, 0, .WO, 0, .none, []⟩] }
  | .RST_TRIM => { blk := .RST, off := 0x1C, fields := [⟨8, 8, .W1S, 0, .none, []⟩,
        ⟨5, 4, .RO, 0, .stored, []⟩,
        ⟨0, 0, .RO, 0, .loaded, []⟩] }
  | .RST_BOOT => { blk := .RST, off := 0x20, fields := [⟨8, 8, .RW, 0, .stored, []⟩,
        ⟨5, 5, .RO, 0, .loaded, []⟩,
        ⟨3, 0, .RO, 0, .none, []⟩] }
  | .RST_IMAGE_SVN => { blk := .RST, off := 0x24, fields := [⟨31, 0, .RO, 0, .loaded, []⟩] }
  | .RST_IMAGE_BUILD => { blk := .RST, off := 0x28, wide := true, fields := [⟨63, 0, .RO, 0, .loaded, []⟩] }
  | .CLK_STATUS => { blk := .CLK, off := 0x100, fields := [⟨24, 0, .RO, 0, .none, []⟩] }
  | .CLK_BYPASS => { blk := .CLK, off := 0x104, fields := [⟨24, 0, .RO, 0, .none, []⟩] }
  | .CLK_SKIM => { blk := .CLK, off := 0x108, fields := [⟨11, 8, .RO, 0, .loaded, []⟩,
        ⟨7, 4, .RO, 0, .none, []⟩,
        ⟨3, 0, .RO, 0, .none, []⟩] }
  | .CLK_TB => { blk := .CLK, off := 0x110, wide := true, fields := [⟨63, 0, .RO, 0, .none, []⟩] }
  | .CLK_WT => { blk := .CLK, off := 0x118, wide := true, fields := [⟨63, 0, .RO, 0, .none, []⟩] }
  | .CLK_SKIMMED => { blk := .CLK, off := 0x120, wide := true, counter := true, fields := [⟨63, 0, .RW, 0, .none, []⟩] }
  | .PWR_PROFILE => { blk := .PWR, off := 0x0, fields := [⟨3, 0, .RWL, 0, .none, []⟩] }
  | .PWR_CTRL => { blk := .PWR, off := 0x4, fields := [⟨4, 4, .RW, 0, .none, []⟩,
        ⟨1, 0, .RW, 0, .none, []⟩] }
  | .PWR_STATUS => { blk := .PWR, off := 0x8, fields := [⟨11, 8, .RO, 0, .none, []⟩,
        ⟨7, 7, .RO, 0, .none, []⟩,
        ⟨6, 6, .RO, 1, .none, []⟩,
        ⟨5, 5, .RO, 0, .none, []⟩,
        ⟨4, 4, .RO, 0, .none, []⟩,
        ⟨3, 3, .RO, 0, .none, []⟩,
        ⟨1, 0, .RO, 0, .none, []⟩] }
  | .PWR_PENV => { blk := .PWR, off := 0xC, fields := [⟨7, 0, .RWN, 0xfa, .stored, []⟩] }
  | .PWR_GOV => { blk := .PWR, off := 0x10, fields := [⟨15, 8, .RWX, 5, .none, [(1, 50)]⟩,
        ⟨7, 0, .RWX, 0xa, .none, [(1, 255)]⟩] }
  | .PWR_INPUT => { blk := .PWR, off := 0x14, fields := [⟨31, 0, .RO, 0, .none, []⟩] }
  | .PWR_VIN => { blk := .PWR, off := 0x18, fields := [⟨31, 0, .RO, 0, .none, []⟩] }
  | .THERM_PARK_OFS => { blk := .PWR, off := 0x1C, fields := [⟨4, 0, .RWN, 0, .stored, [(0, 20)]⟩] }
  | .THERM_CFG => { blk := .PWR, off := 0x20, fields := [⟨15, 8, .RWX, 1, .none, [(1, 100)]⟩,
        ⟨3, 0, .RWX, 0xa, .none, [(2, 15)]⟩] }
  | .THERM_HOTTEST => { blk := .PWR, off := 0x24, fields := [⟨20, 16, .RO, 0, .none, []⟩,
        ⟨11, 0, .RO, 0, .none, []⟩] }
  | .PWR_WAKES => { blk := .PWR, off := 0x40, wide := true, counter := true, fields := [⟨63, 0, .RW, 0, .none, []⟩] }
  | .PWR_CAP_SAMPLES => { blk := .PWR, off := 0x48, wide := true, counter := true, fields := [⟨63, 0, .RW, 0, .none, []⟩] }
  | .THERM_TRIPS => { blk := .PWR, off := 0x50, wide := true, counter := true, fields := [⟨63, 0, .RW, 0, .none, []⟩] }
  | .FLD_PROFILE => { blk := .FLD, off := 0x0, only0 := true, fields := [⟨3, 0, .RWL, 0, .none, []⟩] }
  | .FLD_CTRL => { blk := .FLD, off := 0x4, fields := [⟨1, 1, .W1S, 0, .none, []⟩,
        ⟨0, 0, .RW, 0, .none, []⟩] }
  | .FLD_STATUS => { blk := .FLD, off := 0x8, fields := [⟨6, 6, .RO, 0, .none, []⟩,
        ⟨5, 5, .RO, 0, .none, []⟩,
        ⟨4, 4, .RO, 0, .none, []⟩,
        ⟨1, 0, .RO, 0, .none, []⟩] }
  | .FLD_TEMP => { blk := .FLD, off := 0xC, fields := [⟨11, 0, .RO, 0, .none, []⟩] }
  | .FLD_TEMP_MAX => { blk := .FLD, off := 0x10, fields := [⟨11, 0, .RO, 0, .none, []⟩] }
  | .FLD_VCORE => { blk := .FLD, off := 0x14, fields := [⟨15, 0, .RO, 0, .none, []⟩] }
  | .FLD_POWER => { blk := .FLD, off := 0x18, fields := [⟨15, 0, .RO, 0, .none, []⟩] }
  | .FLD_PARKS => { blk := .FLD, off := 0x20, wide := true, counter := true, fields := [⟨63, 0, .RW, 0, .none, []⟩] }
  | .HBMC_PROFILE => { blk := .HBMC, off := 0x0, only0 := true, fields := [⟨3, 0, .RWL, 0, .none, []⟩] }
  | .HBMC_CTRL => { blk := .HBMC, off := 0x4, fields := [⟨2, 2, .W1S, 0, .none, []⟩,
        ⟨1, 1, .W1S, 0, .none, []⟩,
        ⟨0, 0, .RW, 1, .none, []⟩] }
  | .HBMC_STATUS => { blk := .HBMC, off := 0x8, fields := [⟨11, 8, .RO, 0, .none, []⟩,
        ⟨4, 4, .RO, 0, .none, []⟩,
        ⟨3, 3, .RO, 0, .none, []⟩,
        ⟨2, 0, .RO, 5, .none, []⟩] }
  | .HBMC_ILV => { blk := .HBMC, off := 0xC, only0 := true, fields := [⟨4, 4, .RWX, 0, .none, []⟩,
        ⟨3, 0, .RWX, 8, .none, [(8, 12)]⟩] }
  | .HBMC_ILV_CUR => { blk := .HBMC, off := 0x10, only0 := true, fields := [⟨4, 4, .RO, 0, .none, []⟩,
        ⟨3, 0, .RO, 8, .none, []⟩] }
  | .HBMC_SCRUB => { blk := .HBMC, off := 0x14, fields := [⟨16, 16, .RWX, 1, .none, []⟩,
        ⟨15, 0, .RWX, 0x7d0, .none, [(1, 65535)]⟩] }
  | .HBMC_MAPOUT_THR => { blk := .HBMC, off := 0x18, fields := [⟨23, 12, .RWX, 0x40, .none, []⟩,
        ⟨11, 0, .RWX, 0x10, .none, []⟩] }
  | .HBMC_TEMP => { blk := .HBMC, off := 0x1C, fields := [⟨8, 8, .RO, 0, .none, []⟩,
        ⟨7, 0, .RO, 0, .none, []⟩] }
  | .HBMC_CORRECTED => { blk := .HBMC, off := 0x20, wide := true, counter := true, fields := [⟨63, 0, .RW, 0, .none, []⟩] }
  | .HBMC_UNCORRECTABLE => { blk := .HBMC, off := 0x28, wide := true, counter := true, fields := [⟨63, 0, .RW, 0, .none, []⟩] }
  | .HBMC_POISON_RETURNED => { blk := .HBMC, off := 0x30, wide := true, counter := true, fields := [⟨63, 0, .RW, 0, .none, []⟩] }
  | .HBMC_TIMEOUTS => { blk := .HBMC, off := 0x38, wide := true, counter := true, fields := [⟨63, 0, .RW, 0, .none, []⟩] }
  | .HBMC_REFUSED => { blk := .HBMC, off := 0x40, wide := true, counter := true, fields := [⟨63, 0, .RW, 0, .none, []⟩] }
  | .HBMC_EVICTIONS => { blk := .HBMC, off := 0x48, wide := true, counter := true, fields := [⟨63, 0, .RW, 0, .none, []⟩] }
  | .HBMC_ERR_INFO => { blk := .HBMC, off := 0x50, fields := [⟨23, 16, .RO, 0, .none, []⟩,
        ⟨15, 12, .RO, 0, .none, []⟩,
        ⟨11, 10, .RO, 0, .none, []⟩,
        ⟨4, 0, .RO, 0, .none, []⟩] }
  | .HBMC_ERR_ADDR => { blk := .HBMC, off := 0x58, wide := true, fields := [⟨45, 0, .RO, 0, .none, []⟩] }
  | .HBMC_CH_CE => { blk := .HBMC, off := 0x200, wide := true, counter := true, n1 := 32, s1 := 8, fields := [⟨63, 0, .RW, 0, .none, []⟩] }
  | .HBMC_CH_UE => { blk := .HBMC, off := 0x300, wide := true, counter := true, n1 := 32, s1 := 8, fields := [⟨63, 0, .RW, 0, .none, []⟩] }
  | .BRIM_PROFILE => { blk := .BRIM, off := 0x0, only0 := true, fields := [⟨3, 0, .RWL, 0, .none, []⟩] }
  | .BRIM_CTRL => { blk := .BRIM, off := 0x4, fields := [⟨1, 1, .W1S, 0, .none, []⟩,
        ⟨0, 0, .RW, 0, .none, []⟩] }
  | .BRIM_STATUS => { blk := .BRIM, off := 0x8, fields := [⟨7, 6, .RO, 0, .none, []⟩,
        ⟨5, 4, .RO, 0, .none, []⟩,
        ⟨3, 3, .RO, 0, .none, []⟩,
        ⟨2, 0, .RO, 0, .none, []⟩] }
  | .BRIM_CFG => { blk := .BRIM, off := 0xC, fields := [⟨19, 16, .RWX, 0xc, .none, [(1, 15)]⟩,
        ⟨15, 8, .RWX, 0x20, .none, [(1, 255)]⟩,
        ⟨1, 1, .RWL, 0, .none, []⟩,
        ⟨0, 0, .RWL, 0, .none, []⟩] }
  | .BRIM_PEER => { blk := .BRIM, off := 0x10, fields := [⟨14, 14, .RO, 0, .none, []⟩,
        ⟨13, 13, .RO, 0, .none, []⟩,
        ⟨12, 10, .RO, 0, .none, []⟩,
        ⟨9, 0, .RO, 0x3ff, .none, []⟩] }
  | .BRIM_ARB => { blk := .BRIM, off := 0x14, fields := [⟨7, 4, .RWX, 1, .none, [(1, 15)]⟩,
        ⟨3, 0, .RWX, 1, .none, [(1, 15)]⟩] }
  | .BRIM_ETH => { blk := .BRIM, off := 0x18, fields := [⟨31, 24, .RWL, 0, .none, []⟩,
        ⟨22, 20, .RWL, 4, .none, []⟩,
        ⟨18, 16, .RWL, 3, .none, []⟩,
        ⟨15, 0, .RWL, 0x88b5, .none, []⟩] }
  | .BRIM_TIME => { blk := .BRIM, off := 0x1C, only0 := true, fields := [⟨15, 8, .RWX, 1, .none, [(1, 100)]⟩,
        ⟨5, 4, .RO, 0, .none, []⟩,
        ⟨3, 1, .RWL, 0, .none, [(0, 5)]⟩,
        ⟨0, 0, .RWL, 0, .none, []⟩] }
  | .BRIM_TIME_OFS => { blk := .BRIM, off := 0x20, only0 := true, fields := [⟨31, 0, .RO, 0, .none, []⟩] }
  | .BRIM_CLASS_PROF => { blk := .BRIM, off := 0x24, only0 := true, fields := [⟨19, 16, .RW, 0, .none, []⟩,
        ⟨15, 12, .RW, 0, .none, []⟩,
        ⟨11, 8, .RW, 0, .none, []⟩,
        ⟨7, 4, .RW, 0, .none, []⟩,
        ⟨3, 0, .RW, 0, .none, []⟩] }
  | .BRIM_TAGS => { blk := .BRIM, off := 0x28, only0 := true, fields := [⟨30, 16, .RO, 0, .none, []⟩,
        ⟨14, 0, .RO, 0, .none, []⟩] }
  | .BRIM_TX_BYTES => { blk := .BRIM, off := 0x40, wide := true, counter := true, fields := [⟨63, 0, .RW, 0, .none, []⟩] }
  | .BRIM_RX_BYTES => { blk := .BRIM, off := 0x48, wide := true, counter := true, fields := [⟨63, 0, .RW, 0, .none, []⟩] }
  | .BRIM_FEC_CORR => { blk := .BRIM, off := 0x50, wide := true, counter := true, fields := [⟨63, 0, .RW, 0, .none, []⟩] }
  | .BRIM_FEC_UNCORR => { blk := .BRIM, off := 0x58, wide := true, counter := true, fields := [⟨63, 0, .RW, 0, .none, []⟩] }
  | .BRIM_REPLAYS => { blk := .BRIM, off := 0x60, wide := true, counter := true, fields := [⟨63, 0, .RW, 0, .none, []⟩] }
  | .BRIM_RETRAINS => { blk := .BRIM, off := 0x68, wide := true, counter := true, fields := [⟨63, 0, .RW, 0, .none, []⟩] }
  | .BRIM_DEMOTED => { blk := .BRIM, off := 0x70, wide := true, counter := true, fields := [⟨63, 0, .RW, 0, .none, []⟩] }
  | .BRIM_DROPS => { blk := .BRIM, off := 0x78, wide := true, counter := true, fields := [⟨63, 0, .RW, 0, .none, []⟩] }
  | .BRIM_STALE => { blk := .BRIM, off := 0x80, wide := true, counter := true, only0 := true, fields := [⟨63, 0, .RW, 0, .none, []⟩] }
  | .BRIM_TAG_TIMEOUTS => { blk := .BRIM, off := 0x88, wide := true, counter := true, only0 := true, fields := [⟨63, 0, .RW, 0, .none, []⟩] }
  | .BRIM_FLOW => { blk := .BRIM, off := 0x1000, n1 := 256, s1 := 4, fields := [⟨31, 31, .RW, 0, .none, []⟩,
        ⟨17, 8, .RW, 0, .none, [(0, 900)]⟩,
        ⟨7, 0, .RW, 0x40, .none, [(4, 255)]⟩] }
  | .BRIM_ROUTE => { blk := .BRIM, off := 0x20000, only0 := true, n1 := 16, s1 := 4096, n2 := 1024, s2 := 4, fields := [⟨31, 31, .RW, 0, .none, []⟩,
        ⟨30, 28, .RW, 0, .none, []⟩,
        ⟨27, 25, .RW, 0, .none, []⟩,
        ⟨24, 22, .RW, 0, .none, []⟩,
        ⟨21, 21, .RW, 0, .none, []⟩,
        ⟨20, 13, .RW, 0, .none, []⟩,
        ⟨9, 0, .RW, 0, .none, []⟩] }
  | .RED_PROFILE => { blk := .RED, off := 0x0, fields := [⟨3, 0, .RWL, 0, .none, []⟩] }
  | .RED_CTRL => { blk := .RED, off := 0x4, fields := [⟨1, 1, .RW, 0, .none, []⟩,
        ⟨0, 0, .RW, 0, .none, []⟩] }
  | .RED_STATUS => { blk := .RED, off := 0x8, fields := [⟨5, 4, .RO, 0, .none, []⟩,
        ⟨1, 0, .RO, 0, .none, []⟩] }
  | .RED_VFY => { blk := .RED, off := 0xC, fields := [⟨15, 12, .RWX, 1, .none, []⟩,
        ⟨11, 6, .RWX, 0x10, .none, [(8, 40)]⟩,
        ⟨5, 5, .RWX, 1, .none, []⟩,
        ⟨4, 0, .RWX, 0xc, .none, [(8, 16)]⟩] }
  | .RED_VFY_KEY => { blk := .RED, off := 0x10, fields := [⟨31, 0, .RW, 0, .none, []⟩] }
  | .RED_STEP_TRACTS => { blk := .RED, off := 0x14, fields := [⟨15, 0, .RW, 0xffff, .none, []⟩] }
  | .RED_SYNC_ERR => { blk := .RED, off := 0x18, fields := [⟨31, 0, .RO, 0, .none, []⟩] }
  | .RED_STEP_PERIOD => { blk := .RED, off := 0x20, wide := true, fields := [⟨63, 0, .RW, 0x3b9aca00, .none, [(100000, 600000000000)]⟩] }
  | .RED_STEP_NEXT => { blk := .RED, off := 0x28, wide := true, fields := [⟨63, 0, .RW, 0, .none, []⟩] }
  | .RED_STEP_COUNT => { blk := .RED, off := 0x30, wide := true, fields := [⟨63, 0, .RW, 0, .none, []⟩] }
  | .RED_STEP_LAST => { blk := .RED, off := 0x38, wide := true, fields := [⟨63, 0, .RO, 0, .none, []⟩] }
  | .RED_SYNC_LAST => { blk := .RED, off := 0x40, wide := true, fields := [⟨63, 0, .RO, 0, .none, []⟩] }
  | .RED_STEP_OVERRUNS => { blk := .RED, off := 0x48, wide := true, counter := true, fields := [⟨63, 0, .RW, 0, .none, []⟩] }
  | .RED_SYNC_EXTRA => { blk := .RED, off := 0x50, wide := true, counter := true, fields := [⟨63, 0, .RW, 0, .none, []⟩] }
  | .RED_RACC_SENT => { blk := .RED, off := 0x58, wide := true, counter := true, fields := [⟨63, 0, .RW, 0, .none, []⟩] }
  | .RED_RACC_RETURNED => { blk := .RED, off := 0x60, wide := true, counter := true, fields := [⟨63, 0, .RW, 0, .none, []⟩] }
  | .RED_BAD_CONTRIBS => { blk := .RED, off := 0x68, wide := true, counter := true, fields := [⟨63, 0, .RW, 0, .none, []⟩] }
  | .RED_VFY_COMPARED => { blk := .RED, off := 0x70, wide := true, counter := true, fields := [⟨63, 0, .RW, 0, .none, []⟩] }
  | .RED_VFY_MISMATCHES => { blk := .RED, off := 0x78, wide := true, counter := true, fields := [⟨63, 0, .RW, 0, .none, []⟩] }
  | .RED_RID => { blk := .RED, off := 0x4000, n1 := 4096, s1 := 4, fields := [⟨31, 31, .RW, 0, .none, []⟩,
        ⟨30, 30, .RW, 0, .none, []⟩,
        ⟨29, 28, .RW, 0, .none, [(0, 2)]⟩,
        ⟨27, 18, .RW, 0, .none, []⟩] }
  | .RED_WIN_CTRL => { blk := .RED, off := 0x10000, n1 := 1024, s1 := 64, fields := [⟨11, 10, .RW, 0, .none, [(0, 2)]⟩,
        ⟨9, 9, .RW, 1, .none, []⟩,
        ⟨8, 8, .RW, 1, .none, []⟩,
        ⟨4, 4, .RW, 0, .none, []⟩,
        ⟨0, 0, .RW, 0, .none, []⟩] }
  | .RED_WIN_STATUS => { blk := .RED, off := 0x10004, n1 := 1024, s1 := 64, fields := [⟨7, 4, .RO, 0, .none, []⟩,
        ⟨3, 3, .RO, 0, .none, []⟩,
        ⟨2, 0, .RO, 0, .none, []⟩] }
  | .RED_WIN_DEADLINE => { blk := .RED, off := 0x10008, n1 := 1024, s1 := 64, fields := [⟨31, 0, .RW, 0x186a0, .none, [(1, 4294967295)]⟩] }
  | .RED_WIN_K => { blk := .RED, off := 0x1000C, n1 := 1024, s1 := 64, fields := [⟨31, 0, .RW, 0x3f800000, .none, [(0, 2139095039), (2147483648, 4286578687)]⟩] }
  | .RED_WIN_BASE => { blk := .RED, off := 0x10010, wide := true, n1 := 1024, s1 := 64, fields := [⟨45, 12, .RW, 0, .none, []⟩] }
  | .RED_WIN_OUT => { blk := .RED, off := 0x10018, wide := true, n1 := 1024, s1 := 64, fields := [⟨45, 6, .RW, 0, .none, []⟩] }
  | .RED_WIN_CNT => { blk := .RED, off := 0x10020, wide := true, n1 := 1024, s1 := 64, fields := [⟨45, 6, .RW, 0, .none, []⟩] }
  | .RED_WIN_VBASE => { blk := .RED, off := 0x10028, wide := true, n1 := 1024, s1 := 64, fields := [⟨45, 8, .RW, 0, .none, []⟩] }
  | .RED_WIN_SIZE => { blk := .RED, off := 0x10030, n1 := 1024, s1 := 64, fields := [⟨25, 0, .RW, 0, .none, []⟩] }
  | .RED_WIN_EXPECT => { blk := .RED, off := 0x10034, n1 := 1024, s1 := 64, fields := [⟨15, 0, .RW, 0, .none, []⟩] }
  | .RED_WIN_NOTIFY => { blk := .RED, off := 0x10038, n1 := 1024, s1 := 64, fields := [⟨31, 31, .RW, 0, .none, []⟩,
        ⟨26, 10, .RW, 0, .none, []⟩,
        ⟨9, 4, .RW, 0, .none, []⟩,
        ⟨3, 0, .RW, 0, .none, []⟩] }
  | .RED_WIN_APPLIED => { blk := .RED, off := 0x20000, wide := true, counter := true, n1 := 1024, s1 := 32, fields := [⟨63, 0, .RW, 0, .none, []⟩] }
  | .RED_WIN_LATE => { blk := .RED, off := 0x20008, wide := true, counter := true, n1 := 1024, s1 := 32, fields := [⟨63, 0, .RW, 0, .none, []⟩] }
  | .RED_WIN_SHORT => { blk := .RED, off := 0x20010, wide := true, counter := true, n1 := 1024, s1 := 32, fields := [⟨63, 0, .RW, 0, .none, []⟩] }
  | .RED_WIN_EMPTY => { blk := .RED, off := 0x20018, wide := true, counter := true, n1 := 1024, s1 := 32, fields := [⟨63, 0, .RW, 0, .none, []⟩] }
  | .STRM_PROFILE => { blk := .STRM, off := 0x0, fields := [⟨3, 0, .RWL, 0, .none, []⟩] }
  | .STRM_RK_CTRL => { blk := .STRM, off := 0x4, fields := [⟨3, 3, .W1S, 0, .none, []⟩,
        ⟨2, 2, .RW, 0, .none, []⟩,
        ⟨1, 1, .RW, 0, .none, []⟩,
        ⟨0, 0, .RW, 0, .none, []⟩] }
  | .STRM_RK_STATUS => { blk := .STRM, off := 0x8, fields := [⟨31, 24, .RO, 0, .none, []⟩,
        ⟨15, 12, .RO, 0, .none, []⟩,
        ⟨11, 10, .RO, 0, .none, []⟩,
        ⟨9, 9, .RO, 0, .none, []⟩,
        ⟨8, 8, .RO, 0, .none, []⟩,
        ⟨2, 0, .RO, 0, .none, []⟩] }
  | .STRM_RK_PERIOD => { blk := .STRM, off := 0xC, fields := [⟨31, 0, .RW, 0xe10, .none, [(300, 86400)]⟩] }
  | .STRM_RK_CAP => { blk := .STRM, off := 0x10, fields := [⟨13, 8, .RWX, 0xa, .none, [(1, 50)]⟩,
        ⟨5, 0, .RWX, 0xa, .none, [(1, 50)]⟩] }
  | .STRM_RK_CASK_MID => { blk := .STRM, off := 0x14, fields := [⟨9, 0, .RW, 0x3ff, .none, [(0, 999), (1023, 1023)]⟩] }
  | .STRM_RK_CASK_BASE => { blk := .STRM, off := 0x18, wide := true, fields := [⟨45, 12, .RW, 0, .none, []⟩] }
  | .STRM_RK_HOST_BASE => { blk := .STRM, off := 0x20, wide := true, fields := [⟨45, 12, .RW, 0, .none, []⟩] }
  | .STRM_RK_BANK_LEN => { blk := .STRM, off := 0x28, wide := true, fields := [⟨45, 12, .RW, 0, .none, []⟩] }
  | .STRM_RK_MAP_BASE => { blk := .STRM, off := 0x30, wide := true, fields := [⟨45, 12, .RW, 0, .none, []⟩] }
  | .STRM_RK_LAST_START => { blk := .STRM, off := 0x38, wide := true, fields := [⟨63, 0, .RO, 0, .none, []⟩] }
  | .STRM_RK_DONE => { blk := .STRM, off := 0x40, wide := true, counter := true, fields := [⟨63, 0, .RW, 0, .none, []⟩] }
  | .STRM_RK_FAILED => { blk := .STRM, off := 0x48, wide := true, counter := true, fields := [⟨63, 0, .RW, 0, .none, []⟩] }
  | .STRM_RK_BYTES => { blk := .STRM, off := 0x50, wide := true, counter := true, fields := [⟨63, 0, .RW, 0, .none, []⟩] }
  | .STRM_RK_RBASE => { blk := .STRM, off := 0x100, wide := true, n1 := 64, s1 := 16, fields := [⟨45, 12, .RW, 0, .none, []⟩,
        ⟨0, 0, .RW, 0, .none, []⟩] }
  | .STRM_RK_RLEN => { blk := .STRM, off := 0x108, n1 := 64, s1 := 16, fields := [⟨31, 0, .RW, 0, .none, []⟩] }
  | .STRM_GS_CTRL => { blk := .STRM, off := 0x1000, n1 := 32, s1 := 64, fields := [⟨22, 20, .RW, 0, .none, []⟩,
        ⟨19, 14, .RW, 0, .none, []⟩,
        ⟨13, 12, .RW, 0, .none, []⟩,
        ⟨11, 8, .RW, 0, .none, []⟩,
        ⟨0, 0, .RW, 0, .none, []⟩] }
  | .STRM_GS_STATUS => { blk := .STRM, off := 0x1004, n1 := 32, s1 := 64, fields := [⟨31, 16, .RO, 0, .none, []⟩,
        ⟨7, 5, .RO, 0, .none, []⟩,
        ⟨3, 3, .RO, 0, .none, []⟩,
        ⟨2, 0, .RO, 0, .none, []⟩] }
  | .STRM_GS_MARGIN => { blk := .STRM, off := 0x1008, n1 := 32, s1 := 64, fields := [⟨31, 0, .RW, 0x3e8, .none, []⟩] }
  | .STRM_GS_DST => { blk := .STRM, off := 0x100C, n1 := 32, s1 := 64, fields := [⟨30, 17, .RW, 0, .none, []⟩,
        ⟨16, 0, .RW, 0, .none, []⟩] }
  | .STRM_GS_LTAB => { blk := .STRM, off := 0x1010, wide := true, n1 := 32, s1 := 64, fields := [⟨45, 4, .RW, 0, .none, []⟩] }
  | .STRM_GS_NLAYERS => { blk := .STRM, off := 0x1018, n1 := 32, s1 := 64, fields := [⟨15, 0, .RW, 0, .none, []⟩] }
  | .STRM_GS_LINES => { blk := .STRM, off := 0x1020, wide := true, counter := true, n1 := 32, s1 := 64, fields := [⟨63, 0, .RW, 0, .none, []⟩] }
  | .STRM_GS_RETRIES => { blk := .STRM, off := 0x1028, wide := true, counter := true, n1 := 32, s1 := 64, fields := [⟨63, 0, .RW, 0, .none, []⟩] }
  | .SCALE_CTRL => { blk := .SCALE, off := 0x0, fields := [⟨17, 17, .RW, 0, .none, []⟩,
        ⟨16, 16, .RW, 0, .none, []⟩,
        ⟨15, 8, .RW, 0, .none, [(0, 16), (240, 255)]⟩,
        ⟨4, 4, .RW, 0, .none, []⟩,
        ⟨3, 0, .RW, 3, .none, [(2, 5)]⟩] }
  | .SCALE_STATE => { blk := .SCALE, off := 0x4, fields := [⟨11, 8, .RW, 0, .none, []⟩,
        ⟨7, 0, .RW, 0, .none, [(0, 126), (130, 255)]⟩] }
  | .SCALE_CUR_AMAX => { blk := .SCALE, off := 0x8, fields := [⟨31, 0, .RW, 0, .none, []⟩] }
  | .SCALE_PROFILE => { blk := .SCALE, off := 0xC, only0 := true, fields := [⟨3, 0, .RWL, 0, .none, []⟩] }
  | .SCALE_SAT_COUNT => { blk := .SCALE, off := 0x10, wide := true, counter := true, fields := [⟨63, 0, .RW, 0, .none, []⟩] }
  | .SCALE_NF_COUNT => { blk := .SCALE, off := 0x18, wide := true, counter := true, fields := [⟨63, 0, .RW, 0, .none, []⟩] }
  | .SCALE_HIST_W => { blk := .SCALE, off := 0x20, n1 := 8, s1 := 4, fields := [⟨31, 16, .RW, 0, .none, []⟩,
        ⟨15, 0, .RW, 0, .none, []⟩] }
  | .TRACT_PROFILE => { blk := .TRACT, off := 0x0, only0 := true, fields := [⟨3, 0, .RWL, 0, .none, []⟩] }
  | .TRACT_CTRL => { blk := .TRACT, off := 0x4, fields := [⟨2, 2, .W1S, 0, .none, []⟩,
        ⟨1, 1, .W1S, 0, .none, []⟩,
        ⟨0, 0, .RW, 0, .none, []⟩] }
  | .TRACT_STATUS => { blk := .TRACT, off := 0x8, fields := [⟨5, 5, .RO, 0, .none, []⟩,
        ⟨4, 4, .RO, 0, .none, []⟩,
        ⟨3, 0, .RO, 0, .none, []⟩] }
  | .TRACT_ORIGIN => { blk := .TRACT, off := 0xC, fields := [⟨22, 16, .RW, 0, .none, []⟩,
        ⟨7, 0, .RW, 0, .none, []⟩] }
  | .TRACT_SIZE => { blk := .TRACT, off := 0x10, fields := [⟨22, 16, .RW, 0, .none, []⟩,
        ⟨7, 0, .RW, 0, .none, []⟩] }
  | .TRACT_MODE => { blk := .TRACT, off := 0x14, fields := [⟨21, 16, .RW, 0, .none, []⟩,
        ⟨13, 8, .RW, 0, .none, []⟩,
        ⟨1, 0, .RW, 0, .none, []⟩] }
  | .TRACT_ENTRY => { blk := .TRACT, off := 0x18, fields := [⟨13, 0, .RW, 0, .none, []⟩] }
  | .TRACT_BAR_SLACK => { blk := .TRACT, off := 0x1C, fields := [⟨13, 0, .RWX, 0, .none, []⟩] }
  | .TRACT_TAG_TIMEOUT => { blk := .TRACT, off := 0x20, fields := [⟨23, 0, .RWX, 0x3e8, .none, [(1, 16777215)]⟩] }
  | .TRACT_BAR_TIMEOUT => { blk := .TRACT, off := 0x24, fields := [⟨15, 0, .RWX, 0xfa, .none, [(1, 60000)]⟩] }
  | .TRACT_RERUN => { blk := .TRACT, off := 0x28, fields := [⟨14, 8, .RO, 0, .none, []⟩,
        ⟨1, 0, .RO, 0, .none, []⟩] }
  | .TRACT_FAULT_INFO => { blk := .TRACT, off := 0x2C, fields := [⟨30, 16, .RO, 0, .none, []⟩,
        ⟨15, 8, .RO, 0, .none, []⟩,
        ⟨7, 0, .RO, 0, .none, []⟩] }
  | .TRACT_SEG => { blk := .TRACT, off := 0x30, wide := true, fields := [⟨63, 0, .RO, 0, .none, []⟩] }
  | .TRACT_SEG_BASE => { blk := .TRACT, off := 0x38, wide := true, fields := [⟨63, 0, .RO, 0, .none, []⟩] }
  | .TRACT_RERUNS => { blk := .TRACT, off := 0x40, wide := true, fields := [⟨63, 0, .RO, 0, .none, []⟩] }
  | .TRACT_AUDIT_RD => { blk := .TRACT, off := 0x48, wide := true, fields := [⟨63, 0, .RO, 0, .none, []⟩] }
  | .TRACT_AUDIT_WR => { blk := .TRACT, off := 0x50, wide := true, fields := [⟨63, 0, .RO, 0, .none, []⟩] }
  | .TRACT_SWAP_BASE => { blk := .TRACT, off := 0x58, wide := true, fields := [⟨45, 12, .RW, 0, .none, []⟩] }
  | .TRACT_CODE => { blk := .TRACT, off := 0x60, fields := [⟨26, 17, .RW, 0, .none, []⟩,
        ⟨16, 0, .RW, 0, .none, []⟩] }
  | .TRACT_TWIN_BASE => { blk := .TRACT, off := 0x80, n1 := 8, s1 := 8, fields := [⟨16, 0, .RW, 0, .none, []⟩] }
  | .TRACT_TWIN_LEN => { blk := .TRACT, off := 0x84, n1 := 8, s1 := 8, fields := [⟨23, 20, .RW, 0, .none, []⟩,
        ⟨16, 0, .RW, 0, .none, []⟩] }
  | .HOST_PROFILE => { blk := .HOST, off := 0x0, fields := [⟨3, 0, .RWL, 0, .none, []⟩] }
  | .HOST_CTRL => { blk := .HOST, off := 0x4, fields := [⟨0, 0, .RW, 1, .none, []⟩] }
  | .HOST_STATUS => { blk := .HOST, off := 0x8, fields := [⟨19, 16, .RO, 0, .none, []⟩,
        ⟨12, 8, .RO, 0, .none, []⟩,
        ⟨4, 4, .RO, 0, .none, []⟩,
        ⟨3, 3, .RO, 0, .none, []⟩,
        ⟨1, 0, .RO, 0, .none, []⟩] }
  | .HOST_BAR2_SEL => { blk := .HOST, off := 0xC, fields := [⟨10, 0, .RW, 0, .none, []⟩] }
  | .HOST_BAR4_SEL => { blk := .HOST, off := 0x10, fields := [⟨3, 0, .RW, 0, .none, [(0, 8)]⟩] }
  | .HOST_DMA_ERRORS => { blk := .HOST, off := 0x20, wide := true, counter := true, fields := [⟨63, 0, .RW, 0, .none, []⟩] }
  | .HOST_IN_DROPPED => { blk := .HOST, off := 0x28, wide := true, counter := true, fields := [⟨63, 0, .RW, 0, .none, []⟩] }
  | .HOST_IN_GO => { blk := .HOST, off := 0x100, n1 := 16, s1 := 4, fields := [⟨31, 0, .WO, 0, .none, []⟩] }
  | .HOST_IN_REL => { blk := .HOST, off := 0x140, n1 := 16, s1 := 4, fields := [⟨31, 0, .WO, 0, .none, []⟩] }
  | .HOST_IN_LAST => { blk := .HOST, off := 0x180, n1 := 16, s1 := 4, fields := [⟨31, 0, .RO, 0xffffffff, .none, []⟩] }
  | .HOST_IN_MARK => { blk := .HOST, off := 0x1C0, n1 := 16, s1 := 4, fields := [⟨31, 0, .RO, 0xffffffff, .none, []⟩] }
  | .HOST_XLAT_BASE => { blk := .HOST, off := 0x1000, wide := true, n1 := 256, s1 := 16, fields := [⟨63, 12, .RW, 0, .none, []⟩] }
  | .HOST_XLAT_CTRL => { blk := .HOST, off := 0x1008, n1 := 256, s1 := 16, fields := [⟨31, 31, .RW, 0, .none, []⟩,
        ⟨30, 30, .RW, 0, .none, []⟩,
        ⟨24, 0, .RW, 0, .none, [(0, 16777216)]⟩] }
  | .MGMT_PROFILE => { blk := .MGMT, off := 0x0, fields := [⟨3, 0, .RWL, 0, .none, []⟩] }
  | .SEC_STATUS => { blk := .MGMT, off := 0x4, fields := [⟨11, 8, .RO, 0, .loaded, []⟩,
        ⟨3, 3, .RO, 0, .none, []⟩,
        ⟨2, 2, .RO, 0, .none, []⟩,
        ⟨1, 0, .RO, 0, .none, []⟩] }
  | .SEC_SVN_FLOOR => { blk := .MGMT, off := 0x8, fields := [⟨31, 0, .RWN, 0, .stored, []⟩] }
  | .SEC_ID_GEN => { blk := .MGMT, off := 0xC, fields := [⟨2, 0, .RWN, 0, .stored, [(0, 4)]⟩] }
  | .SEC_RWN_LEFT => { blk := .MGMT, off := 0x10, fields := [⟨27, 24, .RO, 8, .stored, []⟩,
        ⟨19, 16, .RO, 8, .stored, []⟩,
        ⟨14, 8, .RO, 0x40, .stored, []⟩,
        ⟨2, 0, .RO, 4, .stored, []⟩] }
  | .SEC_DBG_NONCE => { blk := .MGMT, off := 0x18, wide := true, fields := [⟨63, 0, .RO, 0, .loaded, []⟩] }
  | .MON_CTRL => { blk := .MGMT, off := 0x10000, n1 := 16, s1 := 256, fields := [⟨31, 31, .W1S, 0, .none, []⟩,
        ⟨30, 30, .RW, 0, .none, []⟩,
        ⟨13, 4, .RW, 0, .none, []⟩,
        ⟨3, 0, .RW, 0, .none, [(0, 6)]⟩] }
  | .MON_MIN => { blk := .MGMT, off := 0x10004, n1 := 16, s1 := 256, fields := [⟨31, 0, .RO, 0xffffffff, .none, []⟩] }
  | .MON_MAX => { blk := .MGMT, off := 0x10008, n1 := 16, s1 := 256, fields := [⟨31, 0, .RO, 0, .none, []⟩] }
  | .MON_COUNT => { blk := .MGMT, off := 0x10010, wide := true, counter := true, n1 := 16, s1 := 256, fields := [⟨63, 0, .RO, 0, .none, []⟩] }
  | .MON_SUM => { blk := .MGMT, off := 0x10018, wide := true, counter := true, n1 := 16, s1 := 256, fields := [⟨63, 0, .RO, 0, .none, []⟩] }
  | .MON_BIN => { blk := .MGMT, off := 0x10020, n1 := 16, s1 := 256, n2 := 32, s2 := 4, fields := [⟨31, 0, .RO, 0, .none, []⟩] }
  | .HLTH_PROFILE => { blk := .HLTH, off := 0x0, fields := [⟨3, 0, .RWL, 0, .none, []⟩] }
  | .HLTH_CTRL => { blk := .HLTH, off := 0x4, fields := [⟨0, 0, .RW, 1, .none, []⟩] }
  | .HLTH_STATUS => { blk := .HLTH, off := 0x8, fields := [⟨17, 16, .RO, 0, .none, []⟩,
        ⟨8, 8, .RO, 0, .none, []⟩,
        ⟨7, 0, .RO, 0, .none, []⟩] }
  | .HLTH_CFG => { blk := .HLTH, off := 0xC, fields := [⟨31, 24, .RWX, 0x60, .none, []⟩,
        ⟨23, 16, .RWX, 4, .none, []⟩,
        ⟨10, 8, .RWX, 4, .none, [(1, 7)]⟩,
        ⟨7, 0, .RWX, 0x80, .none, []⟩] }
  | .HLTH_HOLDOFF => { blk := .HLTH, off := 0x10, fields := [⟨16, 0, .RW, 0x12c, .none, [(0, 86400)]⟩] }
  | .HLTH_LOSS => { blk := .HLTH, off := 0x14, fields := [⟨31, 0, .RW, 0, .none, []⟩] }
  | .HLTH_LOSS_AVG => { blk := .HLTH, off := 0x18, fields := [⟨31, 0, .RO, 0, .none, []⟩] }
  | .HLTH_LOSS_CFG => { blk := .HLTH, off := 0x1C, fields := [⟨31, 31, .W1S, 0, .none, []⟩,
        ⟨23, 16, .RWX, 0x10, .none, []⟩,
        ⟨15, 8, .RWX, 0x20, .none, [(17, 255)]⟩,
        ⟨3, 0, .RWX, 4, .none, [(1, 8)]⟩] }
  | .HLTH_LOSS_N => { blk := .HLTH, off := 0x20, fields := [⟨15, 0, .RO, 0, .none, []⟩] }
  | .HLTH_NF_ADD => { blk := .HLTH, off := 0x24, fields := [⟨31, 0, .WO, 0, .none, []⟩] }
  | .HLTH_CORE_CFG => { blk := .HLTH, off := 0x28, fields := [⟨7, 0, .RWX, 8, .none, []⟩] }
  | .HLTH_CORE_FAIL => { blk := .HLTH, off := 0x2C, fields := [⟨31, 31, .WO, 0, .none, []⟩,
        ⟨14, 0, .WO, 0, .none, []⟩] }
  | .HLTH_NONFINITE => { blk := .HLTH, off := 0x30, wide := true, counter := true, fields := [⟨63, 0, .RW, 0, .none, []⟩] }
  | .HLTH_SPIKES => { blk := .HLTH, off := 0x38, wide := true, counter := true, fields := [⟨63, 0, .RW, 0, .none, []⟩] }
  | .HLTH_HYD_REQS => { blk := .HLTH, off := 0x40, wide := true, counter := true, fields := [⟨63, 0, .RW, 0, .none, []⟩] }
  | .HLTH_SUBSTITUTIONS => { blk := .HLTH, off := 0x48, wide := true, counter := true, fields := [⟨63, 0, .RW, 0, .none, []⟩] }
  | .HLTH_REPLACEMENTS => { blk := .HLTH, off := 0x50, wide := true, counter := true, fields := [⟨63, 0, .RW, 0, .none, []⟩] }
  | .HLTH_WEIGHT_W => { blk := .HLTH, off := 0x400, n1 := 128, s1 := 4, fields := [⟨31, 24, .RWX, 0, .none, []⟩,
        ⟨23, 16, .RWX, 0, .none, []⟩,
        ⟨15, 8, .RWX, 0, .none, []⟩,
        ⟨7, 0, .RWX, 0, .none, []⟩] }
  | .EP_PROFILE => { blk := .EP, off := 0x0, fields := [⟨3, 0, .RWL, 0, .none, []⟩] }
  | .EP_STATUS => { blk := .EP, off := 0x4, fields := [⟨29, 16, .RO, 0, .none, []⟩,
        ⟨2, 0, .RO, 0, .none, []⟩] }
  | .EP_QUEUE => { blk := .EP, off := 0x8, fields := [⟨29, 24, .RO, 0, .none, []⟩,
        ⟨21, 16, .RO, 0, .none, []⟩,
        ⟨14, 8, .RO, 0, .none, []⟩,
        ⟨6, 0, .RO, 0, .none, []⟩] }
  | .EP_INSTRUCTIONS => { blk := .EP, off := 0x10, wide := true, counter := true, fields := [⟨63, 0, .RW, 0, .none, []⟩] }
  | .EP_WAIT_CCLK => { blk := .EP, off := 0x18, wide := true, counter := true, fields := [⟨63, 0, .RW, 0, .none, []⟩] }
  | .EP_ARRIVE => { blk := .EP, off := 0x100, n1 := 64, s1 := 4, fields := [⟨31, 0, .RW, 0, .none, []⟩] }
  | .MX_PROFILE => { blk := .MX, off := 0x200, fields := [⟨3, 0, .RWL, 0, .none, []⟩] }
  | .MX_CTRL => { blk := .MX, off := 0x204, fields := [⟨1, 1, .RW, 0, .none, []⟩,
        ⟨0, 0, .RW, 1, .none, []⟩] }
  | .MX_STATUS => { blk := .MX, off := 0x208, fields := [⟨7, 7, .RO, 0, .none, []⟩,
        ⟨6, 6, .RO, 0, .none, []⟩,
        ⟨5, 5, .RO, 1, .none, []⟩,
        ⟨4, 4, .RO, 0, .none, []⟩,
        ⟨1, 0, .RO, 2, .none, []⟩] }
  | .MX_CHECK => { blk := .MX, off := 0x20C, fields := [⟨6, 6, .RWX, 1, .none, []⟩,
        ⟨5, 0, .RWX, 0x1e, .none, [(20, 36)]⟩] }
  | .MX_SR_KEY => { blk := .MX, off := 0x210, fields := [⟨31, 0, .RW, 0, .none, []⟩] }
  | .MX_SR_SEQ => { blk := .MX, off := 0x214, fields := [⟨31, 0, .RW, 0, .none, []⟩] }
  | .MX_SAT_COUNT => { blk := .MX, off := 0x218, wide := true, counter := true, fields := [⟨63, 0, .RW, 0, .none, []⟩] }
  | .MX_CHECK_MISMATCHES => { blk := .MX, off := 0x220, wide := true, counter := true, fields := [⟨63, 0, .RW, 0, .none, []⟩] }
  | .MX_CHECK_SKIPS => { blk := .MX, off := 0x228, wide := true, counter := true, fields := [⟨63, 0, .RW, 0, .none, []⟩] }
  | .MX_PASSES => { blk := .MX, off := 0x230, wide := true, counter := true, fields := [⟨63, 0, .RW, 0, .none, []⟩] }
  | .MX_STALL_ACLK => { blk := .MX, off := 0x238, wide := true, counter := true, fields := [⟨63, 0, .RW, 0, .none, []⟩] }
  | .MX_MISMATCH_INFO => { blk := .MX, off := 0x240, fields := [⟨31, 8, .RO, 0, .none, []⟩,
        ⟨7, 0, .RO, 0, .none, []⟩] }
  | .MX_MISMATCH_D => { blk := .MX, off := 0x244, fields := [⟨31, 0, .RO, 0, .none, []⟩] }
  | .MX_MISMATCH_A => { blk := .MX, off := 0x248, fields := [⟨31, 0, .RO, 0, .none, []⟩] }
  | .VX_PROFILE => { blk := .VX, off := 0x300, fields := [⟨3, 0, .RWL, 0, .none, []⟩] }
  | .VX_CTRL => { blk := .VX, off := 0x304, fields := [⟨3, 3, .RW, 0, .none, []⟩,
        ⟨2, 2, .RW, 0, .none, []⟩,
        ⟨1, 1, .RW, 0, .none, []⟩,
        ⟨0, 0, .RW, 1, .none, []⟩] }
  | .VX_STATUS => { blk := .VX, off := 0x308, fields := [⟨7, 7, .W1C, 0, .none, []⟩,
        ⟨6, 6, .W1C, 0, .none, []⟩,
        ⟨5, 5, .RO, 1, .none, []⟩,
        ⟨4, 4, .RO, 0, .none, []⟩,
        ⟨1, 0, .RO, 2, .none, []⟩] }
  | .VX_VL => { blk := .VX, off := 0x30C, fields := [⟨16, 16, .RO, 0, .none, []⟩,
        ⟨9, 0, .RO, 0, .none, []⟩] }
  | .VX_RNG_KEY => { blk := .VX, off := 0x310, fields := [⟨31, 0, .RW, 0, .none, []⟩] }
  | .VX_RNG_SEQ => { blk := .VX, off := 0x314, fields := [⟨31, 0, .RW, 0, .none, []⟩] }
  | .VX_POS_Q => { blk := .VX, off := 0x318, fields := [⟨19, 0, .RO, 0, .none, []⟩] }
  | .VX_POS_K => { blk := .VX, off := 0x31C, fields := [⟨19, 0, .RO, 0, .none, []⟩] }
  | .VX_POS_CFG => { blk := .VX, off := 0x320, fields := [⟨23, 20, .RO, 9, .none, []⟩,
        ⟨19, 0, .RO, 0xfffff, .none, []⟩] }
  | .VX_DOC_COUNT => { blk := .VX, off := 0x324, fields := [⟨8, 0, .RO, 0, .none, []⟩] }
  | .VX_SUM_KIND => { blk := .VX, off := 0x328, fields := [⟨15, 12, .RO, 0, .none, []⟩,
        ⟨11, 8, .RO, 0, .none, []⟩,
        ⟨7, 4, .RO, 0, .none, []⟩,
        ⟨3, 0, .RO, 0, .none, []⟩] }
  | .VX_SUM => { blk := .VX, off := 0x330, wide := true, n1 := 4, s1 := 8, fields := [⟨63, 0, .RO, 0, .none, []⟩] }
  | .VX_SAT_COUNT => { blk := .VX, off := 0x350, wide := true, counter := true, fields := [⟨63, 0, .RW, 0, .none, []⟩] }
  | .VX_EMPTY_ROWS => { blk := .VX, off := 0x358, wide := true, counter := true, fields := [⟨63, 0, .RW, 0, .none, []⟩] }
  | .VX_INF_ROWS => { blk := .VX, off := 0x360, wide := true, counter := true, fields := [⟨63, 0, .RW, 0, .none, []⟩] }
  | .VX_NAN_ROWS => { blk := .VX, off := 0x368, wide := true, counter := true, fields := [⟨63, 0, .RW, 0, .none, []⟩] }
  | .VX_CHAINS => { blk := .VX, off := 0x370, wide := true, counter := true, fields := [⟨63, 0, .RW, 0, .none, []⟩] }
  | .VX_STALL_ACLK => { blk := .VX, off := 0x378, wide := true, counter := true, fields := [⟨63, 0, .RW, 0, .none, []⟩] }
  | .SP_PROFILE => { blk := .SP, off := 0x400, fields := [⟨3, 0, .RWL, 0, .none, []⟩] }
  | .SP_CTRL => { blk := .SP, off := 0x404, fields := [⟨0, 0, .W1S, 0, .none, []⟩] }
  | .SP_STATUS => { blk := .SP, off := 0x408, fields := [⟨7, 7, .W1C, 0, .none, []⟩,
        ⟨6, 6, .W1C, 0, .none, []⟩,
        ⟨5, 5, .RO, 0, .none, []⟩,
        ⟨3, 0, .RO, 0, .none, []⟩] }
  | .SP_PLAN_LO => { blk := .SP, off := 0x40C, fields := [⟨31, 0, .RWX, 0xb29a8315, .none, []⟩] }
  | .SP_PLAN_HI => { blk := .SP, off := 0x410, fields := [⟨31, 0, .RWX, 0x6c978345, .none, []⟩] }
  | .SP_PLAN_CUR_LO => { blk := .SP, off := 0x414, fields := [⟨31, 0, .RO, 0xb29a8315, .none, []⟩] }
  | .SP_PLAN_CUR_HI => { blk := .SP, off := 0x418, fields := [⟨31, 0, .RO, 0x6c978345, .none, []⟩] }
  | .SP_DET_INFO => { blk := .SP, off := 0x41C, fields := [⟨24, 24, .RO, 0, .none, []⟩,
        ⟨23, 20, .RO, 0, .none, []⟩,
        ⟨16, 0, .RO, 0, .none, []⟩] }
  | .SP_DETECTS => { blk := .SP, off := 0x420, wide := true, counter := true, fields := [⟨63, 0, .RW, 0, .none, []⟩] }
  | .SP_BAD_ACCESSES => { blk := .SP, off := 0x428, wide := true, counter := true, fields := [⟨63, 0, .RW, 0, .none, []⟩] }
  | .SP_BIST => { blk := .SP, off := 0x430, fields := [⟨29, 16, .RO, 0, .none, []⟩,
        ⟨2, 2, .RO, 0, .none, []⟩,
        ⟨1, 1, .RO, 0, .none, []⟩,
        ⟨0, 0, .W1S, 0, .none, []⟩] }
  | .SP_TAG_PROBE => { blk := .SP, off := 0x434, fields := [⟨18, 18, .RO, 0, .none, []⟩,
        ⟨17, 17, .RO, 0, .none, []⟩,
        ⟨16, 0, .RW, 0, .none, [(0, 81919)]⟩] }
  | .FB_PROFILE => { blk := .FB, off := 0x500, fields := [⟨3, 0, .RWL, 0, .none, []⟩] }
  | .FB_CTRL => { blk := .FB, off := 0x504, fields := [⟨0, 0, .RW, 1, .none, []⟩] }
  | .FB_STATUS => { blk := .FB, off := 0x508, fields := [⟨21, 21, .RO, 0, .none, []⟩,
        ⟨20, 17, .RO, 0, .none, []⟩,
        ⟨16, 16, .RO, 0, .loaded, []⟩,
        ⟨8, 0, .RO, 0, .none, []⟩] }
  | .FB_MERGE => { blk := .FB, off := 0x50C, fields := [⟨0, 0, .RWX, 1, .none, []⟩] }
  | .FB_INJECTED => { blk := .FB, off := 0x510, wide := true, counter := true, fields := [⟨63, 0, .RW, 0, .none, []⟩] }
  | .FB_DELIVERED => { blk := .FB, off := 0x518, wide := true, counter := true, fields := [⟨63, 0, .RW, 0, .none, []⟩] }
  | .FB_MERGED => { blk := .FB, off := 0x520, wide := true, counter := true, fields := [⟨63, 0, .RW, 0, .none, []⟩] }
  | .FB_DROPPED => { blk := .FB, off := 0x528, wide := true, counter := true, fields := [⟨63, 0, .RW, 0, .none, []⟩] }
  | .FB_LINK_RETRIES => { blk := .FB, off := 0x530, wide := true, counter := true, fields := [⟨63, 0, .RW, 0, .none, []⟩] }
  | .FB_BOW_DROPS => { blk := .FB, off := 0x538, wide := true, counter := true, fields := [⟨63, 0, .RW, 0, .none, []⟩] }
  | .FB_TGT => { blk := .FB, off := 0x580, wide := true, n1 := 16, s1 := 8, fields := [⟨63, 6, .RW, 0, .none, []⟩] }
  | .STP_PROFILE => { blk := .STP, off := 0x600, fields := [⟨3, 0, .RWL, 0, .none, []⟩] }
  | .STP_CTRL => { blk := .STP, off := 0x604, fields := [⟨0, 0, .RW, 1, .none, []⟩] }
  | .STP_STATUS => { blk := .STP, off := 0x608, fields := [⟨7, 7, .RO, 0, .none, []⟩,
        ⟨6, 6, .RO, 0, .none, []⟩,
        ⟨4, 4, .RO, 0, .none, []⟩,
        ⟨1, 0, .RO, 2, .none, []⟩] }
  | .STP_PF_CFG => { blk := .STP, off := 0x60C, fields := [⟨13, 8, .RW, 0, .none, []⟩,
        ⟨2, 0, .RW, 0, .none, []⟩] }
  | .STP_PF_BUF => { blk := .STP, off := 0x610, fields := [⟨30, 17, .RW, 1, .none, [(1, 10240)]⟩,
        ⟨16, 0, .RW, 0, .none, []⟩] }
  | .STP_PF_MARGIN => { blk := .STP, off := 0x614, fields := [⟨31, 0, .RW, 0x3e8, .none, []⟩] }
  | .STP_STAMP_SEL => { blk := .STP, off := 0x618, fields := [⟨5, 0, .RW, 0, .none, []⟩] }
  | .STP_SAVE_BASE => { blk := .STP, off := 0x620, wide := true, fields := [⟨45, 6, .RW, 0, .none, []⟩] }
  | .STP_SAVE_LIMIT => { blk := .STP, off := 0x628, wide := true, fields := [⟨45, 6, .RW, 0, .none, []⟩] }
  | .STP_SAVE_TOP => { blk := .STP, off := 0x630, wide := true, fields := [⟨45, 6, .RO, 0, .none, []⟩] }
  | .STP_PF_PTR => { blk := .STP, off := 0x638, wide := true, fields := [⟨45, 6, .RO, 0, .none, []⟩] }
  | .STP_STAMP => { blk := .STP, off := 0x640, wide := true, fields := [⟨63, 0, .RO, 0, .none, []⟩] }
  | .STP_SAVED_BYTES => { blk := .STP, off := 0x648, wide := true, counter := true, fields := [⟨63, 0, .RW, 0, .none, []⟩] }
  | .STP_GRIST_UNDERRUNS => { blk := .STP, off := 0x650, wide := true, counter := true, fields := [⟨63, 0, .RW, 0, .none, []⟩] }
  | .STP_ACT_UNDERRUNS => { blk := .STP, off := 0x658, wide := true, counter := true, fields := [⟨63, 0, .RW, 0, .none, []⟩] }

/-- A field of a register, by name (names in `F`). -/
structure Fld where
  reg : RegId
  hi : Nat
  lo : Nat

namespace F

abbrev MOD_ID_PART : Fld := ⟨.MOD_ID, 31, 16⟩
abbrev MOD_ID_ORDER : Fld := ⟨.MOD_ID, 15, 8⟩
abbrev MOD_ID_REV : Fld := ⟨.MOD_ID, 7, 0⟩
abbrev MOD_PROFILE_PRESET : Fld := ⟨.MOD_PROFILE, 3, 0⟩
abbrev MOD_CTRL_LOCK : Fld := ⟨.MOD_CTRL, 1, 1⟩
abbrev MOD_CTRL_EXPERT : Fld := ⟨.MOD_CTRL, 0, 0⟩
abbrev MOD_STATUS_DEGRADED : Fld := ⟨.MOD_STATUS, 2, 2⟩
abbrev MOD_STATUS_RESTRICTED : Fld := ⟨.MOD_STATUS, 1, 1⟩
abbrev MOD_STATUS_READY : Fld := ⟨.MOD_STATUS, 0, 0⟩
abbrev MOD_SERIAL_SERIAL : Fld := ⟨.MOD_SERIAL, 63, 0⟩
abbrev MOD_MODULE_ID_ID : Fld := ⟨.MOD_MODULE_ID, 9, 0⟩
abbrev MOD_STACK_MAP_PRESENT : Fld := ⟨.MOD_STACK_MAP, 23, 0⟩
abbrev MOD_SPARE_GEN_GEN : Fld := ⟨.MOD_SPARE_GEN, 31, 0⟩
abbrev MOD_SPARES_LEFT_COUNT : Fld := ⟨.MOD_SPARES_LEFT, 10, 0⟩
abbrev MOD_EVT_WR_INDEX : Fld := ⟨.MOD_EVT_WR, 12, 0⟩
abbrev MOD_EVT_RD_INDEX : Fld := ⟨.MOD_EVT_RD, 12, 0⟩
abbrev MOD_EVT_LOST_COUNT : Fld := ⟨.MOD_EVT_LOST, 63, 0⟩
abbrev MOD_SPARE_SKIP_B_FAILED : Fld := ⟨.MOD_SPARE_SKIP, 11, 11⟩
abbrev MOD_SPARE_SKIP_A_FAILED : Fld := ⟨.MOD_SPARE_SKIP, 10, 10⟩
abbrev MOD_SPARE_SKIP_SKIP_B : Fld := ⟨.MOD_SPARE_SKIP, 9, 5⟩
abbrev MOD_SPARE_SKIP_SKIP_A : Fld := ⟨.MOD_SPARE_SKIP, 4, 0⟩
abbrev MOD_SPARE_FAIL_FAILED : Fld := ⟨.MOD_SPARE_FAIL, 31, 0⟩
abbrev RST_PROFILE_PRESET : Fld := ⟨.RST_PROFILE, 3, 0⟩
abbrev RST_CTRL_PERST_CLASS : Fld := ⟨.RST_CTRL, 1, 1⟩
abbrev RST_CTRL_REMOTE_EN : Fld := ⟨.RST_CTRL, 0, 0⟩
abbrev RST_STATUS_ACTIVE : Fld := ⟨.RST_STATUS, 6, 4⟩
abbrev RST_STATUS_BYPASS : Fld := ⟨.RST_STATUS, 1, 1⟩
abbrev RST_STATUS_RELEASE_HELD : Fld := ⟨.RST_STATUS, 0, 0⟩
abbrev RST_CMD_KEY : Fld := ⟨.RST_CMD, 31, 24⟩
abbrev RST_CMD_CLASS : Fld := ⟨.RST_CMD, 23, 20⟩
abbrev RST_CMD_PHYS : Fld := ⟨.RST_CMD, 15, 15⟩
abbrev RST_CMD_TARGET : Fld := ⟨.RST_CMD, 14, 0⟩
abbrev RST_CAUSE_SOURCE : Fld := ⟨.RST_CAUSE, 7, 4⟩
abbrev RST_CAUSE_CLASS : Fld := ⟨.RST_CAUSE, 2, 0⟩
abbrev RST_WDOG_EN : Fld := ⟨.RST_WDOG, 31, 31⟩
abbrev RST_WDOG_CLASS : Fld := ⟨.RST_WDOG, 30, 28⟩
abbrev RST_WDOG_MS : Fld := ⟨.RST_WDOG, 15, 0⟩
abbrev RST_WDOG_KICK_KICK : Fld := ⟨.RST_WDOG_KICK, 31, 0⟩
abbrev RST_TRIM_RETRY : Fld := ⟨.RST_TRIM, 8, 8⟩
abbrev RST_TRIM_FAILS : Fld := ⟨.RST_TRIM, 5, 4⟩
abbrev RST_TRIM_SET : Fld := ⟨.RST_TRIM, 0, 0⟩
abbrev RST_BOOT_PREFER : Fld := ⟨.RST_BOOT, 8, 8⟩
abbrev RST_BOOT_SLOT : Fld := ⟨.RST_BOOT, 5, 5⟩
abbrev RST_BOOT_STAGE : Fld := ⟨.RST_BOOT, 3, 0⟩
abbrev RST_IMAGE_SVN_SVN : Fld := ⟨.RST_IMAGE_SVN, 31, 0⟩
abbrev RST_IMAGE_BUILD_BUILD_ID : Fld := ⟨.RST_IMAGE_BUILD, 63, 0⟩
abbrev CLK_STATUS_LOCKED : Fld := ⟨.CLK_STATUS, 24, 0⟩
abbrev CLK_BYPASS_BYPASS : Fld := ⟨.CLK_BYPASS, 24, 0⟩
abbrev CLK_SKIM_FLOOR : Fld := ⟨.CLK_SKIM, 11, 8⟩
abbrev CLK_SKIM_REQ : Fld := ⟨.CLK_SKIM, 7, 4⟩
abbrev CLK_SKIM_LEVEL : Fld := ⟨.CLK_SKIM, 3, 0⟩
abbrev CLK_TB_TB : Fld := ⟨.CLK_TB, 63, 0⟩
abbrev CLK_WT_WT : Fld := ⟨.CLK_WT, 63, 0⟩
abbrev CLK_SKIMMED_COUNT : Fld := ⟨.CLK_SKIMMED, 63, 0⟩
abbrev PWR_PROFILE_PRESET : Fld := ⟨.PWR_PROFILE, 3, 0⟩
abbrev PWR_CTRL_AUTO_SIMMER : Fld := ⟨.PWR_CTRL, 4, 4⟩
abbrev PWR_CTRL_TARGET : Fld := ⟨.PWR_CTRL, 1, 0⟩
abbrev PWR_STATUS_RAMP : Fld := ⟨.PWR_STATUS, 11, 8⟩
abbrev PWR_STATUS_CAP : Fld := ⟨.PWR_STATUS, 7, 7⟩
abbrev PWR_STATUS_CORES_READY : Fld := ⟨.PWR_STATUS, 6, 6⟩
abbrev PWR_STATUS_WAKE_PENDING : Fld := ⟨.PWR_STATUS, 5, 5⟩
abbrev PWR_STATUS_WAITING : Fld := ⟨.PWR_STATUS, 4, 4⟩
abbrev PWR_STATUS_MOVING : Fld := ⟨.PWR_STATUS, 3, 3⟩
abbrev PWR_STATUS_STATE : Fld := ⟨.PWR_STATUS, 1, 0⟩
abbrev PWR_PENV_PENV : Fld := ⟨.PWR_PENV, 7, 0⟩
abbrev PWR_GOV_HYST : Fld := ⟨.PWR_GOV, 15, 8⟩
abbrev PWR_GOV_DOWN_N : Fld := ⟨.PWR_GOV, 7, 0⟩
abbrev PWR_INPUT_W : Fld := ⟨.PWR_INPUT, 31, 0⟩
abbrev PWR_VIN_MV : Fld := ⟨.PWR_VIN, 31, 0⟩
abbrev THERM_PARK_OFS_OFS : Fld := ⟨.THERM_PARK_OFS, 4, 0⟩
abbrev THERM_CFG_UNPARK_MS : Fld := ⟨.THERM_CFG, 15, 8⟩
abbrev THERM_CFG_UNPARK_DELTA : Fld := ⟨.THERM_CFG, 3, 0⟩
abbrev THERM_HOTTEST_FIELD : Fld := ⟨.THERM_HOTTEST, 20, 16⟩
abbrev THERM_HOTTEST_TEMP : Fld := ⟨.THERM_HOTTEST, 11, 0⟩
abbrev PWR_WAKES_COUNT : Fld := ⟨.PWR_WAKES, 63, 0⟩
abbrev PWR_CAP_SAMPLES_COUNT : Fld := ⟨.PWR_CAP_SAMPLES, 63, 0⟩
abbrev THERM_TRIPS_COUNT : Fld := ⟨.THERM_TRIPS, 63, 0⟩
abbrev FLD_PROFILE_PRESET : Fld := ⟨.FLD_PROFILE, 3, 0⟩
abbrev FLD_CTRL_MAX_CLR : Fld := ⟨.FLD_CTRL, 1, 1⟩
abbrev FLD_CTRL_PARK : Fld := ⟨.FLD_CTRL, 0, 0⟩
abbrev FLD_STATUS_HEAT : Fld := ⟨.FLD_STATUS, 6, 6⟩
abbrev FLD_STATUS_WARN : Fld := ⟨.FLD_STATUS, 5, 5⟩
abbrev FLD_STATUS_UNPARK_PENDING : Fld := ⟨.FLD_STATUS, 4, 4⟩
abbrev FLD_STATUS_STATE : Fld := ⟨.FLD_STATUS, 1, 0⟩
abbrev FLD_TEMP_TEMP : Fld := ⟨.FLD_TEMP, 11, 0⟩
abbrev FLD_TEMP_MAX_TEMP : Fld := ⟨.FLD_TEMP_MAX, 11, 0⟩
abbrev FLD_VCORE_VALUE : Fld := ⟨.FLD_VCORE, 15, 0⟩
abbrev FLD_POWER_VALUE : Fld := ⟨.FLD_POWER, 15, 0⟩
abbrev FLD_PARKS_COUNT : Fld := ⟨.FLD_PARKS, 63, 0⟩
abbrev HBMC_PROFILE_PRESET : Fld := ⟨.HBMC_PROFILE, 3, 0⟩
abbrev HBMC_CTRL_FLUSH : Fld := ⟨.HBMC_CTRL, 2, 2⟩
abbrev HBMC_CTRL_MAPOUT : Fld := ⟨.HBMC_CTRL, 1, 1⟩
abbrev HBMC_CTRL_ENABLE : Fld := ⟨.HBMC_CTRL, 0, 0⟩
abbrev HBMC_STATUS_MAPOUT_REASON : Fld := ⟨.HBMC_STATUS, 11, 8⟩
abbrev HBMC_STATUS_FLUSHING : Fld := ⟨.HBMC_STATUS, 4, 4⟩
abbrev HBMC_STATUS_ENABLE_PENDING : Fld := ⟨.HBMC_STATUS, 3, 3⟩
abbrev HBMC_STATUS_STATE : Fld := ⟨.HBMC_STATUS, 2, 0⟩
abbrev HBMC_ILV_GROUP : Fld := ⟨.HBMC_ILV, 4, 4⟩
abbrev HBMC_ILV_GLOG : Fld := ⟨.HBMC_ILV, 3, 0⟩
abbrev HBMC_ILV_CUR_GROUP : Fld := ⟨.HBMC_ILV_CUR, 4, 4⟩
abbrev HBMC_ILV_CUR_GLOG : Fld := ⟨.HBMC_ILV_CUR, 3, 0⟩
abbrev HBMC_SCRUB_EN : Fld := ⟨.HBMC_SCRUB, 16, 16⟩
abbrev HBMC_SCRUB_INTERVAL : Fld := ⟨.HBMC_SCRUB, 15, 0⟩
abbrev HBMC_MAPOUT_THR_UE : Fld := ⟨.HBMC_MAPOUT_THR, 23, 12⟩
abbrev HBMC_MAPOUT_THR_TIMEOUT : Fld := ⟨.HBMC_MAPOUT_THR, 11, 0⟩
abbrev HBMC_TEMP_HOT : Fld := ⟨.HBMC_TEMP, 8, 8⟩
abbrev HBMC_TEMP_TEMP : Fld := ⟨.HBMC_TEMP, 7, 0⟩
abbrev HBMC_CORRECTED_COUNT : Fld := ⟨.HBMC_CORRECTED, 63, 0⟩
abbrev HBMC_UNCORRECTABLE_COUNT : Fld := ⟨.HBMC_UNCORRECTABLE, 63, 0⟩
abbrev HBMC_POISON_RETURNED_COUNT : Fld := ⟨.HBMC_POISON_RETURNED, 63, 0⟩
abbrev HBMC_TIMEOUTS_COUNT : Fld := ⟨.HBMC_TIMEOUTS, 63, 0⟩
abbrev HBMC_REFUSED_COUNT : Fld := ⟨.HBMC_REFUSED, 63, 0⟩
abbrev HBMC_EVICTIONS_COUNT : Fld := ⟨.HBMC_EVICTIONS, 63, 0⟩
abbrev HBMC_ERR_INFO_SYM : Fld := ⟨.HBMC_ERR_INFO, 23, 16⟩
abbrev HBMC_ERR_INFO_KIND : Fld := ⟨.HBMC_ERR_INFO, 15, 12⟩
abbrev HBMC_ERR_INFO_SRC : Fld := ⟨.HBMC_ERR_INFO, 11, 10⟩
abbrev HBMC_ERR_INFO_CHANNEL : Fld := ⟨.HBMC_ERR_INFO, 4, 0⟩
abbrev HBMC_ERR_ADDR_ADDR : Fld := ⟨.HBMC_ERR_ADDR, 45, 0⟩
abbrev HBMC_CH_CE_COUNT : Fld := ⟨.HBMC_CH_CE, 63, 0⟩
abbrev HBMC_CH_UE_COUNT : Fld := ⟨.HBMC_CH_UE, 63, 0⟩
abbrev BRIM_PROFILE_PRESET : Fld := ⟨.BRIM_PROFILE, 3, 0⟩
abbrev BRIM_CTRL_RETRAIN : Fld := ⟨.BRIM_CTRL, 1, 1⟩
abbrev BRIM_CTRL_ENABLE : Fld := ⟨.BRIM_CTRL, 0, 0⟩
abbrev BRIM_STATUS_TRAIN_FAILS : Fld := ⟨.BRIM_STATUS, 7, 6⟩
abbrev BRIM_STATUS_GROUPS : Fld := ⟨.BRIM_STATUS, 5, 4⟩
abbrev BRIM_STATUS_ENABLE_PENDING : Fld := ⟨.BRIM_STATUS, 3, 3⟩
abbrev BRIM_STATUS_STATE : Fld := ⟨.BRIM_STATUS, 2, 0⟩
abbrev BRIM_CFG_HOP_LIMIT : Fld := ⟨.BRIM_CFG, 19, 16⟩
abbrev BRIM_CFG_RTB : Fld := ⟨.BRIM_CFG, 15, 8⟩
abbrev BRIM_CFG_REMOTE_REG : Fld := ⟨.BRIM_CFG, 1, 1⟩
abbrev BRIM_CFG_MODE : Fld := ⟨.BRIM_CFG, 0, 0⟩
abbrev BRIM_PEER_MODE : Fld := ⟨.BRIM_PEER, 14, 14⟩
abbrev BRIM_PEER_VALID : Fld := ⟨.BRIM_PEER, 13, 13⟩
abbrev BRIM_PEER_PORT : Fld := ⟨.BRIM_PEER, 12, 10⟩
abbrev BRIM_PEER_MID : Fld := ⟨.BRIM_PEER, 9, 0⟩
abbrev BRIM_ARB_WT_TRANSIT : Fld := ⟨.BRIM_ARB, 7, 4⟩
abbrev BRIM_ARB_WT_LOCAL : Fld := ⟨.BRIM_ARB, 3, 0⟩
abbrev BRIM_ETH_PTP_DOMAIN : Fld := ⟨.BRIM_ETH, 31, 24⟩
abbrev BRIM_ETH_PCP_RSP : Fld := ⟨.BRIM_ETH, 22, 20⟩
abbrev BRIM_ETH_PCP_REQ : Fld := ⟨.BRIM_ETH, 18, 16⟩
abbrev BRIM_ETH_ETYPE : Fld := ⟨.BRIM_ETH, 15, 0⟩
abbrev BRIM_TIME_PERIOD_MS : Fld := ⟨.BRIM_TIME, 15, 8⟩
abbrev BRIM_TIME_STATE : Fld := ⟨.BRIM_TIME, 5, 4⟩
abbrev BRIM_TIME_UP_PORT : Fld := ⟨.BRIM_TIME, 3, 1⟩
abbrev BRIM_TIME_ROOT : Fld := ⟨.BRIM_TIME, 0, 0⟩
abbrev BRIM_TIME_OFS_OFS : Fld := ⟨.BRIM_TIME_OFS, 31, 0⟩
abbrev BRIM_CLASS_PROF_REG : Fld := ⟨.BRIM_CLASS_PROF, 19, 16⟩
abbrev BRIM_CLASS_PROF_RACK : Fld := ⟨.BRIM_CLASS_PROF, 15, 12⟩
abbrev BRIM_CLASS_PROF_RACC : Fld := ⟨.BRIM_CLASS_PROF, 11, 8⟩
abbrev BRIM_CLASS_PROF_GRIST : Fld := ⟨.BRIM_CLASS_PROF, 7, 4⟩
abbrev BRIM_CLASS_PROF_CORE : Fld := ⟨.BRIM_CLASS_PROF, 3, 0⟩
abbrev BRIM_TAGS_COOLING : Fld := ⟨.BRIM_TAGS, 30, 16⟩
abbrev BRIM_TAGS_IN_USE : Fld := ⟨.BRIM_TAGS, 14, 0⟩
abbrev BRIM_TX_BYTES_COUNT : Fld := ⟨.BRIM_TX_BYTES, 63, 0⟩
abbrev BRIM_RX_BYTES_COUNT : Fld := ⟨.BRIM_RX_BYTES, 63, 0⟩
abbrev BRIM_FEC_CORR_COUNT : Fld := ⟨.BRIM_FEC_CORR, 63, 0⟩
abbrev BRIM_FEC_UNCORR_COUNT : Fld := ⟨.BRIM_FEC_UNCORR, 63, 0⟩
abbrev BRIM_REPLAYS_COUNT : Fld := ⟨.BRIM_REPLAYS, 63, 0⟩
abbrev BRIM_RETRAINS_COUNT : Fld := ⟨.BRIM_RETRAINS, 63, 0⟩
abbrev BRIM_DEMOTED_COUNT : Fld := ⟨.BRIM_DEMOTED, 63, 0⟩
abbrev BRIM_DROPS_COUNT : Fld := ⟨.BRIM_DROPS, 63, 0⟩
abbrev BRIM_STALE_COUNT : Fld := ⟨.BRIM_STALE, 63, 0⟩
abbrev BRIM_TAG_TIMEOUTS_COUNT : Fld := ⟨.BRIM_TAG_TIMEOUTS, 63, 0⟩
abbrev BRIM_FLOW_EN : Fld := ⟨.BRIM_FLOW, 31, 31⟩
abbrev BRIM_FLOW_RATE : Fld := ⟨.BRIM_FLOW, 17, 8⟩
abbrev BRIM_FLOW_BURST : Fld := ⟨.BRIM_FLOW, 7, 0⟩
abbrev BRIM_ROUTE_VALID : Fld := ⟨.BRIM_ROUTE, 31, 31⟩
abbrev BRIM_ROUTE_PORT : Fld := ⟨.BRIM_ROUTE, 30, 28⟩
abbrev BRIM_ROUTE_ALT1 : Fld := ⟨.BRIM_ROUTE, 27, 25⟩
abbrev BRIM_ROUTE_ALT2 : Fld := ⟨.BRIM_ROUTE, 24, 22⟩
abbrev BRIM_ROUTE_FLOWV : Fld := ⟨.BRIM_ROUTE, 21, 21⟩
abbrev BRIM_ROUTE_FLOW : Fld := ⟨.BRIM_ROUTE, 20, 13⟩
abbrev BRIM_ROUTE_NEXT : Fld := ⟨.BRIM_ROUTE, 9, 0⟩
abbrev RED_PROFILE_PRESET : Fld := ⟨.RED_PROFILE, 3, 0⟩
abbrev RED_CTRL_SYNC_EN : Fld := ⟨.RED_CTRL, 1, 1⟩
abbrev RED_CTRL_SCHED : Fld := ⟨.RED_CTRL, 0, 0⟩
abbrev RED_STATUS_SYNC : Fld := ⟨.RED_STATUS, 5, 4⟩
abbrev RED_STATUS_PHASE : Fld := ⟨.RED_STATUS, 1, 0⟩
abbrev RED_VFY_PROF : Fld := ⟨.RED_VFY, 15, 12⟩
abbrev RED_VFY_VTAU : Fld := ⟨.RED_VFY, 11, 6⟩
abbrev RED_VFY_EN : Fld := ⟨.RED_VFY, 5, 5⟩
abbrev RED_VFY_VLOG : Fld := ⟨.RED_VFY, 4, 0⟩
abbrev RED_VFY_KEY_KEY : Fld := ⟨.RED_VFY_KEY, 31, 0⟩
abbrev RED_STEP_TRACTS_MASK : Fld := ⟨.RED_STEP_TRACTS, 15, 0⟩
abbrev RED_SYNC_ERR_ERR : Fld := ⟨.RED_SYNC_ERR, 31, 0⟩
abbrev RED_STEP_PERIOD_NS : Fld := ⟨.RED_STEP_PERIOD, 63, 0⟩
abbrev RED_STEP_NEXT_WT : Fld := ⟨.RED_STEP_NEXT, 63, 0⟩
abbrev RED_STEP_COUNT_COUNT : Fld := ⟨.RED_STEP_COUNT, 63, 0⟩
abbrev RED_STEP_LAST_WT : Fld := ⟨.RED_STEP_LAST, 63, 0⟩
abbrev RED_SYNC_LAST_WT : Fld := ⟨.RED_SYNC_LAST, 63, 0⟩
abbrev RED_STEP_OVERRUNS_COUNT : Fld := ⟨.RED_STEP_OVERRUNS, 63, 0⟩
abbrev RED_SYNC_EXTRA_COUNT : Fld := ⟨.RED_SYNC_EXTRA, 63, 0⟩
abbrev RED_RACC_SENT_COUNT : Fld := ⟨.RED_RACC_SENT, 63, 0⟩
abbrev RED_RACC_RETURNED_COUNT : Fld := ⟨.RED_RACC_RETURNED, 63, 0⟩
abbrev RED_BAD_CONTRIBS_COUNT : Fld := ⟨.RED_BAD_CONTRIBS, 63, 0⟩
abbrev RED_VFY_COMPARED_COUNT : Fld := ⟨.RED_VFY_COMPARED, 63, 0⟩
abbrev RED_VFY_MISMATCHES_COUNT : Fld := ⟨.RED_VFY_MISMATCHES, 63, 0⟩
abbrev RED_RID_VALID : Fld := ⟨.RED_RID, 31, 31⟩
abbrev RED_RID_PAR : Fld := ⟨.RED_RID, 30, 30⟩
abbrev RED_RID_WIRE : Fld := ⟨.RED_RID, 29, 28⟩
abbrev RED_RID_WIN : Fld := ⟨.RED_RID, 27, 18⟩
abbrev RED_WIN_CTRL_OFMT : Fld := ⟨.RED_WIN_CTRL, 11, 10⟩
abbrev RED_WIN_CTRL_VFY_EN : Fld := ⟨.RED_WIN_CTRL, 9, 9⟩
abbrev RED_WIN_CTRL_MEAN : Fld := ⟨.RED_WIN_CTRL, 8, 8⟩
abbrev RED_WIN_CTRL_OP : Fld := ⟨.RED_WIN_CTRL, 4, 4⟩
abbrev RED_WIN_CTRL_ENABLE : Fld := ⟨.RED_WIN_CTRL, 0, 0⟩
abbrev RED_WIN_STATUS_REJECT : Fld := ⟨.RED_WIN_STATUS, 7, 4⟩
abbrev RED_WIN_STATUS_ENABLE_PENDING : Fld := ⟨.RED_WIN_STATUS, 3, 3⟩
abbrev RED_WIN_STATUS_STATE : Fld := ⟨.RED_WIN_STATUS, 2, 0⟩
abbrev RED_WIN_DEADLINE_NS : Fld := ⟨.RED_WIN_DEADLINE, 31, 0⟩
abbrev RED_WIN_K_K : Fld := ⟨.RED_WIN_K, 31, 0⟩
abbrev RED_WIN_BASE_ADDR : Fld := ⟨.RED_WIN_BASE, 45, 12⟩
abbrev RED_WIN_OUT_ADDR : Fld := ⟨.RED_WIN_OUT, 45, 6⟩
abbrev RED_WIN_CNT_ADDR : Fld := ⟨.RED_WIN_CNT, 45, 6⟩
abbrev RED_WIN_VBASE_ADDR : Fld := ⟨.RED_WIN_VBASE, 45, 8⟩
abbrev RED_WIN_SIZE_NCHUNKM1 : Fld := ⟨.RED_WIN_SIZE, 25, 0⟩
abbrev RED_WIN_EXPECT_EXPECT : Fld := ⟨.RED_WIN_EXPECT, 15, 0⟩
abbrev RED_WIN_NOTIFY_EN : Fld := ⟨.RED_WIN_NOTIFY, 31, 31⟩
abbrev RED_WIN_NOTIFY_LINE : Fld := ⟨.RED_WIN_NOTIFY, 26, 10⟩
abbrev RED_WIN_NOTIFY_CTR : Fld := ⟨.RED_WIN_NOTIFY, 9, 4⟩
abbrev RED_WIN_NOTIFY_TRACT : Fld := ⟨.RED_WIN_NOTIFY, 3, 0⟩
abbrev RED_WIN_APPLIED_COUNT : Fld := ⟨.RED_WIN_APPLIED, 63, 0⟩
abbrev RED_WIN_LATE_COUNT : Fld := ⟨.RED_WIN_LATE, 63, 0⟩
abbrev RED_WIN_SHORT_COUNT : Fld := ⟨.RED_WIN_SHORT, 63, 0⟩
abbrev RED_WIN_EMPTY_COUNT : Fld := ⟨.RED_WIN_EMPTY, 63, 0⟩
abbrev STRM_PROFILE_PRESET : Fld := ⟨.STRM_PROFILE, 3, 0⟩
abbrev STRM_RK_CTRL_NOW : Fld := ⟨.STRM_RK_CTRL, 3, 3⟩
abbrev STRM_RK_CTRL_TGT_HOST : Fld := ⟨.STRM_RK_CTRL, 2, 2⟩
abbrev STRM_RK_CTRL_TGT_CASK : Fld := ⟨.STRM_RK_CTRL, 1, 1⟩
abbrev STRM_RK_CTRL_ENABLE : Fld := ⟨.STRM_RK_CTRL, 0, 0⟩
abbrev STRM_RK_STATUS_SEQ : Fld := ⟨.STRM_RK_STATUS, 31, 24⟩
abbrev STRM_RK_STATUS_LAST_FAIL : Fld := ⟨.STRM_RK_STATUS, 15, 12⟩
abbrev STRM_RK_STATUS_SEALED : Fld := ⟨.STRM_RK_STATUS, 11, 10⟩
abbrev STRM_RK_STATUS_HYD_REQ : Fld := ⟨.STRM_RK_STATUS, 9, 9⟩
abbrev STRM_RK_STATUS_ENABLE_PENDING : Fld := ⟨.STRM_RK_STATUS, 8, 8⟩
abbrev STRM_RK_STATUS_STATE : Fld := ⟨.STRM_RK_STATUS, 2, 0⟩
abbrev STRM_RK_PERIOD_S : Fld := ⟨.STRM_RK_PERIOD, 31, 0⟩
abbrev STRM_RK_CAP_HOST_PCT : Fld := ⟨.STRM_RK_CAP, 13, 8⟩
abbrev STRM_RK_CAP_BRIM_PCT : Fld := ⟨.STRM_RK_CAP, 5, 0⟩
abbrev STRM_RK_CASK_MID_ID : Fld := ⟨.STRM_RK_CASK_MID, 9, 0⟩
abbrev STRM_RK_CASK_BASE_ADDR : Fld := ⟨.STRM_RK_CASK_BASE, 45, 12⟩
abbrev STRM_RK_HOST_BASE_ADDR : Fld := ⟨.STRM_RK_HOST_BASE, 45, 12⟩
abbrev STRM_RK_BANK_LEN_ADDR : Fld := ⟨.STRM_RK_BANK_LEN, 45, 12⟩
abbrev STRM_RK_MAP_BASE_ADDR : Fld := ⟨.STRM_RK_MAP_BASE, 45, 12⟩
abbrev STRM_RK_LAST_START_WT : Fld := ⟨.STRM_RK_LAST_START, 63, 0⟩
abbrev STRM_RK_DONE_COUNT : Fld := ⟨.STRM_RK_DONE, 63, 0⟩
abbrev STRM_RK_FAILED_COUNT : Fld := ⟨.STRM_RK_FAILED, 63, 0⟩
abbrev STRM_RK_BYTES_COUNT : Fld := ⟨.STRM_RK_BYTES, 63, 0⟩
abbrev STRM_RK_RBASE_ADDR : Fld := ⟨.STRM_RK_RBASE, 45, 12⟩
abbrev STRM_RK_RBASE_EN : Fld := ⟨.STRM_RK_RBASE, 0, 0⟩
abbrev STRM_RK_RLEN_PAGES : Fld := ⟨.STRM_RK_RLEN, 31, 0⟩
abbrev STRM_GS_CTRL_WDM1 : Fld := ⟨.STRM_GS_CTRL, 22, 20⟩
abbrev STRM_GS_CTRL_CBASE : Fld := ⟨.STRM_GS_CTRL, 19, 14⟩
abbrev STRM_GS_CTRL_ORDER : Fld := ⟨.STRM_GS_CTRL, 13, 12⟩
abbrev STRM_GS_CTRL_TRACT : Fld := ⟨.STRM_GS_CTRL, 11, 8⟩
abbrev STRM_GS_CTRL_ENABLE : Fld := ⟨.STRM_GS_CTRL, 0, 0⟩
abbrev STRM_GS_STATUS_NEXT_REL : Fld := ⟨.STRM_GS_STATUS, 31, 16⟩
abbrev STRM_GS_STATUS_FAULT_REASON : Fld := ⟨.STRM_GS_STATUS, 7, 5⟩
abbrev STRM_GS_STATUS_ENABLE_PENDING : Fld := ⟨.STRM_GS_STATUS, 3, 3⟩
abbrev STRM_GS_STATUS_STATE : Fld := ⟨.STRM_GS_STATUS, 2, 0⟩
abbrev STRM_GS_MARGIN_NS : Fld := ⟨.STRM_GS_MARGIN, 31, 0⟩
abbrev STRM_GS_DST_SLOT8 : Fld := ⟨.STRM_GS_DST, 30, 17⟩
abbrev STRM_GS_DST_LINE : Fld := ⟨.STRM_GS_DST, 16, 0⟩
abbrev STRM_GS_LTAB_ADDR : Fld := ⟨.STRM_GS_LTAB, 45, 4⟩
abbrev STRM_GS_NLAYERS_NM1 : Fld := ⟨.STRM_GS_NLAYERS, 15, 0⟩
abbrev STRM_GS_LINES_COUNT : Fld := ⟨.STRM_GS_LINES, 63, 0⟩
abbrev STRM_GS_RETRIES_COUNT : Fld := ⟨.STRM_GS_RETRIES, 63, 0⟩
abbrev SCALE_CTRL_SAT_EVT : Fld := ⟨.SCALE_CTRL, 17, 17⟩
abbrev SCALE_CTRL_FROZEN : Fld := ⟨.SCALE_CTRL, 16, 16⟩
abbrev SCALE_CTRL_MARGIN : Fld := ⟨.SCALE_CTRL, 15, 8⟩
abbrev SCALE_CTRL_ENABLE : Fld := ⟨.SCALE_CTRL, 4, 4⟩
abbrev SCALE_CTRL_FMT : Fld := ⟨.SCALE_CTRL, 3, 0⟩
abbrev SCALE_STATE_HEAD : Fld := ⟨.SCALE_STATE, 11, 8⟩
abbrev SCALE_STATE_EXP : Fld := ⟨.SCALE_STATE, 7, 0⟩
abbrev SCALE_CUR_AMAX_AMAX : Fld := ⟨.SCALE_CUR_AMAX, 31, 0⟩
abbrev SCALE_PROFILE_PRESET : Fld := ⟨.SCALE_PROFILE, 3, 0⟩
abbrev SCALE_SAT_COUNT_COUNT : Fld := ⟨.SCALE_SAT_COUNT, 63, 0⟩
abbrev SCALE_NF_COUNT_COUNT : Fld := ⟨.SCALE_NF_COUNT, 63, 0⟩
abbrev SCALE_HIST_W_HIST_ODD : Fld := ⟨.SCALE_HIST_W, 31, 16⟩
abbrev SCALE_HIST_W_HIST_EVEN : Fld := ⟨.SCALE_HIST_W, 15, 0⟩
abbrev TRACT_PROFILE_PRESET : Fld := ⟨.TRACT_PROFILE, 3, 0⟩
abbrev TRACT_CTRL_LOAD : Fld := ⟨.TRACT_CTRL, 2, 2⟩
abbrev TRACT_CTRL_FREE : Fld := ⟨.TRACT_CTRL, 1, 1⟩
abbrev TRACT_CTRL_ENABLE : Fld := ⟨.TRACT_CTRL, 0, 0⟩
abbrev TRACT_STATUS_PARK_PENDING : Fld := ⟨.TRACT_STATUS, 5, 5⟩
abbrev TRACT_STATUS_ENABLE_PENDING : Fld := ⟨.TRACT_STATUS, 4, 4⟩
abbrev TRACT_STATUS_STATE : Fld := ⟨.TRACT_STATUS, 3, 0⟩
abbrev TRACT_ORIGIN_ROW : Fld := ⟨.TRACT_ORIGIN, 22, 16⟩
abbrev TRACT_ORIGIN_COL : Fld := ⟨.TRACT_ORIGIN, 7, 0⟩
abbrev TRACT_SIZE_ROW : Fld := ⟨.TRACT_SIZE, 22, 16⟩
abbrev TRACT_SIZE_COL : Fld := ⟨.TRACT_SIZE, 7, 0⟩
abbrev TRACT_MODE_SHIFT : Fld := ⟨.TRACT_MODE, 21, 16⟩
abbrev TRACT_MODE_JOB_TRACT : Fld := ⟨.TRACT_MODE, 13, 8⟩
abbrev TRACT_MODE_TAGMODE : Fld := ⟨.TRACT_MODE, 1, 0⟩
abbrev TRACT_ENTRY_PC : Fld := ⟨.TRACT_ENTRY, 13, 0⟩
abbrev TRACT_BAR_SLACK_EXTRA : Fld := ⟨.TRACT_BAR_SLACK, 13, 0⟩
abbrev TRACT_TAG_TIMEOUT_US : Fld := ⟨.TRACT_TAG_TIMEOUT, 23, 0⟩
abbrev TRACT_BAR_TIMEOUT_MS : Fld := ⟨.TRACT_BAR_TIMEOUT, 15, 0⟩
abbrev TRACT_RERUN_CAUSE : Fld := ⟨.TRACT_RERUN, 14, 8⟩
abbrev TRACT_RERUN_COUNT : Fld := ⟨.TRACT_RERUN, 1, 0⟩
abbrev TRACT_FAULT_INFO_CORE : Fld := ⟨.TRACT_FAULT_INFO, 30, 16⟩
abbrev TRACT_FAULT_INFO_CODE : Fld := ⟨.TRACT_FAULT_INFO, 15, 8⟩
abbrev TRACT_FAULT_INFO_CAUSE : Fld := ⟨.TRACT_FAULT_INFO, 7, 0⟩
abbrev TRACT_SEG_VALUE : Fld := ⟨.TRACT_SEG, 63, 0⟩
abbrev TRACT_SEG_BASE_VALUE : Fld := ⟨.TRACT_SEG_BASE, 63, 0⟩
abbrev TRACT_RERUNS_VALUE : Fld := ⟨.TRACT_RERUNS, 63, 0⟩
abbrev TRACT_AUDIT_RD_VALUE : Fld := ⟨.TRACT_AUDIT_RD, 63, 0⟩
abbrev TRACT_AUDIT_WR_VALUE : Fld := ⟨.TRACT_AUDIT_WR, 63, 0⟩
abbrev TRACT_SWAP_BASE_BASE : Fld := ⟨.TRACT_SWAP_BASE, 45, 12⟩
abbrev TRACT_CODE_LINESM1 : Fld := ⟨.TRACT_CODE, 26, 17⟩
abbrev TRACT_CODE_LINE : Fld := ⟨.TRACT_CODE, 16, 0⟩
abbrev TRACT_TWIN_BASE_LINE : Fld := ⟨.TRACT_TWIN_BASE, 16, 0⟩
abbrev TRACT_TWIN_LEN_CONS : Fld := ⟨.TRACT_TWIN_LEN, 23, 20⟩
abbrev TRACT_TWIN_LEN_LEN : Fld := ⟨.TRACT_TWIN_LEN, 16, 0⟩
abbrev HOST_PROFILE_PRESET : Fld := ⟨.HOST_PROFILE, 3, 0⟩
abbrev HOST_CTRL_POLL_EN : Fld := ⟨.HOST_CTRL, 0, 0⟩
abbrev HOST_STATUS_SPEED : Fld := ⟨.HOST_STATUS, 19, 16⟩
abbrev HOST_STATUS_WIDTH : Fld := ⟨.HOST_STATUS, 12, 8⟩
abbrev HOST_STATUS_FLIT : Fld := ⟨.HOST_STATUS, 4, 4⟩
abbrev HOST_STATUS_JOB_VALID : Fld := ⟨.HOST_STATUS, 3, 3⟩
abbrev HOST_STATUS_JOB : Fld := ⟨.HOST_STATUS, 1, 0⟩
abbrev HOST_BAR2_SEL_WINDOW : Fld := ⟨.HOST_BAR2_SEL, 10, 0⟩
abbrev HOST_BAR4_SEL_WINDOW : Fld := ⟨.HOST_BAR4_SEL, 3, 0⟩
abbrev HOST_DMA_ERRORS_COUNT : Fld := ⟨.HOST_DMA_ERRORS, 63, 0⟩
abbrev HOST_IN_DROPPED_COUNT : Fld := ⟨.HOST_IN_DROPPED, 63, 0⟩
abbrev HOST_IN_GO_K : Fld := ⟨.HOST_IN_GO, 31, 0⟩
abbrev HOST_IN_REL_K : Fld := ⟨.HOST_IN_REL, 31, 0⟩
abbrev HOST_IN_LAST_K : Fld := ⟨.HOST_IN_LAST, 31, 0⟩
abbrev HOST_IN_MARK_K : Fld := ⟨.HOST_IN_MARK, 31, 0⟩
abbrev HOST_XLAT_BASE_ADDR : Fld := ⟨.HOST_XLAT_BASE, 63, 12⟩
abbrev HOST_XLAT_CTRL_EN : Fld := ⟨.HOST_XLAT_CTRL, 31, 31⟩
abbrev HOST_XLAT_CTRL_RO : Fld := ⟨.HOST_XLAT_CTRL, 30, 30⟩
abbrev HOST_XLAT_CTRL_LIMIT : Fld := ⟨.HOST_XLAT_CTRL, 24, 0⟩
abbrev MGMT_PROFILE_PRESET : Fld := ⟨.MGMT_PROFILE, 3, 0⟩
abbrev SEC_STATUS_REVOKED : Fld := ⟨.SEC_STATUS, 11, 8⟩
abbrev SEC_STATUS_LOCKOUT : Fld := ⟨.SEC_STATUS, 3, 3⟩
abbrev SEC_STATUS_RWN_BUSY : Fld := ⟨.SEC_STATUS, 2, 2⟩
abbrev SEC_STATUS_DEBUG : Fld := ⟨.SEC_STATUS, 1, 0⟩
abbrev SEC_SVN_FLOOR_FLOOR : Fld := ⟨.SEC_SVN_FLOOR, 31, 0⟩
abbrev SEC_ID_GEN_GEN : Fld := ⟨.SEC_ID_GEN, 2, 0⟩
abbrev SEC_RWN_LEFT_PENV : Fld := ⟨.SEC_RWN_LEFT, 27, 24⟩
abbrev SEC_RWN_LEFT_OFS : Fld := ⟨.SEC_RWN_LEFT, 19, 16⟩
abbrev SEC_RWN_LEFT_SVN : Fld := ⟨.SEC_RWN_LEFT, 14, 8⟩
abbrev SEC_RWN_LEFT_ID : Fld := ⟨.SEC_RWN_LEFT, 2, 0⟩
abbrev SEC_DBG_NONCE_NONCE : Fld := ⟨.SEC_DBG_NONCE, 63, 0⟩
abbrev MON_CTRL_CLEAR : Fld := ⟨.MON_CTRL, 31, 31⟩
abbrev MON_CTRL_FREEZE : Fld := ⟨.MON_CTRL, 30, 30⟩
abbrev MON_CTRL_SEL : Fld := ⟨.MON_CTRL, 13, 4⟩
abbrev MON_CTRL_SRC : Fld := ⟨.MON_CTRL, 3, 0⟩
abbrev MON_MIN_VALUE : Fld := ⟨.MON_MIN, 31, 0⟩
abbrev MON_MAX_VALUE : Fld := ⟨.MON_MAX, 31, 0⟩
abbrev MON_COUNT_VALUE : Fld := ⟨.MON_COUNT, 63, 0⟩
abbrev MON_SUM_VALUE : Fld := ⟨.MON_SUM, 63, 0⟩
abbrev MON_BIN_COUNT : Fld := ⟨.MON_BIN, 31, 0⟩
abbrev HLTH_PROFILE_PRESET : Fld := ⟨.HLTH_PROFILE, 3, 0⟩
abbrev HLTH_CTRL_EN : Fld := ⟨.HLTH_CTRL, 0, 0⟩
abbrev HLTH_STATUS_RECOVERY : Fld := ⟨.HLTH_STATUS, 17, 16⟩
abbrev HLTH_STATUS_ABOVE : Fld := ⟨.HLTH_STATUS, 8, 8⟩
abbrev HLTH_STATUS_RISK : Fld := ⟨.HLTH_STATUS, 7, 0⟩
abbrev HLTH_CFG_SPIKE_W : Fld := ⟨.HLTH_CFG, 31, 24⟩
abbrev HLTH_CFG_NF_W : Fld := ⟨.HLTH_CFG, 23, 16⟩
abbrev HLTH_CFG_DSHIFT : Fld := ⟨.HLTH_CFG, 10, 8⟩
abbrev HLTH_CFG_RACK_THRESHOLD : Fld := ⟨.HLTH_CFG, 7, 0⟩
abbrev HLTH_HOLDOFF_S : Fld := ⟨.HLTH_HOLDOFF, 16, 0⟩
abbrev HLTH_LOSS_VALUE : Fld := ⟨.HLTH_LOSS, 31, 0⟩
abbrev HLTH_LOSS_AVG_AVG : Fld := ⟨.HLTH_LOSS_AVG, 31, 0⟩
abbrev HLTH_LOSS_CFG_CLEAR : Fld := ⟨.HLTH_LOSS_CFG, 31, 31⟩
abbrev HLTH_LOSS_CFG_WARM : Fld := ⟨.HLTH_LOSS_CFG, 23, 16⟩
abbrev HLTH_LOSS_CFG_FACTOR : Fld := ⟨.HLTH_LOSS_CFG, 15, 8⟩
abbrev HLTH_LOSS_CFG_ALOG : Fld := ⟨.HLTH_LOSS_CFG, 3, 0⟩
abbrev HLTH_LOSS_N_N : Fld := ⟨.HLTH_LOSS_N, 15, 0⟩
abbrev HLTH_NF_ADD_VALUE : Fld := ⟨.HLTH_NF_ADD, 31, 0⟩
abbrev HLTH_CORE_CFG_STRIKES : Fld := ⟨.HLTH_CORE_CFG, 7, 0⟩
abbrev HLTH_CORE_FAIL_PHYS : Fld := ⟨.HLTH_CORE_FAIL, 31, 31⟩
abbrev HLTH_CORE_FAIL_INDEX : Fld := ⟨.HLTH_CORE_FAIL, 14, 0⟩
abbrev HLTH_NONFINITE_COUNT : Fld := ⟨.HLTH_NONFINITE, 63, 0⟩
abbrev HLTH_SPIKES_COUNT : Fld := ⟨.HLTH_SPIKES, 63, 0⟩
abbrev HLTH_HYD_REQS_COUNT : Fld := ⟨.HLTH_HYD_REQS, 63, 0⟩
abbrev HLTH_SUBSTITUTIONS_COUNT : Fld := ⟨.HLTH_SUBSTITUTIONS, 63, 0⟩
abbrev HLTH_REPLACEMENTS_COUNT : Fld := ⟨.HLTH_REPLACEMENTS, 63, 0⟩
abbrev HLTH_WEIGHT_W_W3 : Fld := ⟨.HLTH_WEIGHT_W, 31, 24⟩
abbrev HLTH_WEIGHT_W_W2 : Fld := ⟨.HLTH_WEIGHT_W, 23, 16⟩
abbrev HLTH_WEIGHT_W_W1 : Fld := ⟨.HLTH_WEIGHT_W, 15, 8⟩
abbrev HLTH_WEIGHT_W_W0 : Fld := ⟨.HLTH_WEIGHT_W, 7, 0⟩
abbrev EP_PROFILE_PRESET : Fld := ⟨.EP_PROFILE, 3, 0⟩
abbrev EP_STATUS_PC : Fld := ⟨.EP_STATUS, 29, 16⟩
abbrev EP_STATUS_STATE : Fld := ⟨.EP_STATUS, 2, 0⟩
abbrev EP_QUEUE_DEFQ : Fld := ⟨.EP_QUEUE, 29, 24⟩
abbrev EP_QUEUE_SRQ : Fld := ⟨.EP_QUEUE, 21, 16⟩
abbrev EP_QUEUE_VXQ : Fld := ⟨.EP_QUEUE, 14, 8⟩
abbrev EP_QUEUE_MXQ : Fld := ⟨.EP_QUEUE, 6, 0⟩
abbrev EP_INSTRUCTIONS_COUNT : Fld := ⟨.EP_INSTRUCTIONS, 63, 0⟩
abbrev EP_WAIT_CCLK_COUNT : Fld := ⟨.EP_WAIT_CCLK, 63, 0⟩
abbrev EP_ARRIVE_COUNT : Fld := ⟨.EP_ARRIVE, 31, 0⟩
abbrev MX_PROFILE_PRESET : Fld := ⟨.MX_PROFILE, 3, 0⟩
abbrev MX_CTRL_SAT_EVT : Fld := ⟨.MX_CTRL, 1, 1⟩
abbrev MX_CTRL_ENABLE : Fld := ⟨.MX_CTRL, 0, 0⟩
abbrev MX_STATUS_SHADOW_FULL : Fld := ⟨.MX_STATUS, 7, 7⟩
abbrev MX_STATUS_HELD_VALID : Fld := ⟨.MX_STATUS, 6, 6⟩
abbrev MX_STATUS_DRAINED : Fld := ⟨.MX_STATUS, 5, 5⟩
abbrev MX_STATUS_ENABLE_PENDING : Fld := ⟨.MX_STATUS, 4, 4⟩
abbrev MX_STATUS_STATE : Fld := ⟨.MX_STATUS, 1, 0⟩
abbrev MX_CHECK_CHECK_EN : Fld := ⟨.MX_CHECK, 6, 6⟩
abbrev MX_CHECK_TAU : Fld := ⟨.MX_CHECK, 5, 0⟩
abbrev MX_SR_KEY_VALUE : Fld := ⟨.MX_SR_KEY, 31, 0⟩
abbrev MX_SR_SEQ_VALUE : Fld := ⟨.MX_SR_SEQ, 31, 0⟩
abbrev MX_SAT_COUNT_COUNT : Fld := ⟨.MX_SAT_COUNT, 63, 0⟩
abbrev MX_CHECK_MISMATCHES_COUNT : Fld := ⟨.MX_CHECK_MISMATCHES, 63, 0⟩
abbrev MX_CHECK_SKIPS_COUNT : Fld := ⟨.MX_CHECK_SKIPS, 63, 0⟩
abbrev MX_PASSES_COUNT : Fld := ⟨.MX_PASSES, 63, 0⟩
abbrev MX_STALL_ACLK_COUNT : Fld := ⟨.MX_STALL_ACLK, 63, 0⟩
abbrev MX_MISMATCH_INFO_PASS : Fld := ⟨.MX_MISMATCH_INFO, 31, 8⟩
abbrev MX_MISMATCH_INFO_VECTOR : Fld := ⟨.MX_MISMATCH_INFO, 7, 0⟩
abbrev MX_MISMATCH_D_VALUE : Fld := ⟨.MX_MISMATCH_D, 31, 0⟩
abbrev MX_MISMATCH_A_VALUE : Fld := ⟨.MX_MISMATCH_A, 31, 0⟩
abbrev VX_PROFILE_PRESET : Fld := ⟨.VX_PROFILE, 3, 0⟩
abbrev VX_CTRL_POS_EVT : Fld := ⟨.VX_CTRL, 3, 3⟩
abbrev VX_CTRL_PERM_EVT : Fld := ⟨.VX_CTRL, 2, 2⟩
abbrev VX_CTRL_SAT_EVT : Fld := ⟨.VX_CTRL, 1, 1⟩
abbrev VX_CTRL_ENABLE : Fld := ⟨.VX_CTRL, 0, 0⟩
abbrev VX_STATUS_PERM_RANGE : Fld := ⟨.VX_STATUS, 7, 7⟩
abbrev VX_STATUS_POS_RANGE : Fld := ⟨.VX_STATUS, 6, 6⟩
abbrev VX_STATUS_DRAINED : Fld := ⟨.VX_STATUS, 5, 5⟩
abbrev VX_STATUS_ENABLE_PENDING : Fld := ⟨.VX_STATUS, 4, 4⟩
abbrev VX_STATUS_STATE : Fld := ⟨.VX_STATUS, 1, 0⟩
abbrev VX_VL_EW : Fld := ⟨.VX_VL, 16, 16⟩
abbrev VX_VL_VL : Fld := ⟨.VX_VL, 9, 0⟩
abbrev VX_RNG_KEY_VALUE : Fld := ⟨.VX_RNG_KEY, 31, 0⟩
abbrev VX_RNG_SEQ_VALUE : Fld := ⟨.VX_RNG_SEQ, 31, 0⟩
abbrev VX_POS_Q_BASE : Fld := ⟨.VX_POS_Q, 19, 0⟩
abbrev VX_POS_K_BASE : Fld := ⟨.VX_POS_K, 19, 0⟩
abbrev VX_POS_CFG_RLOG : Fld := ⟨.VX_POS_CFG, 23, 20⟩
abbrev VX_POS_CFG_WINDOW : Fld := ⟨.VX_POS_CFG, 19, 0⟩
abbrev VX_DOC_COUNT_COUNT : Fld := ⟨.VX_DOC_COUNT, 8, 0⟩
abbrev VX_SUM_KIND_KIND3 : Fld := ⟨.VX_SUM_KIND, 15, 12⟩
abbrev VX_SUM_KIND_KIND2 : Fld := ⟨.VX_SUM_KIND, 11, 8⟩
abbrev VX_SUM_KIND_KIND1 : Fld := ⟨.VX_SUM_KIND, 7, 4⟩
abbrev VX_SUM_KIND_KIND0 : Fld := ⟨.VX_SUM_KIND, 3, 0⟩
abbrev VX_SUM_VALUE : Fld := ⟨.VX_SUM, 63, 0⟩
abbrev VX_SAT_COUNT_COUNT : Fld := ⟨.VX_SAT_COUNT, 63, 0⟩
abbrev VX_EMPTY_ROWS_COUNT : Fld := ⟨.VX_EMPTY_ROWS, 63, 0⟩
abbrev VX_INF_ROWS_COUNT : Fld := ⟨.VX_INF_ROWS, 63, 0⟩
abbrev VX_NAN_ROWS_COUNT : Fld := ⟨.VX_NAN_ROWS, 63, 0⟩
abbrev VX_CHAINS_COUNT : Fld := ⟨.VX_CHAINS, 63, 0⟩
abbrev VX_STALL_ACLK_COUNT : Fld := ⟨.VX_STALL_ACLK, 63, 0⟩
abbrev SP_PROFILE_PRESET : Fld := ⟨.SP_PROFILE, 3, 0⟩
abbrev SP_CTRL_INJ_ARM : Fld := ⟨.SP_CTRL, 0, 0⟩
abbrev SP_STATUS_DETECTED : Fld := ⟨.SP_STATUS, 7, 7⟩
abbrev SP_STATUS_PLAN_ERR : Fld := ⟨.SP_STATUS, 6, 6⟩
abbrev SP_STATUS_ROW_HELD : Fld := ⟨.SP_STATUS, 5, 5⟩
abbrev SP_STATUS_PLAN : Fld := ⟨.SP_STATUS, 3, 0⟩
abbrev SP_PLAN_LO_ENTRIES : Fld := ⟨.SP_PLAN_LO, 31, 0⟩
abbrev SP_PLAN_HI_ENTRIES : Fld := ⟨.SP_PLAN_HI, 31, 0⟩
abbrev SP_PLAN_CUR_LO_ENTRIES : Fld := ⟨.SP_PLAN_CUR_LO, 31, 0⟩
abbrev SP_PLAN_CUR_HI_ENTRIES : Fld := ⟨.SP_PLAN_CUR_HI, 31, 0⟩
abbrev SP_DET_INFO_ROW : Fld := ⟨.SP_DET_INFO, 24, 24⟩
abbrev SP_DET_INFO_SRC : Fld := ⟨.SP_DET_INFO, 23, 20⟩
abbrev SP_DET_INFO_LINE : Fld := ⟨.SP_DET_INFO, 16, 0⟩
abbrev SP_DETECTS_COUNT : Fld := ⟨.SP_DETECTS, 63, 0⟩
abbrev SP_BAD_ACCESSES_COUNT : Fld := ⟨.SP_BAD_ACCESSES, 63, 0⟩
abbrev SP_BIST_ROW : Fld := ⟨.SP_BIST, 29, 16⟩
abbrev SP_BIST_FAIL : Fld := ⟨.SP_BIST, 2, 2⟩
abbrev SP_BIST_BUSY : Fld := ⟨.SP_BIST, 1, 1⟩
abbrev SP_BIST_START : Fld := ⟨.SP_BIST, 0, 0⟩
abbrev SP_TAG_PROBE_C : Fld := ⟨.SP_TAG_PROBE, 18, 18⟩
abbrev SP_TAG_PROBE_F : Fld := ⟨.SP_TAG_PROBE, 17, 17⟩
abbrev SP_TAG_PROBE_LINE : Fld := ⟨.SP_TAG_PROBE, 16, 0⟩
abbrev FB_PROFILE_PRESET : Fld := ⟨.FB_PROFILE, 3, 0⟩
abbrev FB_CTRL_HB_EN : Fld := ⟨.FB_CTRL, 0, 0⟩
abbrev FB_STATUS_EDGE_DOWN : Fld := ⟨.FB_STATUS, 21, 21⟩
abbrev FB_STATUS_LINK_DOWN : Fld := ⟨.FB_STATUS, 20, 17⟩
abbrev FB_STATUS_EDGE : Fld := ⟨.FB_STATUS, 16, 16⟩
abbrev FB_STATUS_OUTSTANDING : Fld := ⟨.FB_STATUS, 8, 0⟩
abbrev FB_MERGE_MERGE_EN : Fld := ⟨.FB_MERGE, 0, 0⟩
abbrev FB_INJECTED_COUNT : Fld := ⟨.FB_INJECTED, 63, 0⟩
abbrev FB_DELIVERED_COUNT : Fld := ⟨.FB_DELIVERED, 63, 0⟩
abbrev FB_MERGED_COUNT : Fld := ⟨.FB_MERGED, 63, 0⟩
abbrev FB_DROPPED_COUNT : Fld := ⟨.FB_DROPPED, 63, 0⟩
abbrev FB_LINK_RETRIES_COUNT : Fld := ⟨.FB_LINK_RETRIES, 63, 0⟩
abbrev FB_BOW_DROPS_COUNT : Fld := ⟨.FB_BOW_DROPS, 63, 0⟩
abbrev FB_TGT_ADDR : Fld := ⟨.FB_TGT, 63, 6⟩
abbrev STP_PROFILE_PRESET : Fld := ⟨.STP_PROFILE, 3, 0⟩
abbrev STP_CTRL_ENABLE : Fld := ⟨.STP_CTRL, 0, 0⟩
abbrev STP_STATUS_PF_ACTIVE : Fld := ⟨.STP_STATUS, 7, 7⟩
abbrev STP_STATUS_PF_DONE : Fld := ⟨.STP_STATUS, 6, 6⟩
abbrev STP_STATUS_ENABLE_PENDING : Fld := ⟨.STP_STATUS, 4, 4⟩
abbrev STP_STATUS_STATE : Fld := ⟨.STP_STATUS, 1, 0⟩
abbrev STP_PF_CFG_CBASE : Fld := ⟨.STP_PF_CFG, 13, 8⟩
abbrev STP_PF_CFG_PDM1 : Fld := ⟨.STP_PF_CFG, 2, 0⟩
abbrev STP_PF_BUF_SLOT8 : Fld := ⟨.STP_PF_BUF, 30, 17⟩
abbrev STP_PF_BUF_LINE : Fld := ⟨.STP_PF_BUF, 16, 0⟩
abbrev STP_PF_MARGIN_NS : Fld := ⟨.STP_PF_MARGIN, 31, 0⟩
abbrev STP_STAMP_SEL_CTR : Fld := ⟨.STP_STAMP_SEL, 5, 0⟩
abbrev STP_SAVE_BASE_ADDR : Fld := ⟨.STP_SAVE_BASE, 45, 6⟩
abbrev STP_SAVE_LIMIT_ADDR : Fld := ⟨.STP_SAVE_LIMIT, 45, 6⟩
abbrev STP_SAVE_TOP_ADDR : Fld := ⟨.STP_SAVE_TOP, 45, 6⟩
abbrev STP_PF_PTR_ADDR : Fld := ⟨.STP_PF_PTR, 45, 6⟩
abbrev STP_STAMP_WT : Fld := ⟨.STP_STAMP, 63, 0⟩
abbrev STP_SAVED_BYTES_COUNT : Fld := ⟨.STP_SAVED_BYTES, 63, 0⟩
abbrev STP_GRIST_UNDERRUNS_COUNT : Fld := ⟨.STP_GRIST_UNDERRUNS, 63, 0⟩
abbrev STP_ACT_UNDERRUNS_COUNT : Fld := ⟨.STP_ACT_UNDERRUNS, 63, 0⟩

end F

/-- The registers of a block, in ascending offset. -/
def Block.regs : Block → List RegId
  | .MOD =>
    [.MOD_ID, .MOD_PROFILE, .MOD_CTRL, .MOD_STATUS, .MOD_SERIAL, .MOD_MODULE_ID, .MOD_STACK_MAP, .MOD_SPARE_GEN,
      .MOD_SPARES_LEFT, .MOD_EVT_WR, .MOD_EVT_RD, .MOD_EVT_LOST, .MOD_SPARE_SKIP, .MOD_SPARE_FAIL]
  | .RST =>
    [.RST_PROFILE, .RST_CTRL, .RST_STATUS, .RST_CMD, .RST_CAUSE, .RST_WDOG, .RST_WDOG_KICK, .RST_TRIM, .RST_BOOT,
      .RST_IMAGE_SVN, .RST_IMAGE_BUILD]
  | .CLK =>
    [.CLK_STATUS, .CLK_BYPASS, .CLK_SKIM, .CLK_TB, .CLK_WT, .CLK_SKIMMED]
  | .PWR =>
    [.PWR_PROFILE, .PWR_CTRL, .PWR_STATUS, .PWR_PENV, .PWR_GOV, .PWR_INPUT, .PWR_VIN, .THERM_PARK_OFS, .THERM_CFG,
      .THERM_HOTTEST, .PWR_WAKES, .PWR_CAP_SAMPLES, .THERM_TRIPS]
  | .FLD =>
    [.FLD_PROFILE, .FLD_CTRL, .FLD_STATUS, .FLD_TEMP, .FLD_TEMP_MAX, .FLD_VCORE, .FLD_POWER, .FLD_PARKS]
  | .HBMC =>
    [.HBMC_PROFILE, .HBMC_CTRL, .HBMC_STATUS, .HBMC_ILV, .HBMC_ILV_CUR, .HBMC_SCRUB, .HBMC_MAPOUT_THR, .HBMC_TEMP,
      .HBMC_CORRECTED, .HBMC_UNCORRECTABLE, .HBMC_POISON_RETURNED, .HBMC_TIMEOUTS, .HBMC_REFUSED, .HBMC_EVICTIONS,
      .HBMC_ERR_INFO, .HBMC_ERR_ADDR, .HBMC_CH_CE, .HBMC_CH_UE]
  | .BRIM =>
    [.BRIM_PROFILE, .BRIM_CTRL, .BRIM_STATUS, .BRIM_CFG, .BRIM_PEER, .BRIM_ARB, .BRIM_ETH, .BRIM_TIME,
      .BRIM_TIME_OFS, .BRIM_CLASS_PROF, .BRIM_TAGS, .BRIM_TX_BYTES, .BRIM_RX_BYTES, .BRIM_FEC_CORR, .BRIM_FEC_UNCORR,
      .BRIM_REPLAYS, .BRIM_RETRAINS, .BRIM_DEMOTED, .BRIM_DROPS, .BRIM_STALE, .BRIM_TAG_TIMEOUTS, .BRIM_FLOW,
      .BRIM_ROUTE]
  | .RED =>
    [.RED_PROFILE, .RED_CTRL, .RED_STATUS, .RED_VFY, .RED_VFY_KEY, .RED_STEP_TRACTS, .RED_SYNC_ERR,
      .RED_STEP_PERIOD, .RED_STEP_NEXT, .RED_STEP_COUNT, .RED_STEP_LAST, .RED_SYNC_LAST, .RED_STEP_OVERRUNS,
      .RED_SYNC_EXTRA, .RED_RACC_SENT, .RED_RACC_RETURNED, .RED_BAD_CONTRIBS, .RED_VFY_COMPARED, .RED_VFY_MISMATCHES,
      .RED_RID, .RED_WIN_CTRL, .RED_WIN_STATUS, .RED_WIN_DEADLINE, .RED_WIN_K, .RED_WIN_BASE, .RED_WIN_OUT,
      .RED_WIN_CNT, .RED_WIN_VBASE, .RED_WIN_SIZE, .RED_WIN_EXPECT, .RED_WIN_NOTIFY, .RED_WIN_APPLIED, .RED_WIN_LATE,
      .RED_WIN_SHORT, .RED_WIN_EMPTY]
  | .STRM =>
    [.STRM_PROFILE, .STRM_RK_CTRL, .STRM_RK_STATUS, .STRM_RK_PERIOD, .STRM_RK_CAP, .STRM_RK_CASK_MID,
      .STRM_RK_CASK_BASE, .STRM_RK_HOST_BASE, .STRM_RK_BANK_LEN, .STRM_RK_MAP_BASE, .STRM_RK_LAST_START,
      .STRM_RK_DONE, .STRM_RK_FAILED, .STRM_RK_BYTES, .STRM_RK_RBASE, .STRM_RK_RLEN, .STRM_GS_CTRL, .STRM_GS_STATUS,
      .STRM_GS_MARGIN, .STRM_GS_DST, .STRM_GS_LTAB, .STRM_GS_NLAYERS, .STRM_GS_LINES, .STRM_GS_RETRIES]
  | .SCALE =>
    [.SCALE_CTRL, .SCALE_STATE, .SCALE_CUR_AMAX, .SCALE_PROFILE, .SCALE_SAT_COUNT, .SCALE_NF_COUNT, .SCALE_HIST_W]
  | .TRACT =>
    [.TRACT_PROFILE, .TRACT_CTRL, .TRACT_STATUS, .TRACT_ORIGIN, .TRACT_SIZE, .TRACT_MODE, .TRACT_ENTRY,
      .TRACT_BAR_SLACK, .TRACT_TAG_TIMEOUT, .TRACT_BAR_TIMEOUT, .TRACT_RERUN, .TRACT_FAULT_INFO, .TRACT_SEG,
      .TRACT_SEG_BASE, .TRACT_RERUNS, .TRACT_AUDIT_RD, .TRACT_AUDIT_WR, .TRACT_SWAP_BASE, .TRACT_CODE,
      .TRACT_TWIN_BASE, .TRACT_TWIN_LEN]
  | .HOST =>
    [.HOST_PROFILE, .HOST_CTRL, .HOST_STATUS, .HOST_BAR2_SEL, .HOST_BAR4_SEL, .HOST_DMA_ERRORS, .HOST_IN_DROPPED,
      .HOST_IN_GO, .HOST_IN_REL, .HOST_IN_LAST, .HOST_IN_MARK, .HOST_XLAT_BASE, .HOST_XLAT_CTRL]
  | .MGMT =>
    [.MGMT_PROFILE, .SEC_STATUS, .SEC_SVN_FLOOR, .SEC_ID_GEN, .SEC_RWN_LEFT, .SEC_DBG_NONCE, .MON_CTRL, .MON_MIN,
      .MON_MAX, .MON_COUNT, .MON_SUM, .MON_BIN]
  | .HLTH =>
    [.HLTH_PROFILE, .HLTH_CTRL, .HLTH_STATUS, .HLTH_CFG, .HLTH_HOLDOFF, .HLTH_LOSS, .HLTH_LOSS_AVG, .HLTH_LOSS_CFG,
      .HLTH_LOSS_N, .HLTH_NF_ADD, .HLTH_CORE_CFG, .HLTH_CORE_FAIL, .HLTH_NONFINITE, .HLTH_SPIKES, .HLTH_HYD_REQS,
      .HLTH_SUBSTITUTIONS, .HLTH_REPLACEMENTS, .HLTH_WEIGHT_W]
  | .EP =>
    [.EP_PROFILE, .EP_STATUS, .EP_QUEUE, .EP_INSTRUCTIONS, .EP_WAIT_CCLK, .EP_ARRIVE]
  | .MX =>
    [.MX_PROFILE, .MX_CTRL, .MX_STATUS, .MX_CHECK, .MX_SR_KEY, .MX_SR_SEQ, .MX_SAT_COUNT, .MX_CHECK_MISMATCHES,
      .MX_CHECK_SKIPS, .MX_PASSES, .MX_STALL_ACLK, .MX_MISMATCH_INFO, .MX_MISMATCH_D, .MX_MISMATCH_A]
  | .VX =>
    [.VX_PROFILE, .VX_CTRL, .VX_STATUS, .VX_VL, .VX_RNG_KEY, .VX_RNG_SEQ, .VX_POS_Q, .VX_POS_K, .VX_POS_CFG,
      .VX_DOC_COUNT, .VX_SUM_KIND, .VX_SUM, .VX_SAT_COUNT, .VX_EMPTY_ROWS, .VX_INF_ROWS, .VX_NAN_ROWS, .VX_CHAINS,
      .VX_STALL_ACLK]
  | .SP =>
    [.SP_PROFILE, .SP_CTRL, .SP_STATUS, .SP_PLAN_LO, .SP_PLAN_HI, .SP_PLAN_CUR_LO, .SP_PLAN_CUR_HI, .SP_DET_INFO,
      .SP_DETECTS, .SP_BAD_ACCESSES, .SP_BIST, .SP_TAG_PROBE]
  | .FB =>
    [.FB_PROFILE, .FB_CTRL, .FB_STATUS, .FB_MERGE, .FB_INJECTED, .FB_DELIVERED, .FB_MERGED, .FB_DROPPED,
      .FB_LINK_RETRIES, .FB_BOW_DROPS, .FB_TGT]
  | .STP =>
    [.STP_PROFILE, .STP_CTRL, .STP_STATUS, .STP_PF_CFG, .STP_PF_BUF, .STP_PF_MARGIN, .STP_STAMP_SEL, .STP_SAVE_BASE,
      .STP_SAVE_LIMIT, .STP_SAVE_TOP, .STP_PF_PTR, .STP_STAMP, .STP_SAVED_BYTES, .STP_GRIST_UNDERRUNS,
      .STP_ACT_UNDERRUNS]

/-- The preset weights of R409, by entry (class × 32 + low bits of the code), where they differ from the class default. -/
def presetWeights : List (Nat × Nat) :=
  [(33, 16), (34, 2), (35, 8), (36, 4), (37, 4), (65, 24), (66, 24), (67, 0), (68, 0), (69, 64), (97, 48), (98, 0),
   (99, 2), (100, 1), (129, 32), (130, 4), (131, 2), (132, 1), (133, 0), (144, 0), (145, 1), (146, 0), (147, 0),
   (161, 0), (162, 2), (163, 2), (164, 64), (165, 2), (166, 0), (167, 96), (193, 1), (194, 32), (195, 16), (196, 2),
   (197, 8), (198, 128), (199, 16), (200, 8), (201, 24), (225, 0), (226, 16), (227, 8), (228, 64), (229, 32),
   (230, 2), (231, 8), (232, 1), (233, 8), (234, 0), (235, 0), (236, 8), (237, 4), (238, 2), (239, 0), (257, 2),
   (258, 4), (259, 16), (260, 64), (261, 1), (262, 4), (263, 0), (264, 2), (265, 1), (272, 2), (273, 16), (274, 1),
   (275, 2), (276, 24), (277, 0), (278, 0), (279, 0), (280, 32)]

/-- Preset DEFAULT of one HLTH_WEIGHT entry (R409): class defaults for entry 0 of a class and for every entry of classes
0x9 to 0xB, the table's weight where the table names the entry, and 0 elsewhere. -/
def presetWeight (e : Nat) : Nat :=
  let cls := e / 32
  let dflt := if 1 ≤ cls ∧ cls ≤ 8 then 4 else if cls = 9 then 8 else 0
  if e % 32 = 0 ∨ 9 ≤ cls then dflt
  else match presetWeights.find? (fun p => p.1 == e) with
    | some p => p.2
    | none => 0

/-- The four weights that word j of HLTH_WEIGHT_W holds under preset DEFAULT. -/
def presetWeightWord (j : Nat) : Nat :=
  presetWeight (4 * j) + presetWeight (4 * j + 1) * 2 ^ 8 + presetWeight (4 * j + 2) * 2 ^ 16
    + presetWeight (4 * j + 3) * 2 ^ 24

/-- Reset value of a register: its fields' reset values put together (R409 for the weights). -/
def RegId.init (r : RegId) (j : Nat) : BitVec 64 :=
  match r with
  | .HLTH_WEIGHT_W => BitVec.ofNat 64 (presetWeightWord j)
  | _ => BitVec.ofNat 64 (r.defn.fields.foldl (fun v f => v + f.reset * 2 ^ f.lo) 0)

/-- BAR0 offset of a register: instance i of its block, array indices j and k. -/
def RegId.addr (r : RegId) (i j k : Nat) : Nat :=
  let d := r.defn
  d.blk.place.1 + i * d.blk.place.2.1 + d.off + j * d.s1 + k * d.s2

/-- Is (i, j, k) an instance and an element that the register has? -/
def RegId.has (r : RegId) (i j k : Nat) : Bool :=
  let d := r.defn
  decide (i < (if d.only0 then 1 else d.blk.place.2.2)) && decide (j < d.n1) && decide (k < d.n2)

/-- Bytes of a register. -/
def RegId.size (r : RegId) : Nat := if r.defn.wide then 8 else 4

/-- One register as an element of the map: which, which instance and which element. -/
structure RegRef where
  id : RegId
  i : Nat
  j : Nat
  k : Nat
  deriving DecidableEq, Repr

/-- BAR0 offset of the first byte of a register. -/
def RegRef.addr (r : RegRef) : Nat := r.id.addr r.i r.j r.k

/-- Does the register of block instance i whose first element is at offset `off` hold the byte at offset o of the
instance? The element it lies in, if so. -/
def RegId.hit (r : RegId) (i o : Nat) : Option RegRef :=
  let d := r.defn
  if o < d.off ∨ (d.only0 ∧ i ≠ 0) then none
  else
    let o1 := o - d.off
    let j := if d.s1 = 0 then 0 else o1 / d.s1
    let o2 := o1 - j * d.s1
    let k := if d.s2 = 0 then 0 else o2 / d.s2
    if j < d.n1 ∧ k < d.n2 ∧ o2 - k * d.s2 < r.size then some ⟨r, i, j, k⟩ else none

/-- The blocks in the order of their first offsets; the parts of the CORE block by R46. -/
def blockAt (a : Nat) : Option (Block × Nat × Nat) :=
  if a < 0x10_0000 then some (.MOD, 0, a)
  else if a < 0x10_0100 then some (.RST, 0, a - 0x10_0000)
  else if a < 0x20_0000 then some (.CLK, 0, a - 0x10_0000)
  else if a < 0x40_0000 then some (.PWR, 0, a - 0x20_0000)
  else if a < 0x59_0000 then some (.FLD, (a - 0x40_0000) / 0x1_0000, (a - 0x40_0000) % 0x1_0000)
  else if 0x100_0000 ≤ a ∧ a < 0x118_0000 then some (.HBMC, (a - 0x100_0000) / 0x1_0000, (a - 0x100_0000) % 0x1_0000)
  else if 0x200_0000 ≤ a ∧ a < 0x218_0000 then some (.BRIM, (a - 0x200_0000) / 0x4_0000, (a - 0x200_0000) % 0x4_0000)
  else if 0x300_0000 ≤ a ∧ a < 0x310_0000 then some (.RED, 0, a - 0x300_0000)
  else if 0x310_0000 ≤ a ∧ a < 0x320_0000 then some (.STRM, 0, a - 0x310_0000)
  else if 0x320_0000 ≤ a ∧ a < 0x323_0000 then some (.SCALE, (a - 0x320_0000) / 64, (a - 0x320_0000) % 64)
  else if 0x340_0000 ≤ a ∧ a < 0x350_0000 then some (.TRACT, (a - 0x340_0000) / 0x1_0000, (a - 0x340_0000) % 0x1_0000)
  else if 0x380_0000 ≤ a ∧ a < 0x3C0_0000 then some (.HOST, 0, a - 0x380_0000)
  else if 0x3C0_0000 ≤ a ∧ a < 0x3E0_0000 then some (.MGMT, 0, a - 0x3C0_0000)
  else if 0x3E0_0000 ≤ a ∧ a < 0x400_0000 then some (.HLTH, 0, a - 0x3E0_0000)
  else if 0x400_0000 ≤ a ∧ a < 0x632_8000 then
    let c := (a - 0x400_0000) / 0x800
    let o := (a - 0x400_0000) % 0x800
    if o < 0x200 then some (.EP, c, o)
    else if o < 0x300 then some (.MX, c, o)
    else if o < 0x400 then some (.VX, c, o)
    else if o < 0x500 then some (.SP, c, o)
    else if o < 0x600 then some (.FB, c, o)
    else if o < 0x700 then some (.STP, c, o)
    else none
  else none

/-- The register that holds the byte at a BAR0 offset, if one does (R46, R47). -/
def regAt (a : Nat) : Option RegRef :=
  match blockAt a with
  | none => none
  | some (b, i, o) => b.regs.findSome? (fun r => r.hit i o)

end Sys2Proof.Machine
end

