-- ==== Sys2Proof/Machine/Map.lean ====
section
/-! DEFINITION. Sparse maps as plain data: lists of (key, value) pairs with strictly rising keys, in which a key that
is not listed has the map's default value. Every memory and every per-unit table of State is one of these. -/

namespace Sys2Proof.Machine

/-- A sparse map from numbers. -/
abbrev SMap (α : Type) := List (Nat × α)

/-- Value of key k; d where k is not listed. -/
def mget {α : Type} (d : α) : SMap α → Nat → α
  | [], _ => d
  | (k', v) :: m, k => if k' = k then v else mget d m k

/-- Remove every entry of key k. -/
def merase {α : Type} : SMap α → Nat → SMap α
  | [], _ => []
  | (k', v) :: m, k => if k' = k then merase m k else (k', v) :: merase m k

/-- Put (k, v) at its place. -/
def minsert {α : Type} : SMap α → Nat → α → SMap α
  | [], k, v => [(k, v)]
  | (k', v') :: m, k, v =>
    if k < k' then (k, v) :: (k', v') :: m
    else if k = k' then (k, v) :: m
    else (k', v') :: minsert m k v

/-- Set key k to v; the default value d is not listed. -/
def mput {α : Type} [DecidableEq α] (d : α) (m : SMap α) (k : Nat) (v : α) : SMap α :=
  if v = d then merase m k else minsert m k v

/-- Canonical form: keys strictly rising, no entry holding the default value. -/
def mwf {α : Type} [DecidableEq α] (d : α) : SMap α → Bool
  | [] => true
  | [(_, v)] => !decide (v = d)
  | (k, v) :: (k', v') :: m => !decide (v = d) && decide (k < k') && mwf d ((k', v') :: m)

/-- A memory: bytes by address; an address that is not listed reads 0 (log entry 16). -/
abbrev Memory := SMap Byte

/-- A memory is in canonical form. -/
def Memory.wf (m : Memory) : Bool := mwf 0 m

/-- Change the value of key k. -/
def mupd {α : Type} [DecidableEq α] (d : α) (m : SMap α) (k : Nat) (f : α → α) : SMap α := mput d m k (f (mget d m k))

/-- Consecutive bytes from address a. -/
def mgets {α : Type} (d : α) (m : SMap α) (a : Nat) : Nat → List α
  | 0 => []
  | n + 1 => mget d m a :: mgets d m (a + 1) n

/-- Store consecutive values from address a. -/
def mputs {α : Type} [DecidableEq α] (d : α) (m : SMap α) (a : Nat) : List α → SMap α
  | [] => m
  | v :: vs => mputs d (mput d m a v) (a + 1) vs

end Sys2Proof.Machine
end

