-- ==== Sys2Proof/Machine/EngState.lean ====
section
/-! DEFINITION. State of the three engines of a core beside their registers: matrix engine (03), vector engine (04) and
stream port (09). Times are TB values. -/

namespace Sys2Proof.Machine
open Sys2Proof

/-- A tile bank (R89): the lines captured, the held format and the scale record that its LOAD recorded (R92), and how many
lines that LOAD has captured (R93). `hfmt` 15 stands for an empty bank. -/
structure MxTile where
  lines : SMap (List Byte) := []
  hfmt : Nat := 15
  hscale : Nat := 0xFFF
  cap : Nat := 0
  deriving DecidableEq, Repr

/-- A LOAD (R92): release, the swapping pass for whose first entry it still waits, the ACLK before which it does not begin,
whether it has begun, and the lines captured with the last arrival. -/
structure MxLoad where
  payload : Nat
  rel : Nat
  waits : Option Nat
  after : Nat
  begun : Bool := false
  got : List Nat := []
  last : Nat := 0
  deriving DecidableEq, Repr

/-- A PASS (R99), kept from its writing into the issue queue, when its feeders may begin (R95): payload, whether and when
it was released, whether its feeder lines have been presented, whether it has begun, the entry ACLK of its vectors (latest
first), the next ACLK in which a vector may enter, and what it captured at its first entry: tile, epilogue payload,
exponents, MX_SR_SEQ and MX_CHECK; and the amax and non-finite count of its outputs so far (R103). -/
structure MxPass where
  id : Nat
  payload : Nat
  released : Bool := false
  rel : Nat := 0
  presented : Bool := false
  begun : Bool := false
  ents : List Nat := []
  nextEntry : Nat := 0
  tile : MxTile := {}
  epi : Nat := 0
  ea : Int := 0
  eb : Int := 0
  oe : Option Int := none
  srSeq : Nat := 0
  check : Nat := 0
  amax : Nat := 0
  nf : Nat := 0
  deriving DecidableEq, Repr

/-- A vector in the array or the collector: its pass, index and entry ACLK, its 32 column sums, and its array-check result
(0 passes, 1 mismatches, 2 skipped) with D.hi and A (R106). -/
structure MxVec where
  pass : Nat
  v : Nat
  t : Nat
  outs : List Nat
  verdict : Nat
  d : Nat
  a : Nat
  deriving DecidableEq, Repr

/-- A DRAIN or VDRAIN, or a stop: release ACLK d, the id below which it covers, the ACLK that the work it covers allows once
that is known (tL + 70 of R108, the last completion of R151; 0 with nothing covered), and its ARRIVE and CTR. -/
structure Drain where
  d : Nat
  upto : Nat
  t : Option Nat
  arrive : Bool := false
  ctr : Nat := 0
  deriving DecidableEq, Repr

/-- The matrix engine of one core. `ub` holds the Underback by entry × 32 + column (R97) and `ubT` the entry ACLK of the
vector that last wrote an entry (R98); `lastT` the last vector entry; `lastSwap` the last swapping pass released and its
first entry; `epi` the epilogue slots' payloads; `nextId` and `relId`
count passes written and released; `feedFree` is when the feeders have presented their last line. -/
structure Mx where
  held : MxTile := {}
  shadow : MxTile := {}
  loads : List MxLoad := []
  epi : SMap Nat := []
  passes : List MxPass := []
  vecs : List MxVec := []
  ub : SMap Nat := []
  ubT : SMap Nat := []
  lastT : Option Nat := none
  lastSwap : Option (Nat × Option Nat) := none
  nextId : Nat := 0
  relId : Nat := 0
  feedFree : Nat := 0
  nextRow : Nat := 0
  drains : List Drain := []
  stopping : Option Drain := none
  enabling : Option Nat := none
  deriving DecidableEq, Repr

/-- A CHAIN (R149): release, effective length, the descriptor once it is there, the CHLOAD it waits for, whether its
source lines have been presented, the entry ACLK of its beats (latest first), the source elements read so far, the beats
written, the position settings and document table of its release (R152), the random sequence value, and whether its
summaries have been written. -/
structure VxChain where
  id : Nat
  payload : Nat
  rel : Nat
  n : Nat
  desc : List Byte := []
  waitLoad : Option Nat := none
  ready : Nat := 0
  presented : Bool := false
  ents : List Nat := []
  nextEntry : Nat := 0
  a : List Nat := []
  b : List Nat := []
  c : List Nat := []
  idx : List Nat := []
  wrote : Nat := 0
  posQ : Nat := 0
  posK : Nat := 0
  window : Nat := 0
  rlog : Nat := 0
  docId : Nat := 0
  seq : Nat := 0
  sumsDone : Bool := false
  deriving DecidableEq, Repr

/-- A CHLOAD under way (R152). -/
structure VxLoad where
  id : Nat
  payload : Nat
  rel : Nat
  deriving DecidableEq, Repr

/-- A DOCLD that waits for writes to its register (R152). -/
structure VxDoc where
  id : Nat
  payload : Nat
  upto : Nat
  deriving DecidableEq, Repr

/-- The vector engine of one core: register file by register × 1024 + byte, chain store, document tables by the DOCLD that
loaded them (the one in force is `docId`; 0 is the empty table), DOCLDs that wait, chains and loads in flight, the last beat entry and the ACLK at which the last PERM or softmax macro is left (R149), the completion of the
last chain. -/
structure Vx where
  v : SMap Byte := []
  desc : SMap (List Byte) := []
  docs : SMap (List Nat) := []
  docId : Nat := 0
  docWait : List VxDoc := []
  chains : List VxChain := []
  loads : List VxLoad := []
  nextId : Nat := 0
  nextLoad : Nat := 0
  lastBeat : Option Nat := none
  macroEnd : Nat := 0
  lastDone : Option Nat := none
  nextBeat : Nat := 0
  drains : List Drain := []
  stopping : Option Drain := none
  enabling : Option Nat := none
  deriving DecidableEq, Repr

/-- A SAVE under way (R308, R315): its payload, WT at its beginning, the lines read so far and whether a check failed, and once
it is placed how many record writes await their WACK. -/
structure StpSave where
  id : Nat
  payload : Nat
  wt : Nat
  got : SMap (List Byte) := []
  bad : Bool := false
  placed : Bool := false
  left : Nat := 0
  deriving DecidableEq, Repr

/-- A record that the prefetcher handles (R309, R310): its index, the address at which its trailer ends, stage (0 trailer
read, 1 data reads, 2 lines being written, 3 lines written, 4 complete), the second reading, the trailer, the data read so
far by part with the parts still to come, whether a line came poisoned, lines still to be written, whether it is released. -/
structure StpRec where
  k : Nat
  top : Nat
  stage : Nat := 0
  second : Bool := false
  trailer : List Byte := []
  got : SMap (List Byte) := []
  parts : Nat := 0
  poison : Bool := false
  linesLeft : Nat := 0
  released : Bool := false
  deriving DecidableEq, Repr

/-- The stream port of one core: the uncommitted top and record bytes of the segment (R308), SAVEs in flight, the
prefetcher's records (those from `rec0` on are of the prefetch in progress), the values written to registers that wait for the step boundary (R333), stamps by counter (R300), and
the prefetch completions of the segment by counter (R313). -/
structure Stp where
  topNext : Option Nat := none
  bytesNext : Nat := 0
  saves : List StpSave := []
  nextId : Nat := 0
  recs : List StpRec := []
  nextRec : Nat := 0
  rec0 : Nat := 0
  base : Nat := 0
  limit : Nat := 0
  pfCfg : Nat := 0
  pfBuf : Nat := 0x2_0000
  stamps : SMap Nat := []
  pfCount : SMap Nat := []
  enabling : Option Nat := none
  deriving DecidableEq, Repr

end Sys2Proof.Machine
end

