-- ==== Sys2Proof/Machine/MgState.lean ====
section
/-! DEFINITION. State of the Brim ports (10), of reset and start-up (13), of power (14), of management, security, the host's
jobs and rings (15), and of the pins (16), beside their registers. Times are WT in ns. -/

namespace Sys2Proof.Machine
open Sys2Proof

/-! ## Brim -/

/-- A packet queued for transmission at a port, and whether this module originates it (R368). -/
structure BrimTx where
  pkt : BrimPkt
  own : Bool
  deriving DecidableEq, Repr

/-- A request of another module that this one serves (R353): its header, and the name under which the port issued it. -/
structure BrimServe where
  id : Nat
  pkt : BrimPkt
  deriving DecidableEq, Repr

/-- A local request for another module (R363, R364): port at which it was first queued, the fabric packet that asked for it
(none for a RACC), the packet to send, and once it holds a tag the tag, its epoch, WT of queuing and RTB in us then. -/
structure BrimReq where
  port : Nat
  req : Option Packet
  pkt : BrimPkt
  ack : Option Packet := none
  tag : Nat := 0
  epoch : Nat := 0
  wt : Nat := 0
  rtb : Nat := 0
  deriving DecidableEq, Repr

/-- A Brim port beside its registers: the framing in force (true for Ethernet), whether a PEER message has come in this
training, the credits held for requests and responses and those owed to the peer (R344), the next LSEQ and the last accepted
(R346), whether a NAK is owed, the replay buffer with how many of its packets are still to be resent, the resends without
progress and the WT of the last progress, the packets queued and received, the bytes sent as best effort (own and transit, by
channel; R368), token buckets by flow (tokens in thirds of a byte and the WT at which they were counted; R367), the WT until
which an interface's priority is paused (interface × 8 + priority; R348), resends and frame drops by 10 ms (interval, count,
count of the interval before; R375), when STOPPING began, when the missing group was last tried, the last peer since cold
reset as id + port × 1024 (R361), the requests being served, and the packet sent last. -/
structure BrimPort where
  ether : Bool := false
  peerGot : Bool := false
  credQ : Nat := 0
  credS : Nat := 0
  oweQ : Nat := 0
  oweS : Nat := 0
  lseqTx : Nat := 0
  lseqRx : Nat := 1023
  nak : Bool := false
  replay : List BrimPkt := []
  resend : Nat := 0
  resends : Nat := 0
  progress : Nat := 0
  txq : List BrimTx := []
  rxq : List BrimPkt := []
  sent : SMap Nat := []
  tokens : SMap (Nat × Nat) := []
  pause : SMap Nat := []
  replayIv : Nat × Nat × Nat := (0, 0, 0)
  dropIv : Nat × Nat × Nat := (0, 0, 0)
  stopAt : Nat := 0
  groupAt : Nat := 0
  lastPeer : Option Nat := none
  serve : List BrimServe := []
  nextServe : Nat := 0
  tx : Option BrimPkt := none
  deriving DecidableEq, Repr

/-- Time alignment (R371, R372): the stamps t1 to t4 of the exchange in progress, whether one is open, WT of its start,
exchanges missed in a row and within 2 ns in a row, whether WT has been set once, and the last message sent (its stamps). -/
structure BrimTime where
  t1 : Option Nat := none
  t2 : Option Nat := none
  t3 : Option Nat := none
  t4 : Option Nat := none
  busy : Bool := false
  start : Nat := 0
  missed : Nat := 0
  good : Nat := 0
  stepped : Bool := false
  sent : List Nat := []
  deriving DecidableEq, Repr

/-- The Brim domain beside its registers: ports; requests that hold tags; tags cooling with the WT from which each may be taken
again (R365); free tags in the order in which they became free, and the first tag never used; epochs by tag; requests that
wait for a tag; whether BRIM_NO_ID has been raised since reset (R356); time alignment. -/
structure Brim where
  ports : SMap BrimPort := []
  reqs : List BrimReq := []
  cooling : List (Nat × Nat) := []
  freed : List Nat := []
  fresh : Nat := 0
  epochs : SMap Nat := []
  wait : List BrimReq := []
  noId : Bool := false
  time : BrimTime := {}
  deriving DecidableEq, Repr

/-! ## Reset, start-up, pins -/

/-- Reset and start-up beside their registers: whether each reset input is held (PWR_OK low, busbar under the lockout,
MOD_RST_N low, PERST_N low); WT at which the start-up in progress began and at which P3 ended; whether the host port, the
transit and Brim domains, the controllers and the core domains are released; the flash devices' bytes (device × 2^26 +
offset; R454); the proven sections in boot SRAM by type (R458), with their digests; the fields whose PLL is locked with the WT
of the lock, domains that a loss of their clock has put into reset until they are released (domain × 32 + field; R445) and releases requested (domain × 32 + field,
WT of the request, whether it is held; R446); the known-answer run: its WT of start and by physical position 1 passed or 1 +
the code of its failure; the positions found failed in this start-up with their criterion; whether a map commit is due
(R463), and until it is committed the registers of the map as the store holds it; whether start-up waits for the module to
cool (R489); WT of the last watchdog restart (R443); the last reset's fast
record is in RST_CAUSE. -/
structure Boot where
  pwrLow : Bool := false
  uvlo : Bool := false
  modRst : Bool := false
  perst : Bool := false
  start : Nat := 0
  p3End : Nat := 0
  hostUp : Bool := false
  transitUp : Bool := false
  hbmUp : Bool := false
  coresUp : Bool := false
  flash : SMap Byte := []
  sram : SMap (List Byte) := []
  digests : SMap (List Byte) := []
  pll : SMap Nat := []
  bypass : List Nat := []
  releases : List (Nat × Nat × Bool) := []
  karStart : Nat := 0
  kar : SMap Nat := []
  karFail : List (Nat × Nat) := []
  mapDue : Bool := false
  mapSaved : SMap Word64 := []
  cool : Bool := false
  wdogAt : Nat := 0
  deriving DecidableEq, Repr

/-- Output pins (R449, R537): the state that MOD_READY, ALERT_N (true: low) and STEP_OUT hold through a reset, and THERMTRIP_N
(true: low); WT until which STEP_OUT is high. -/
structure Pins where
  frozen : Option (Bool × Bool × Bool) := none
  trip : Bool := false
  stepOut : Nat := 0
  deriving DecidableEq, Repr

/-! ## Power and temperature -/

/-- Power beside its registers: samples in a row below PENV − HYST (R478), the instant at which the ramp in progress began
(R481), the move in progress (true for an exit, with WT of its beginning), WT since which no slot has been RUNNING or STOPPING
(R471), whether the module is in Simmer by AUTO_SIMMER, slots enabled by a wake (R470), the second of the last PWR_CAP_LIMIT
and SUPPLY_RANGE plus 1, samples in a row outside the supply range (R491);
and by field: readings in a row at or below the unpark threshold (R483), the reading at the park request, WT of PARKED. -/
structure Pwr where
  below : Nat := 0
  rampAt : Option Nat := none
  move : Option (Bool × Nat) := none
  idleAt : Nat := 0
  auto : Bool := false
  wakeSlots : List Nat := []
  capSec : Nat := 0
  vinSec : Nat := 0
  vinBad : Nat := 0
  heatCnt : SMap Nat := []
  parkTemp : SMap Nat := []
  parkedAt : SMap Nat := []
  deriving DecidableEq, Repr

/-! ## Management and security -/

/-- A record of the lifetime log (R525). -/
structure LogRec where
  kind : Nat
  data : Nat
  wt : Nat
  detail : Nat
  deriving DecidableEq, Repr

def LogRec.zero : LogRec := ⟨0, 0, 0, 0⟩

/-- The lifetime log (R525, R526): counts as they are now, as the window shows them and as the store holds them, each by its
offset in the window (bins of 4 bytes, the rest of 8), and the records by slot, which are stored when written. -/
structure LifeLog where
  live : SMap Nat := []
  shown : SMap Nat := []
  stored : SMap Nat := []
  recs : SMap LogRec := []
  deriving DecidableEq, Repr

/-- Management and security beside their registers (R512 to R524): I3C address, endpoint ids of the two bindings, the last
answer given over MCTP or PLDM, what SPDM has negotiated (version and algorithms), flash devices whose image an update has
proven, pending RWN values by id in 1–4, failures of tokens since cold reset, OTP digests of the key slots 0–3 and of the
debug key (4), the key slot that proved the booted image, the boundary-scan instruction in force (R520: 0 BYPASS, 1 IDCODE,
2 SAMPLE/PRELOAD, 3 EXTEST, 4 CLAMP, 5 HIGHZ, 6 private read, 7 private write) and the identification code it captured. -/
structure Mgmt where
  i3c : Nat := 0x6A
  eidI3c : Nat := 0
  eidPcie : Nat := 0
  answer : List Byte := []
  spdm : Option (Nat × Bool) := none
  proven : List Nat := []
  rwn : List (Nat × Nat) := []
  fails : Nat := 0
  otp : SMap (List Byte) := []
  slot : Nat := 0
  jtag : Nat := 0
  idcode : Nat := 0
  deriving DecidableEq, Repr

/-! ## Failures of cores -/

/-- The change of the spare map that firmware is handling (R417 to R422): the failed position, the mask of slots halted. -/
structure Change where
  pos : Nat
  slots : Nat
  deriving DecidableEq, Repr

/-! ## Host jobs and rings -/

/-- A job command that a poll has taken (R501): entry, command, and for a LOAD or UNLOAD that it has acted with its result. -/
structure JobCmd where
  j : Nat
  cmd : Nat
  acted : Bool := false
  reason : Nat := 0
  tract : Nat := 0
  why : Nat := 0
  deriving DecidableEq, Repr

/-- The job table's run time: the entries' bytes (entry × 0x4000 + offset), commands taken, the current shift with the steps it
has run (R196), the tract that each slot holds (slot to tract + 1), the placement table of the job, and its entry's bytes as LOAD
read them, with the origins that firmware has rewritten since (R500, R504), and its tracts that a change of shift has written out. -/
structure Jobs where
  bytes : SMap Byte := []
  cmds : List JobCmd := []
  shift : Nat := 0
  steps : Nat := 0
  slots : SMap Nat := []
  placed : List Byte := []
  entry : SMap Byte := []
  out : List Nat := []
  pollAt : Nat := 0
  deriving DecidableEq, Repr

/-- An intake fetch (R509, R510): ring, batch, WT of the GO, stage (0 header asked for, 1 header not FULL, 2 payload asked for,
3 writing, 4 waiting for an earlier fetch of the ring, 5 header there and not yet judged), WT of the last header read, header,
payload by part with the parts, whether a read failed, the parts that came poisoned (0 the header, i + 1 part i), STATUS, and writes
still unanswered. -/
structure Fetch where
  ring : Nat
  k : Nat
  go : Nat
  stage : Nat := 0
  readAt : Nat := 0
  hdr : List Byte := []
  got : SMap (List Byte) := []
  parts : Nat := 0
  bad : Bool := false
  poison : List Nat := []
  status : Nat := 0
  left : Nat := 0
  deriving DecidableEq, Repr

/-- An outbound request of the host port (R496, R497): number, the fabric packet it serves (or none: an intake read, with its
ring, batch and part), offset in the host window, host address and bytes, what has come back, WT of issue. -/
structure DmaReq where
  id : Nat
  pkt : Option Packet
  ring : Nat := 0
  k : Nat := 0
  part : Nat := 0
  off : Nat := 0
  addr : Nat
  n : Nat
  got : List Byte := []
  poison : Bool := false
  issued : Nat
  deriving DecidableEq, Repr

/-- A memory write that the host port has sent (R497, R511): host address, bytes, whether poisoned. -/
structure DmaWrite where
  addr : Nat
  data : List Byte
  poison : Bool := false
  deriving DecidableEq, Repr

end Sys2Proof.Machine
end

