-- ==== Sys2Proof/Machine/State.lean ====
section
/-! DEFINITION. The state of the module as plain data, and its value after a cold reset. -/

namespace Sys2Proof.Machine

/-- The model raises no fault: every command has an effect, or the spec says that it has none. -/
inductive Fault where
  /-- Raised by no command; safe. -/
  | neverRaised
  deriving DecidableEq, Repr

/-- Why a command has no meaning in the model. -/
inductive Refusal where
  /-- Raised by an arm of the dispatch whose command has no meaning yet; safe. -/
  | notModelled (mnemonic : String)
  deriving DecidableEq, Repr

/-- The clocks and timebases (R429 to R435). `cyc` counts undivided ACLK periods since SYNC, `tb` is TB, `wt` is WT in
ns with its fraction `wtFrac` in units of 1/(18 × 2^32) ns, `corr` the rate correction of R372 and R435 in 2^-32, `run`
whether the core-family generator delivers edges, and `pendLevel` the skim levels requested and not yet in force, each with the
cyc of its request (R433). -/
structure Clock where
  cyc : Nat := 0
  tb : Nat := 0
  wt : Nat := 0
  wtFrac : Nat := 0
  corr : Int := 0
  run : Bool := false
  pendLevel : List (Nat × Nat) := []
  deriving DecidableEq, Repr

/-- An entry of the event ring (01, "Event ring"; R545). -/
structure EvtEntry where
  code : Nat
  kind : Nat
  idx : Nat
  wt : Nat
  tb : Nat
  detail : Nat
  deriving DecidableEq, Repr

def EvtEntry.zero : EvtEntry := ⟨0, 0, 0, 0, 0, 0⟩

/-- A write of one line: byte mask (bit i for byte i), the line's 64 new bytes, write operation (R215), and whether the
data is poisoned (R250). -/
structure SpWr where
  mask : Nat
  data : List Byte
  wop : Nat
  poison : Bool := false
  deriving DecidableEq, Repr

/-- What a scratchpad access serves: which unit waits for it and for which part of its work. -/
inductive SpUse where
  | held (rel k : Nat)
  | feed (pass k : Nat)
  | fused (pass k : Nat)
  | out (row k : Nat)
  | vxSrc (chain port k : Nat)
  | vxW (beat k : Nat)
  | chload (id k : Nat)
  | fabTx (id k : Nat)
  | fabRx (id : Nat)
  | bow (id : Nat)
  | strTx (id k : Nat)
  | strRx (id : Nat)
  deriving DecidableEq, Repr

/-- A word-mode request that a port has presented and that waits for its slot (R208): `tb` is the ACLK in which it was
presented. -/
structure SpReq where
  line : Nat
  use : SpUse
  wr : Option SpWr
  tb : Nat
  deriving DecidableEq, Repr

/-- A line that a read has brought to its port: the ACLK at which it is there (R208), the bytes, and whether its check
failed (R221). -/
structure SpRx where
  use : SpUse
  data : List Byte
  tb : Nat
  bad : Bool
  deriving DecidableEq, Repr

/-- A Bow write under way at one core (R258 to R260): the write on the bus, its header, the lines that have passed the tap,
the lines still to be served, the lines of a row gathered so far, and whether any line was lost. -/
structure BowRx where
  id : Nat
  hdr : BowHeader
  passed : Nat := 0
  left : Nat := 0
  row : List Byte := []
  lost : Bool := false
  deriving DecidableEq, Repr

/-- A row access that waits (R222): agent code, row, the row's new bytes for a write, the packet it answers (R225) or the
Bow write it belongs to. -/
structure RowReq where
  agent : Nat
  row : Nat
  data : Option (List Byte) := none
  pkt : Option Packet := none
  bow : Nat := 0
  deriving DecidableEq, Repr

/-- A write on the Bow bus of a row (R256 to R258, R298): the end that drives it (true for the east), its header, the lines
driven so far with the TB of the NCLK in which each is driven, how many of its line passings are still to come over the
taps of its column range, and whether its last line is void. -/
structure BowBus where
  id : Nat
  east : Bool
  hdr : BowHeader
  lines : List (Nat × List Byte)
  left : Nat
  void : Bool := false
  deriving DecidableEq, Repr

/-- The scratchpad of one core: requests waiting by port, the NCLK in which each port was last served and how many lines
it took there (R208), lines that have arrived, whether a plan waits to take effect (R213), since when an access has been
blocked by a tag (key port × 32 + bank, value WT + 1; R187), the row accesses that wait (R222), whether BIST runs, and the
Bow writes under way, with those that are done while still on the row's bus. -/
structure SpCore where
  reqs : SMap (List SpReq) := []
  last : SMap (Nat × Nat) := []
  rx : List SpRx := []
  planWait : Bool := false
  blocked : SMap Nat := []
  rows : List RowReq := []
  bist : Bool := false
  bow : List BowRx := []
  bowDone : List Nat := []
  deriving DecidableEq, Repr

/-- A packet that a core's FAB_OUT is reading: its header, the first line and how many lines it takes, the byte at which
its payload begins in the first line, and the lines read so far. -/
structure FabTx where
  id : Nat
  hdr : Packet
  line : Nat
  nlines : Nat
  off : Nat
  got : SMap (List Byte) := []
  bad : Bool := false
  deriving DecidableEq, Repr

/-- A payload that a core's FAB_IN is writing: the packet and the lines still to be served (R217). -/
structure FabRx where
  id : Nat
  hdr : Packet
  left : Nat
  deriving DecidableEq, Repr

/-- A released fabric bundle (R246, R247): its opcode, whether it was deferred, the packets that have not yet completed,
its first local line, its lines, its target address, and for an FRD its counter. -/
structure FabOp where
  id : Nat
  op : Nat
  external : Bool
  left : Nat
  line : Nat
  nlines : Nat
  target : Nat
  arrive : Bool := false
  ctr : Nat := 0
  deriving DecidableEq, Repr

/-- An entry of a router's merge stage (R242): output port, the packet, the NCLK (as ACLK) m in which it entered, and
whether it is closed (R261); `inp` is the input port by which it came (R243). -/
structure MergeEntry where
  out : Nat
  pkt : Packet
  m : Nat
  inp : Nat
  closed : Bool := false
  deriving DecidableEq, Repr

/-- The fabric side of one core: its bundles, its packets being read and written, packets held back at 256 outstanding
and remote writes that await acceptance (R240), the router's merge entries, and for each link the 10 ms interval, retries in it and in the one before (R263), and the TB of the
last flit received (R253). -/
structure FbCore where
  nextId : Nat := 0
  ops : List FabOp := []
  tx : List FabTx := []
  rx : List FabRx := []
  held : List Packet := []
  wrOut : Nat := 0
  merge : List MergeEntry := []
  retry : SMap (Nat × Nat × Nat) := []
  seen : SMap Nat := []
  deriving DecidableEq, Repr

/-- Where a packet in flight is: at the input of a router, on the wire to a port of a core, at a stop of the Rim ring, or
at a rim endpoint (by its destination code, R233). -/
inductive Loc where
  | router (c : Nat)
  | port (c : Nat)
  | ring (stop : Nat)
  | rim (ep : Nat)
  deriving DecidableEq, Repr

/-- A packet in flight, the ACLK (TB) at which its header is there, and how it comes: a router's input port (0 N, 1 E, 2 S,
3 W, 4 local, 5 edge), or the ring segment it crosses (k clockwise, 16 + k anticlockwise; 32 for none). -/
structure Flight where
  pkt : Packet
  loc : Loc
  tb : Nat
  via : Nat := 4
  deriving DecidableEq, Repr

/-- A bundle in an issue queue: release ACLK and payload, and for a fabric bundle the target address formed when it was
written (R246). -/
structure Bundle where
  rel : Nat
  payload : Nat
  target : Nat := 0
  deriving DecidableEq, Repr

/-- A store in the Epru's store buffer (R210). -/
structure EpStore where
  byte : Nat
  size : Nat
  value : Nat
  tb : Nat
  deriving DecidableEq, Repr

/-- What the Epru waits for: a counter's target (R175), a barrier of a KIND (R177), a queue for the bundles still to be
written (R169), a line's tag (R186), or the answer of an RLD or RST (R162). -/
inductive EpWait where
  | none
  | ctr (n target : Nat)
  | bar (kind : Nat)
  | queue (bundles : List Nat) (add : Nat)
  | tag (line : Nat)
  | rld (rd : Nat)
  | rst
  deriving DecidableEq, Repr

/-- What a rerun restores (R182): g1 to g31, PC, arrival counters, MX_SR_SEQ and VX_RNG_SEQ at the segment's start. -/
structure EpSnap where
  g : SMap Nat := []
  pc : Nat := 0
  ctr : SMap Nat := []
  srSeq : Nat := 0
  rngSeq : Nat := 0
  deriving DecidableEq, Repr

/-- A barrier arrival on its way to the root (R177, R245): the ACLK at which it is at a router's input, KIND, the OR of the
votes, MIXED. -/
structure BarRec where
  tb : Nat
  kind : Nat
  vote : Bool
  mixed : Bool
  deriving DecidableEq, Repr

/-- The Epru core and issue queues of one core (05). `next` is the ACLK from which its next instruction may begin, `ready`
the ACLK from which each register may be read (R161); `lastTs` and `lastRel` the last TS and the last release ACLK with
its number of bundles, by queue (R166 to R168); `relAt` the ACLK in which an entry of a queue was last released (R169);
`srFree` the first ACLK free for the stream/route queue (R171); `sat` the ACLK of the increment that satisfied a waiting
WAITC (R175); `istore` the instruction store by word (R157); `ext` the external increments of the segment (R173); `rerun`
the latched causes (R181); `barIn` the core's own arrival at its router and `barOut` what the router sent on (R245); `brel`
the release it has received, its SEG_BASE and outcome, and `skew` whether it came late (R179). -/
structure Epru where
  g : SMap Nat := []
  next : Nat := 0
  ready : SMap Nat := []
  stores : List EpStore := []
  mq : List Bundle := []
  vq : List Bundle := []
  sq : List Bundle := []
  defq : List Bundle := []
  defRel : List Bundle := []
  lastTs : SMap Nat := []
  lastRel : SMap (Nat × Nat) := []
  relAt : SMap Nat := []
  srFree : Nat := 0
  wait : EpWait := .none
  sat : Option Nat := .none
  istore : SMap Nat := []
  segBase : Nat := 0
  snap : EpSnap := {}
  ext : SMap Nat := []
  rerun : Nat := 0
  barIn : Option BarRec := .none
  barOut : Option BarRec := .none
  brel : Option (Nat × Bool) := .none
  skew : Bool := false
  deriving DecidableEq, Repr

/-- A release that is to come (R176, R192): its ACLK, whether the segment reruns, whether it is the first from LOADED,
whether it is that of a barrier (and not of an enable), whether that barrier is a step boundary (R180), and the ACLK in
which the root sends it (R245). -/
structure Rel where
  tb : Nat
  rerun : Bool
  first : Bool := false
  barrier : Bool := false
  step : Bool := false
  sent : Nat := 0
  deriving DecidableEq, Repr

/-- A tract slot beside its registers (05): WT of the release of the current segment (R179), the kept outcome (true for
RERUN) of a STOPPED or SUSPENDED tract and whether its barrier was a step boundary (R180, R295), the release to come, T of the barrier the root holds complete (R178), whether a
STEP commit is withheld for the step boundary (R180), the code fill under way (R192), the violation counts at the
segment's start (R188), and the tag timeout in us and barrier timeout in ms in force since the last release (R200). -/
structure Tract where
  relWt : Nat := 0
  kept : Bool := false
  keptStep : Bool := false
  rel : Option Rel := .none
  rootT : Option Nat := .none
  stepHeld : Bool := false
  filling : Bool := false
  audRd : Nat := 0
  audWr : Nat := 0
  tagUs : Nat := 1000
  barMs : Nat := 250
  deriving DecidableEq, Repr

/-- A request that a controller has accepted (R268, R269): kind (1 READ, 2 WRITE, 3 ACCUMULATE, 4 READ_CLEAR), the Lauter
operation (R278), the packet that carries it, its acceptance in undivided ACLK periods, and its first access in the channel
with the byte at which it begins there. -/
structure HReq where
  id : Nat
  kind : Nat
  op : Nat := 0
  pkt : Packet
  acc : Nat
  first : Nat
  off : Nat
  deriving DecidableEq, Repr

/-- An access as a read finds it: its number, the bytes held, the symbols in error (position, difference), the stored poison
bit, and whether the coalescing store served it. -/
structure HAcc where
  acc : Nat
  data : List Byte
  syms : List (Nat × Nat) := []
  poison : Bool := false
  hit : Bool := false
  deriving DecidableEq, Repr

/-- A read whose accesses have left the stack or the store, and when (R274). -/
structure HDec where
  req : HReq
  at_ : Nat
  accs : List HAcc
  deriving DecidableEq, Repr

/-- An entry of a coalescing store (R280). -/
structure Coal where
  acc : Nat
  data : List Byte
  dirty : Bool
  poison : Bool
  deriving DecidableEq, Repr

/-- One controller (08): accepted requests in order, reads in the decoder, the coalescing store (least recently used first),
write-back slots (R275), the scrubber's next access and the WT of its last read, and by second of WT the corrections (now and
in the second before), uncorrectable decodes and timeouts (R287, R290). -/
structure HChan where
  nextId : Nat := 0
  queue : List HReq := []
  decs : List HDec := []
  coal : List Coal := []
  wb : List Nat := []
  scrubPos : Nat := 0
  scrubWt : Nat := 0
  ce : Nat × Nat × Nat := (0, 0, 0)
  ue : Nat × Nat := (0, 0)
  tos : Nat × Nat := (0, 0)
  deriving DecidableEq, Repr

/-- One stack beside its registers: the accesses (channel, access) dirty at the start of a flush (R281), the reason and the
failing channel of a map-out that has begun (R287), and whether a stop follows the enabling (R283). -/
structure HStack where
  flush : List (Nat × Nat) := []
  mapout : Option (Nat × Nat) := none
  stopAfter : Bool := false
  deriving DecidableEq, Repr

/-- A piece of a position for one band (R296, R298): position, piece, band, whether it is the second reading, source, header,
the rows of the band, lines read so far with the TB of each, whether the reads are out, whether a line failed, and the Bow write once driven. -/
structure GsWrite where
  pos : Nat
  piece : Nat
  fy : Nat
  east : Bool
  second : Bool := false
  src : Nat
  hdr : BowHeader
  row0 : Nat
  row1 : Nat
  got : SMap (Nat × List Byte) := []
  bad : Bool := false
  bow : Option Nat := none
  deriving DecidableEq, Repr

/-- A grist stream (09): its sequence's number, whether a sequence is in progress, the next position to be fetched and to be released, the writes of
fetched positions, and the Bow writes of abandoned positions that are still on a bus (R303). -/
structure Grist where
  seq : Nat := 0
  active : Bool := false
  fetched : Nat := 0
  released : Nat := 0
  writes : List GsWrite := []
  old : List Nat := []
  deriving DecidableEq, Repr

/-- A target of a Racking (R321, R329): selected, granules whose copies await their WACK, sealed, failed with its reason, and
whether its SEALED seal is on its way. -/
structure RackTgt where
  sel : Bool := false
  out : List Nat := []
  sealed_ : Bool := false
  failed : Nat := 0
  sealing : Bool := false
  deriving DecidableEq, Repr

/-- Racking (09): phase 0 none, 1 the slot is open, 2 closing; granules in the order in which they were marked and those that
a waiting write asks for first (R325, R326); LAST_START before the arming (R329); step and WT of the closing boundary; the two
targets, cask and host; and by limited port (0–5 Brim, 6 host) the bytes sent, as (WT, bytes) of the last 10 us (R328);
STRM_RK_CAP as it stands until a 10 us interval of WT ends, with that interval (R332). -/
structure Rack where
  phase : Nat := 0
  marked : List Nat := []
  first : List Nat := []
  lastStart : Nat := 0
  closeStep : Nat := 0
  closeWt : Nat := 0
  cask : RackTgt := {}
  host : RackTgt := {}
  sent : SMap (List (Nat × Nat)) := []
  capHold : Option (Nat × Nat) := none
  deriving DecidableEq, Repr

/-- A reduction window beside its registers (11): its step, DLN, verification slots (R397), the instant from which its close-out
counts (R390), whether the close-out runs, what STOPPING completes (1 clearing, 2 the zero-filling of a window stopped while
OPEN, 3 a close-out), whether it has met a LATE in this step, the late weight of its record (R395), and the accesses that the
close-out has read and cleared, by channel × 2^26 + access, with whether each came poisoned. -/
structure RedWin where
  step : Nat := 0
  dln : Nat := 0
  slots : Nat := 0
  closeAt : Nat := 0
  closing : Bool := false
  stop : Nat := 0
  lateSeen : Bool := false
  late : Nat := 0
  taken : SMap (List Byte × Bool) := []
  deriving DecidableEq, Repr

/-- A count update on its way (R387): window, module-local address of the count word, and the weight. -/
structure CntUpd where
  win : Nat
  addr : Nat
  n : Nat
  deriving DecidableEq, Repr

/-- The reduction logic beside its registers (11): windows, count updates on their way, RED_VFY in force (R405), what SAT_COUNT
and NF_COUNT of each record have risen by in this step (R80), the processing of a boundary in progress (its S and the actions
done, 2 or 3; R402), the capture window of STEP_SYNC (R401: the number and S of its boundary, its first instant, and the
correction of its first edge) and the corrections held for boundaries to come, by number. -/
structure Red where
  wins : SMap RedWin := []
  pend : List CntUpd := []
  vfy : Nat := 0x142C
  satRise : SMap Nat := []
  nfRise : SMap Nat := []
  proc : Option (Nat × Nat) := none
  sync : Option (Nat × Nat × Nat) := none
  delta : Option Int := none
  deltas : List (Nat × Int) := []
  deriving DecidableEq, Repr

/-- The Hydrometer and recovery beside their registers (12): the sum of event weights by 10 ms interval (R412), what
HLTH_NONFINITE rose by and whether a loss spike fell in each interval, the last interval updated plus 1; the weight and
configuration words that stay in force until the interval ends after a preset load (R427); strikes of a physical position
(second, count; R415), criteria met and not yet declared (position, criterion), the changes of the spare map in the order
of declaration (R417), and whether the hold-off withholds a HYD_REQ (R414). -/
structure Hlth where
  acc : SMap Nat := []
  nf : SMap Nat := []
  spike : SMap Nat := []
  doneIv : Nat := 0
  strikes : SMap (Nat × Nat) := []
  crit : List (Nat × Nat) := []
  changes : List Change := []
  withheld : Bool := false
  heldUntil : Option Nat := none
  heldW : SMap Nat := []
  heldCfg : Nat := 0
  heldLoss : Nat := 0
  heldStrikes : Nat := 0
  deriving DecidableEq, Repr

/-- A BAR2 or BAR4 request of the host (R494, R495, R225): its number, PCI Express tag, window, whether it is a write, its
bytes, the packets that are not yet sent, those sent and unanswered, the read data by offset, and what its answers bring. -/
structure HostReq where
  id : Nat
  tag : Nat
  bar4 : Bool
  write : Bool
  n : Nat
  wait : List Packet := []
  left : Nat := 0
  got : SMap (List Byte) := []
  refused : Bool := false
  poison : Bool := false
  detected : Bool := false
  deriving DecidableEq, Repr

/-- A completion that the host port has sent (R225, R494, R515): tag, status (0 successful, 1 unsupported request, 4 completer
abort), data, poisoned. -/
structure HostDone where
  tag : Nat
  status : Nat
  data : List Byte
  poison : Bool := false
  deriving DecidableEq, Repr

/-- The host port beside its registers (15): MSI-X enabled and unmasked as a function, vectors masked, vectors pending,
and the messages sent, oldest first (R498); BAR2 and BAR4 requests in progress and the completions sent; the binary logarithm
of the BAR2 size, D3hot, the completion timeout in ns, the MSI-X function mask and the MSI-X table by 32-bit word; the job
table's run time, the intake fetches, outbound reads and the writes sent (R496 to R511); the entries of each ring released
without an OK fetch are counted in HOST_IN_DROPPED, those fetched and not yet released stand in `held` (ring × 2^32 + k, and
whether STATUS was OK). -/
structure HostPort where
  msixOn : Bool := false
  msixMask : List Nat := List.range 64
  msixPend : List Nat := []
  msixSent : List Nat := []
  nextId : Nat := 0
  reqs : List HostReq := []
  done : List HostDone := []
  bar2Log : Nat := 36
  d3hot : Bool := false
  timeout : Nat := 10000000
  msixFn : Bool := false
  msixTab : SMap Nat := []
  jobs : Jobs := {}
  fetches : List Fetch := []
  dma : List DmaReq := []
  nextDma : Nat := 0
  wrote : List DmaWrite := []
  held : List (Nat × Bool) := []
  deriving DecidableEq, Repr

structure State where
  /-- The commands that are waiting, first in, first out. -/
  pending : List Instr := []
  clk : Clock := {}
  /-- The model's own: free values taken so far (log entry 5). -/
  freeCtr : Nat := 0
  /-- Registers that differ from their reset value, by BAR0 offset. -/
  regs : SMap Word64 := []
  /-- Low words held for a 64-bit register write (R12), by BAR0 offset of the register. -/
  wHold : SMap Nat := []
  /-- High words captured by a low-word read (R11, R12), by BAR0 offset of the register. -/
  rHold : SMap Nat := []
  /-- Event ring entries by slot (R48). -/
  ring : SMap EvtEntry := []
  /-- Limited events already raised: key code × 2^32 + source, value 1 for this segment, or 2 + the 1 ms interval (R84). -/
  evtSeen : SMap Nat := []
  /-- Scratchpad bytes, by physical position × 0x80_0000 + byte (R203). -/
  sp : Memory := []
  /-- Stored detection code of a line, as its difference (XOR) from the code computed over its bytes (R219, R220), by
  physical position × 81,920 + line. -/
  spCode : SMap Nat := []
  /-- Tags of a line (bit 0 F, bit 1 C; R218), by physical position × 81,920 + line. -/
  spTag : SMap Nat := []
  spc : SMap SpCore := []
  fbc : SMap FbCore := []
  flights : List Flight := []
  /-- Rim ring segments that are down: segment number, 16 + segment for anticlockwise (R255). -/
  rimDown : List Nat := []
  /-- Writes on the Bow bus of each row, oldest first, and the number of the next one. -/
  bow : SMap (List BowBus) := []
  nextBow : Nat := 0
  /-- The end that last held each row's bus (1 for the east) and the TB from which the bus is free (R256). -/
  bowBus : SMap (Nat × Nat) := []
  ep : SMap Epru := []
  tracts : SMap Tract := []
  mx : SMap Mx := []
  vx : SMap Vx := []
  stp : SMap Stp := []
  /-- Stack bytes, by channel × 2^32 + channel address (R266). -/
  hbm : Memory := []
  /-- Poison bits (R276) of accesses, by channel × 2^26 + access. -/
  hbmPoison : SMap Nat := []
  /-- Symbols of a stored codeword that are in error (position 0–71, difference; R272, R273), by channel × 2^26 + access. -/
  hbmErr : SMap (List (Nat × Nat)) := []
  chans : SMap HChan := []
  stk : SMap HStack := []
  gs : SMap Grist := []
  rack : Rack := {}
  red : Red := {}
  hlth : Hlth := {}
  host : HostPort := {}
  brim : Brim := {}
  boot : Boot := {}
  pins : Pins := {}
  pwr : Pwr := {}
  log : LifeLog := {}
  mgmt : Mgmt := {}
  deriving DecidableEq, Repr

/-- What a command answers. -/
abbrev Out := Host.Outcome State Fault Refusal

/-- The module just after a cold reset, before start-up: every register at its Reset value, nothing in any memory;
RST_STATUS.ACTIVE names the start-up that begins. -/
def State.reset : State := { regs := [(0x10_0008, 0x10)] }

end Sys2Proof.Machine
end

