-- ==== Sys2Proof/Machine/Ops.lean ====
section
/-! DEFINITION. The named operations over State: registers and fields, the clocks, events, the spare map, tracts,
arrival counters. -/

namespace Sys2Proof.Machine
open Sys2Proof

/-! ## Registers -/

/-- Value of a register: instance i, array elements j and k. -/
def State.rd (s : State) (r : RegId) (i : Nat := 0) (j : Nat := 0) (k : Nat := 0) : Word64 :=
  mget (r.init j) s.regs (r.addr i j k)

/-- Set a register, whatever its access codes. -/
def State.wr (s : State) (r : RegId) (v : Word64) (i : Nat := 0) (j : Nat := 0) (k : Nat := 0) : State :=
  { s with regs := mput (r.init j) s.regs (r.addr i j k) v }

/-- Value of a field. -/
def State.fget (s : State) (f : Fld) (i : Nat := 0) (j : Nat := 0) (k : Nat := 0) : Nat :=
  bits (s.rd f.reg i j k).toNat f.hi f.lo

/-- Set a field, whatever its access code. -/
def State.fset (s : State) (f : Fld) (v : Nat) (i : Nat := 0) (j : Nat := 0) (k : Nat := 0) : State :=
  s.wr f.reg (BitVec.ofNat 64 (setBits (s.rd f.reg i j k).toNat f.hi f.lo v)) i j k

/-- Is a one-bit field 1? -/
def State.flag (s : State) (f : Fld) (i : Nat := 0) (j : Nat := 0) (k : Nat := 0) : Bool := s.fget f i j k == 1

/-- Place in the lifetime log of what a counter counts over the module's life (R525). -/
def liveKey (r : RegId) (i : Nat) : Option Nat :=
  match r with
  | .HBMC_CORRECTED => some (0xD20 + 8 * i)
  | .HBMC_UNCORRECTABLE => some (0xDE0 + 8 * i)
  | .BRIM_RETRAINS => some (0xEA0 + 8 * i)
  | .TRACT_RERUNS => some 0xED0
  | .HLTH_SUBSTITUTIONS => some 0xED8
  | .HLTH_REPLACEMENTS => some 0xEE0
  | .THERM_TRIPS => some 0xEF0
  | .FLD_PARKS => some 0xEF8
  | _ => none

/-- A count of the lifetime log rises (R525). -/
def State.life (s : State) (k n : Nat) : State := { s with log := { s.log with live := mupd 0 s.log.live k (· + n) } }

/-- Add to an event counter, which saturates (R13). -/
def State.count (s : State) (r : RegId) (n : Nat := 1) (i : Nat := 0) (j : Nat := 0) (k : Nat := 0) : State :=
  let s := match liveKey r i with
    | some key => s.life key n
    | none => s
  s.wr r (BitVec.ofNat 64 (min ((s.rd r i j k).toNat + n) (2 ^ 64 - 1))) i j k

/-! ## Clocks and timebases (R429 to R435) -/

/-- Skim slots removed among the first x of a frame at level k (R432). -/
def removedBelow (k x : Nat) : Nat := (List.range x).countP (fun t => decide ((t * k) % 16 < k))

/-- ACLK edges removed in the first c undivided periods at level k. -/
def removed (k c : Nat) : Nat := (c / 16) * k + removedBelow k (c % 16)

/-- The least position of a frame by which r edges have been delivered at level k. -/
def frameAt (k r : Nat) : Nat := ((List.range 17).find? (fun x => x - removedBelow k x == r)).getD 16

/-- Undivided periods from c until d more edges have been delivered at level k. -/
def periodsFor (k c d : Nat) : Nat :=
  let e := c - removed k c + d
  16 * (e / (16 - k)) + frameAt k (e % (16 - k)) - c

/-- Parts of a nanosecond that wtFrac counts. -/
def wtUnit : Nat := 18 * 2 ^ 32

/-- Rate of WT in parts a period: 5/18 ns a period, times 1 + corr × 2^-32 (R435). -/
def Clock.rate (c : Clock) : Nat := (5 * ((2 ^ 32 : Nat) + c.corr)).toNat

/-- n undivided ACLK periods pass at skim level k. -/
def Clock.adv (c : Clock) (k n : Nat) : Clock :=
  let w := c.wtFrac + n * c.rate
  { c with
    cyc := c.cyc + n
    tb := if c.run then (c.tb + (n - (removed k (c.cyc + n) - removed k c.cyc))) % 2 ^ 64 else c.tb
    wt := c.wt + w / wtUnit
    wtFrac := w % wtUnit }

/-- Skim level in force (R433). -/
def State.level (s : State) : Nat := s.fget F.CLK_SKIM_LEVEL

/-- Time passes by n undivided ACLK periods; CLK_SKIMMED counts the edges removed (R433). -/
def State.adv (s : State) (n : Nat) : State :=
  let k := s.level
  let s' := { s with clk := s.clk.adv k n }
  let rem := if s.clk.run then removed k (s.clk.cyc + n) - removed k s.clk.cyc else 0
  if rem = 0 then s' else s'.count .CLK_SKIMMED rem

/-- Let time pass until TB is t, if t lies ahead and edges are delivered. -/
def State.atTb (s : State) (t : Nat) : State :=
  if s.clk.run && decide (s.clk.tb < t) then s.adv (periodsFor s.level s.clk.cyc (t - s.clk.tb)) else s

/-- Let time pass until WT is w, if w lies ahead. -/
def State.atWt (s : State) (w : Nat) : State :=
  if s.clk.wt < w ∧ 0 < s.clk.rate then
    s.adv (((w - s.clk.wt) * wtUnit - s.clk.wtFrac + s.clk.rate - 1) / s.clk.rate)
  else s

/-- Let time pass until undivided period c, if it lies ahead. -/
def State.atCyc (s : State) (c : Nat) : State := if s.clk.cyc < c then s.adv (c - s.clk.cyc) else s

/-- Undivided ACLK periods in an MCLK (7.2 GHz ÷ 6 against 3.6 GHz; R429). -/
def mclk : Nat := 3

/-- The smallest multiple of m that is at least x. -/
def upTo (m x : Nat) : Nat := (x + m - 1) / m * m

def State.tb (s : State) : Nat := s.clk.tb
def State.wt (s : State) : Nat := s.clk.wt

/-! ## Free values -/

/-- A fresh free value (log entry 5). -/
def State.free (s : State) : Word64 × State := (Config.freeWord s.freeCtr, { s with freeCtr := s.freeCtr + 1 })

/-! ## The spare map and the grid (R29, R30) -/

/-- Physical position of a logical core under the spare map in force (R29, R30). -/
def State.phys (s : State) (c : Nat) : Nat :=
  let row := c / 150
  let col := c % 150
  let fx := col / 30
  let j := col % 30
  let seg := row * 5 + fx
  let a := s.fget F.MOD_SPARE_SKIP_SKIP_A 0 seg
  let b := s.fget F.MOD_SPARE_SKIP_SKIP_B 0 seg
  let p := if j < a then j else if j + 1 < b then j + 1 else j + 2
  row * 160 + 32 * fx + p

/-- Logical core of a physical position, if it is not skipped (R30). -/
def State.logical (s : State) (pos : Nat) : Option Nat :=
  let row := pos / 160
  let pcol := pos % 160
  let fx := pcol / 32
  let p := pcol % 32
  let seg := row * 5 + fx
  let a := s.fget F.MOD_SPARE_SKIP_SKIP_A 0 seg
  let b := s.fget F.MOD_SPARE_SKIP_SKIP_B 0 seg
  if p = a ∨ p = b then none
  else some (row * 150 + 30 * fx + (if p < a then p else if p < b then p - 1 else p - 2))

/-- Field index fy × 5 + fx of a physical position (R29). -/
def fieldOfPos (pos : Nat) : Nat := (pos / 160 / 24) * 5 + (pos % 160) / 32

/-- Field of a logical core. -/
def fieldOf (c : Nat) : Nat := (c / 150 / 24) * 5 + (c % 150) / 30

/-- Segment of a logical core (R29, R30). -/
def segOf (c : Nat) : Nat := (c / 150) * 5 + (c % 150) / 30

/-- An unusable logical core: its position is marked failed and not skipped (R33). -/
def State.unusable (s : State) (c : Nat) : Bool :=
  bit (s.fget F.MOD_SPARE_FAIL_FAILED 0 (segOf c)) (s.phys c % 160 % 32)

/-- A field is parked, in the sense of R548, when PARKED or UNPARKING. -/
def State.parkedField (s : State) (f : Nat) : Bool := decide (2 ≤ s.fget F.FLD_STATUS_STATE f)

def State.parked (s : State) (c : Nat) : Bool := s.parkedField (fieldOf c)

/-! ## Tracts (R36, R191) -/

/-- Does the rectangle of slot t cover the core? -/
def State.inRect (s : State) (t c : Nat) : Bool :=
  let r0 := s.fget F.TRACT_ORIGIN_ROW t
  let c0 := s.fget F.TRACT_ORIGIN_COL t
  let nr := s.fget F.TRACT_SIZE_ROW t
  let nc := s.fget F.TRACT_SIZE_COL t
  decide (r0 ≤ c / 150 ∧ c / 150 < r0 + nr ∧ c0 ≤ c % 150 ∧ c % 150 < c0 + nc)

/-- States of a slot (R191). -/
def tFREE : Nat := 0
def tLOADED : Nat := 1
def tRUNNING : Nat := 2
def tSTOPPING : Nat := 3
def tSTOPPED : Nat := 4
def tSUSPENDED : Nat := 5
def tHALTED : Nat := 6
def tFAULTED : Nat := 7

def State.tstate (s : State) (t : Nat) : Nat := s.fget F.TRACT_STATUS_STATE t

/-- The slot whose rectangle holds the core: LOADED or in a later state. Rectangles are disjoint (R37). -/
def State.slotOf (s : State) (c : Nat) : Option Nat :=
  (List.range 16).find? (fun t => s.tstate t != tFREE && s.inRect t c)

/-- The cores of a slot's rectangle, row by row. -/
def State.tractCores (s : State) (t : Nat) : List Nat :=
  let r0 := s.fget F.TRACT_ORIGIN_ROW t
  let c0 := s.fget F.TRACT_ORIGIN_COL t
  (List.range (s.fget F.TRACT_SIZE_ROW t)).flatMap fun r =>
    (List.range (s.fget F.TRACT_SIZE_COL t)).map fun c => (r0 + r) * 150 + c0 + c

/-- The root core of a slot (R178). -/
def State.rootOf (s : State) (t : Nat) : Nat := s.fget F.TRACT_ORIGIN_ROW t * 150 + s.fget F.TRACT_ORIGIN_COL t

/-- SLACK of a slot (R178). -/
def State.slack (s : State) (t : Nat) : Nat :=
  512 + 16 * (s.fget F.TRACT_SIZE_ROW t + s.fget F.TRACT_SIZE_COL t) + 4 * s.fget F.TRACT_BAR_SLACK_EXTRA t

/-- Is the core in a tract that is RUNNING or STOPPING? -/
def State.running (s : State) (c : Nat) : Bool :=
  match s.slotOf c with
  | none => false
  | some t => s.tstate t == tRUNNING || s.tstate t == tSTOPPING

/-! ## Per-unit tables -/

def State.core (s : State) (c : Nat) : Epru := mget {} s.ep c
def State.setCore (s : State) (c : Nat) (e : Epru) : State := { s with ep := mput {} s.ep c e }
def State.spCore (s : State) (c : Nat) : SpCore := mget {} s.spc c
def State.setSp (s : State) (c : Nat) (x : SpCore) : State := { s with spc := mput {} s.spc c x }
def State.fb (s : State) (c : Nat) : FbCore := mget {} s.fbc c
def State.setFb (s : State) (c : Nat) (x : FbCore) : State := { s with fbc := mput {} s.fbc c x }
def State.mxc (s : State) (c : Nat) : Mx := mget {} s.mx c
def State.setMx (s : State) (c : Nat) (x : Mx) : State := { s with mx := mput {} s.mx c x }
def State.vxc (s : State) (c : Nat) : Vx := mget {} s.vx c
def State.setVx (s : State) (c : Nat) (x : Vx) : State := { s with vx := mput {} s.vx c x }
def State.stpc (s : State) (c : Nat) : Stp := mget {} s.stp c
def State.setStp (s : State) (c : Nat) (x : Stp) : State := { s with stp := mput {} s.stp c x }
def State.chan (s : State) (c : Nat) : HChan := mget {} s.chans c
def State.setChan (s : State) (c : Nat) (x : HChan) : State := { s with chans := mput {} s.chans c x }
def State.stack (s : State) (t : Nat) : HStack := mget {} s.stk t
def State.setStack (s : State) (t : Nat) (x : HStack) : State := { s with stk := mput {} s.stk t x }
def State.grist (s : State) (i : Nat) : Grist := mget {} s.gs i
def State.setGrist (s : State) (i : Nat) (x : Grist) : State := { s with gs := mput {} s.gs i x }
def State.tract (s : State) (t : Nat) : Tract := mget {} s.tracts t
def State.setTract (s : State) (t : Nat) (x : Tract) : State := { s with tracts := mput {} s.tracts t x }

/-! ## Events (R24, R48 to R50, R84, R545) -/

/-- Source kinds (01, "Event ring"). -/
def kMODULE : Nat := 0
def kFIELD : Nat := 1
def kCORE : Nat := 2
def kPHYS : Nat := 3
def kCHANNEL : Nat := 4
def kPORT : Nat := 5
def kTRACT : Nat := 6
def kSCALE : Nat := 7

/-- Signal an MSI-X vector (R498): the message is sent, or the vector's pending bit is set while the vector or the
function is masked (PCI Express). -/
def State.msix (s : State) (v : Nat) : State :=
  if s.host.msixOn && !s.host.msixFn && !(s.host.msixMask.contains v) then { s with host := { s.host with msixSent := s.host.msixSent ++ [v] } }
  else { s with host := { s.host with msixPend := (s.host.msixPend.filter (· != v)) ++ [v] } }

/-- Register j's word of HLTH_WEIGHT_W in force: the words held back by a preset load until its interval ends (R427), or
the register. -/
def State.weightWord (s : State) (j : Nat) : Nat :=
  match s.hlth.heldUntil with
  | some k => if s.clk.wt / 10000000 ≤ k then mget (presetWeightWord j) s.hlth.heldW j else (s.rd .HLTH_WEIGHT_W 0 j).toNat
  | none => (s.rd .HLTH_WEIGHT_W 0 j).toNat

/-- Weight of an event code (R409). -/
def State.weight (s : State) (code : Nat) : Nat :=
  let cls := code / 4096
  let e := cls * 32 + (if bits code 11 5 = 0 then code % 32 else 0)
  bits (s.weightWord (e / 4)) (8 * (e % 4) + 7) (8 * (e % 4))

/-- A criterion for which a physical position is to be declared failed is met (R415). -/
def State.critMet (s : State) (pos crit : Nat) : State :=
  { s with hlth := { s.hlth with crit := s.hlth.crit ++ [(pos, crit)] } }

/-- Strikes in force that declare a core failed (R415, R427). -/
def State.strikesInForce (s : State) : Nat :=
  match s.hlth.heldUntil with
  | some k => if s.clk.wt / 10000000 ≤ k then s.hlth.heldStrikes else s.fget F.HLTH_CORE_CFG_STRIKES
  | none => s.fget F.HLTH_CORE_CFG_STRIKES

/-- An event that may be a strike against a core (R415, criterion 0x3): SP_DETECT or ARRAY_CHECK_MISMATCH. -/
def State.strike (s : State) (code kind idx : Nat) : State :=
  if kind ≠ kCORE ∨ (code ≠ 0x2001 ∧ code ≠ 0x3001) then s
  else
    let pos := s.phys idx
    let sec := s.clk.wt / 1000000000
    let x := mget (0, 0) s.hlth.strikes pos
    let n := (if x.1 = sec then x.2 else 0) + 1
    let s := { s with hlth := { s.hlth with strikes := mput (0, 0) s.hlth.strikes pos (sec, n) } }
    let lim := s.strikesInForce
    if lim ≠ 0 ∧ n = lim then s.critMet pos 3 else s

/-- HLTH_NONFINITE increases (R410), in the interval of the present instant (R412). -/
def State.nonfinite (s : State) (n : Nat) : State :=
  if n = 0 then s
  else
    { s with hlth := { s.hlth with nf := mupd 0 s.hlth.nf (s.clk.wt / 10000000) (· + n) } }.count .HLTH_NONFINITE n

/-- Raise an event: it enters the ring, or counts as lost when the ring is full (R48); its TB field is that of R545; its
weight counts toward the Hydrometer interval of its stamp either way (R409, R412); vector 0 is signalled when the ring
was empty (R498). -/
def State.raise (s : State) (code kind idx detail : Nat) : State :=
  let wr := s.fget F.MOD_EVT_WR_INDEX
  let n := (wr + 8192 - s.fget F.MOD_EVT_RD_INDEX) % 8192
  let s := { s with hlth := { s.hlth with acc := mupd 0 s.hlth.acc (s.clk.wt / 10000000) (· + s.weight code) } }
  let s := s.strike code kind idx
  if n ≥ 4096 then s.count .MOD_EVT_LOST
  else
    let tb := if kind = kCORE ∨ kind = kPHYS ∨ kind = kTRACT then s.clk.tb else 0
    let s := { s with ring := mput EvtEntry.zero s.ring (wr % 4096) ⟨code, kind, idx, s.clk.wt, tb, detail % 2 ^ 64⟩ }
    let s := s.fset F.MOD_EVT_WR_INDEX ((wr + 1) % 8192)
    if n = 0 then s.msix 0 else s

/-- Key of a limited event. -/
def evtKey (code kind idx : Nat) : Nat := (code * 16 + kind) * 2 ^ 28 + idx

/-- Has the source of an event a segment (R84)? -/
def State.hasSegment (s : State) (kind idx : Nat) : Bool :=
  (kind == kCORE && (s.slotOf idx).isSome) || kind == kTRACT

/-- Raise an event that is limited per segment, or per 1 ms for a source without a segment (R84). -/
def State.raiseLim (s : State) (code kind idx detail : Nat) : State :=
  let key := evtKey code kind idx
  let mark := if s.hasSegment kind idx then 1 else 2 + s.clk.wt / 1000000
  if mget 0 s.evtSeen key = mark then s
  else { s with evtSeen := mput 0 s.evtSeen key mark }.raise code kind idx detail

/-- A source begins a segment or a rerun of one: its limits begin afresh (R84). -/
def State.newSegment (s : State) (kind idx : Nat) : State :=
  { s with evtSeen := s.evtSeen.filter fun e => !(e.1 % 2 ^ 32 == kind * 2 ^ 28 + idx && e.2 == 1) }

/-! ## Monitors (R527, R528) -/

/-- Bin of a sample (R527). -/
def monBin (v : Nat) : Nat := if v = 0 then 0 else min (Nat.log2 v + 1) 31

/-- Zero monitor m (R528). -/
def State.monClear (s : State) (m : Nat) : State :=
  let s := (s.wr .MON_MIN 0xFFFF_FFFF 0 m).wr .MON_MAX 0 0 m
  let s := (s.wr .MON_COUNT 0 0 m).wr .MON_SUM 0 0 m
  (List.range 32).foldl (fun s b => s.wr .MON_BIN 0 0 m b) s

/-- A source takes a sample: every monitor on it, whose SEL is the unit or the code for all (source 4 has no units), and that is not frozen, counts
it (R527, R528). -/
def State.monSample (s : State) (src unit all v : Nat) : State :=
  (List.range 16).foldl (fun s m =>
    let sel := s.fget F.MON_CTRL_SEL 0 m
    if s.fget F.MON_CTRL_SRC 0 m ≠ src ∨ s.flag F.MON_CTRL_FREEZE 0 m ∨ (src ≠ 4 ∧ sel ≠ unit ∧ sel ≠ all) then s
    else
      let s := s.wr .MON_MIN (BitVec.ofNat 64 (min (s.rd .MON_MIN 0 m).toNat (min v 0xFFFF_FFFF))) 0 m
      let s := s.wr .MON_MAX (BitVec.ofNat 64 (max (s.rd .MON_MAX 0 m).toNat (min v 0xFFFF_FFFF))) 0 m
      let s := (s.count .MON_COUNT 1 0 m).count .MON_SUM v 0 m
      s.wr .MON_BIN (BitVec.ofNat 64 (min ((s.rd .MON_BIN 0 m (monBin v)).toNat + 1) 0xFFFF_FFFF)) 0 m (monBin v)) s

/-! ## Reruns, arrival counters -/

/-- Latch a rerun request with a cause bit (R181). -/
def State.latchRerun (s : State) (c causeBit : Nat) : State :=
  let e := s.core c
  s.setCore c { e with rerun := e.rerun ||| 2 ^ causeBit }

/-- Has counter value c reached target v (R174)? -/
def reached (c v : Nat) : Bool := decide ((c + 2 ^ 32 - v % 2 ^ 32) % 2 ^ 32 < 2 ^ 31)

/-- A WAITC that waits on counter n of core c and now has its target is satisfied in this ACLK (R175). -/
def State.ctrSatisfies (s : State) (c n : Nat) : State :=
  let e := s.core c
  match e.wait with
  | .ctr m v =>
    if m = n ∧ e.sat = .none ∧ reached (s.fget F.EP_ARRIVE_COUNT c n) v then s.setCore c { e with sat := some s.clk.tb } else s
  | _ => s

/-- Arrival counter n of core c increases (R172); an external increment is kept for a rerun as well (R173). -/
def State.arrive (s : State) (c n : Nat) (by_ : Nat := 1) (external : Bool := false) : State :=
  let s := (s.fset F.EP_ARRIVE_COUNT ((s.fget F.EP_ARRIVE_COUNT c n + by_) % 2 ^ 32) c n).ctrSatisfies c n
  if external then
    let e := s.core c
    s.setCore c { e with ext := mupd 0 e.ext n (fun x => (x + by_) % 2 ^ 32) }
  else s

/-- Set arrival counter n of core c (R172). -/
def State.setArrive (s : State) (c n v : Nat) : State := (s.fset F.EP_ARRIVE_COUNT (v % 2 ^ 32) c n).ctrSatisfies c n

/-- Are two cores in one tract (R173)? -/
def State.sameTract (s : State) (a b : Nat) : Bool :=
  match s.slotOf a with
  | none => false
  | some t => s.inRect t b

/-! ## Packets in flight -/

/-- Put a packet in flight. -/
def State.send (s : State) (p : Packet) (l : Loc) (tb : Nat) (via : Nat := 4) : State :=
  { s with flights := s.flights ++ [⟨p, l, tb, via⟩] }

/-- Take the packet at a place out of flight, if it is there: time passes until its header is there. A packet that the
command names and that is not in flight is taken as there at the present instant (log entry 12). With it comes how it
came. -/
def State.takeF (s : State) (p : Packet) (l : Loc) : State × Nat :=
  match s.flights.find? (fun f => f.pkt == p && f.loc == l) with
  | none => (s, 4)
  | some f => ({ s with flights := s.flights.erase f }.atTb f.tb, f.via)

def State.take (s : State) (p : Packet) (l : Loc) : State := (s.takeF p l).1

end Sys2Proof.Machine
end

