-- ==== Sys2Proof/Machine/SpOps.lean ====
section
/-! DEFINITION. The scratchpad's operations (06): detection codes, tags, slot wheels, word-mode reads and writes with
accumulate-on-write, row mode. -/

namespace Sys2Proof.Machine
open Sys2Proof

/-! ## Detection code (R219) -/

/-- One bit of the CRC register with generator 0x1021. -/
def crcBit (r : Nat) (b : Bool) : Nat :=
  let top := xor (bit r 15) b
  let r' := (2 * r) % 65536
  if top then Nat.xor r' 0x1021 else r'

/-- One byte, most significant bit first. -/
def crcByte (r : Nat) (x : Byte) : Nat :=
  [7, 6, 5, 4, 3, 2, 1, 0].foldl (fun r i => crcBit r (bit x.toNat i)) r

/-- The 16-bit detection code of bytes in ascending address order. -/
def crc16 (l : List Byte) : Nat := l.foldl crcByte 0xFFFF

/-! ## Lines -/

/-- Slot of one core in the byte map. -/
def slotBytes : Nat := 0x80_0000
def spLines : Nat := 81920

def State.spByte (s : State) (c b : Nat) : Nat := s.phys c * slotBytes + b
def State.lineKey (s : State) (c line : Nat) : Nat := s.phys c * spLines + line

/-- The 64 bytes of a line (R203). -/
def State.spLine (s : State) (c line : Nat) : List Byte := mgets 0 s.sp (s.spByte c (64 * line)) 64

/-- Bytes of a core's scratchpad. -/
def State.spBytes (s : State) (c b n : Nat) : List Byte := mgets 0 s.sp (s.spByte c b) n

/-- The code stored with a line. -/
def State.storedCode (s : State) (c line : Nat) : Nat :=
  Nat.xor (crc16 (s.spLine c line)) (mget 0 s.spCode (s.lineKey c line))

/-- Does the line fail its check? -/
def State.lineBad (s : State) (c line : Nat) : Bool := mget 0 s.spCode (s.lineKey c line) != 0

/-- Rerun count of the segment of a core (R183). -/
def State.rerunCount (s : State) (c : Nat) : Nat :=
  match s.slotOf c with
  | some t => s.fget F.TRACT_RERUN_COUNT t
  | none => 0

/-- A failed check in word mode (R221, R227). -/
def State.spDetect (s : State) (c line port : Nat) : State :=
  let s := s.fset F.SP_STATUS_DETECTED 1 c
  let s := s.count .SP_DETECTS 1 c
  let s := s.wr .SP_DET_INFO (BitVec.ofNat 64 (line + port * 2 ^ 20)) c
  s.raiseLim 0x2001 kCORE c (line + port * 2 ^ 20 + s.rerunCount c * 2 ^ 24)

/-- Raise SP_BAD_ACCESS with its reason (R227); SP_BAD_ACCESSES counts it. -/
def State.spBadAccess (s : State) (c reason : Nat) : State :=
  (s.count .SP_BAD_ACCESSES 1 c).raiseLim 0x2004 kCORE c reason

/-- The ports (R205). -/
def pMX_FEED : Nat := 1
def pMX_HELD : Nat := 2
def pVX_A : Nat := 3
def pVX_B : Nat := 4
def pEPRU : Nat := 5
def pSTR_OUT : Nat := 6
def pFAB_OUT : Nat := 7
def pMX_COLL : Nat := 8
def pVX_W : Nat := 9
def pFAB_IN : Nat := 10
def pBOW_IN : Nat := 11
def pSTR_IN : Nat := 12

/-- Lines a port can take or give in one NCLK (R205). -/
def portWidth (p : Nat) : Nat :=
  match p with
  | 1 => 2 | 2 => 1 | 3 => 8 | 4 => 8 | 5 => 1 | 6 => 4 | 7 => 4 | 8 => 8 | 9 => 8 | 10 => 4 | 11 => 1 | 12 => 4
  | _ => 0

/-- Does a failed check at this port make the core latch a rerun, cause bit [0] (R221)? FAB_OUT and STR_OUT depend on
whose operation they serve. -/
def portLatches (p : Nat) : Bool := p == 1 || p == 2 || p == 8 || p == 3 || p == 4 || p == 9 || p == 5

/-- Read a line at a port: the bytes, whether the check failed, and what the check does (R221). -/
def State.spRead (s : State) (c line port : Nat) : State × List Byte × Bool :=
  let data := s.spLine c line
  if s.lineBad c line then
    let s := s.spDetect c line port
    (if portLatches port then s.latchRerun c 0 else s, data, true)
  else (s, data, false)

/-! ## Accumulate-on-write (R215, R216) -/

/-- Bytes of an element of a write operation. -/
def wopSize (wop : Nat) : Nat :=
  match wop with
  | 1 => 8 | 2 => 4 | 3 => 2 | 4 => 4 | 5 => 4 | 6 => 2
  | _ => 1

/-- Result of one element, and whether ACC_OVERFLOW is raised (R215, R216). -/
def wopApply (wop old new : Nat) : Nat × Bool :=
  match wop with
  | 1 => pairAdd old new
  | 2 => (fadd old new, false)
  | 3 => (bf16.add old new, false)
  | 4 => ((old + new) % 2 ^ 32, false)
  | 5 => (fp32.max old new, false)
  | 6 => (bf16.max old new, false)
  | _ => (new, false)

/-- Are bytes [i, i + n) all in the mask? Are any? -/
def maskAll (mask i n : Nat) : Bool := bits mask (i + n - 1) i == 2 ^ n - 1
def maskAny (mask i n : Nat) : Bool := bits mask (i + n - 1) i != 0

/-- The elements of a line after a write: the new bytes, whether an element was covered only in part, and the byte offsets
of the elements whose PAIR64 addition overflowed. -/
def lineAfter (wop mask : Nat) (old new : List Byte) : List Byte × Bool × List Nat :=
  let n := wopSize wop
  let step := fun (acc : List Byte × Bool × List Nat) (e : Nat) =>
    let i := e * n
    let o := (old.drop i).take n
    if maskAll mask i n then
      let (v, ov) := wopApply wop (leNat o) (leNat ((new.drop i).take n))
      (acc.1 ++ leBytes n v, acc.2.1, if ov then acc.2.2 ++ [i] else acc.2.2)
    else (acc.1 ++ o, acc.2.1 || maskAny mask i n, acc.2.2)
  (List.range (64 / n)).foldl step ([], false, [])

def fullMask : Nat := 2 ^ 64 - 1

/-- Write a line at a port: the bytes after the write, its detection code (R220, R250, INJ_ARM), and the events (R216,
R221). -/
def State.spWrite (s : State) (c line port : Nat) (w : SpWr) : State :=
  let whole := w.wop == 0 && w.mask == fullMask
  let wasBad := s.lineBad c line
  let s := if !whole && wasBad then s.spDetect c line port else s
  let s := if !whole && wasBad && portLatches port then s.latchRerun c 0 else s
  let (bytes, part, ovs) := lineAfter w.wop w.mask (s.spLine c line) w.data
  let inj := s.flag F.SP_CTRL_INJ_ARM c
  let bad := (!whole && wasBad) || w.poison || inj
  let s := { s with
    sp := mputs 0 s.sp (s.spByte c (64 * line)) bytes
    spCode := mput 0 s.spCode (s.lineKey c line) (if bad then 1 else 0) }
  let s := if inj then s.fset F.SP_CTRL_INJ_ARM 0 c else s
  let s := if part && w.wop != 0 then s.spBadAccess c 1 else s
  ovs.foldl (fun s i => s.raiseLim 0x1001 kCORE c (0x1000_0000_0000 + c * slotBytes + 64 * line + i)) s

/-! ## Tags (R184 to R188, R218) -/

/-- The consumer of the tag window that holds the line, if one does (R185). -/
def State.tagWindow (s : State) (t line : Nat) : Option Nat :=
  match (List.range 8).find? (fun w =>
    decide (0 < s.fget F.TRACT_TWIN_LEN_LEN t w ∧ s.fget F.TRACT_TWIN_BASE_LINE t w ≤ line
      ∧ line < s.fget F.TRACT_TWIN_BASE_LINE t w + s.fget F.TRACT_TWIN_LEN_LEN t w)) with
  | none => none
  | some w => some (s.fget F.TRACT_TWIN_LEN_CONS t w)

def State.tagF (s : State) (c line : Nat) : Bool := bit (mget 0 s.spTag (s.lineKey c line)) 0
def State.tagC (s : State) (c line : Nat) : Bool := bit (mget 0 s.spTag (s.lineKey c line)) 1
def State.setTagF (s : State) (c line : Nat) (f : Bool) : State :=
  { s with spTag := mupd 0 s.spTag (s.lineKey c line) (fun x => setBits x 0 0 (b2n f)) }
def State.setTagC (s : State) (c line : Nat) (f : Bool) : State :=
  { s with spTag := mupd 0 s.spTag (s.lineKey c line) (fun x => setBits x 1 1 (b2n f)) }

/-- The tag of a line as an access of a port meets it: nothing if the access blocks (R186), else the state with the tag
after the access and the violations of an AUDIT tract counted (R188). `wr` is the write operation of a write. BOW_IN
accesses take no part (R259). -/
def State.tagAccess (s : State) (c line port : Nat) (wr : Option Nat) : Option State :=
  match s.slotOf c with
  | none => some s
  | some t =>
    let mode := s.fget F.TRACT_MODE_TAGMODE t
    match s.tagWindow t line with
    | none => some s
    | some cons =>
      if mode = 0 ∨ mode = 3 ∨ port = pBOW_IN then some s
      else
        let full := s.tagF c line
        match wr with
        | none =>
          if !full then (if mode = 1 then none else some (s.count .TRACT_AUDIT_RD 1 t))
          else some (if port = cons then s.setTagF c line false else s)
        | some wop =>
          if full && wop == 0 then (if mode = 1 then none else some (s.count .TRACT_AUDIT_WR 1 t))
          else some (s.setTagF c line true)

/-! ## Slot wheels (R207, R208) -/

/-- Port at entry e of the plan in force. -/
def State.planEntry (s : State) (c e : Nat) : Nat :=
  if e < 8 then bits (s.fget F.SP_PLAN_CUR_LO_ENTRIES c) (4 * e + 3) (4 * e)
  else bits (s.fget F.SP_PLAN_CUR_HI_ENTRIES c) (4 * (e - 8) + 3) (4 * (e - 8))

/-- TB of the wheel's reference NCLK: SEG_BASE in a tract, else a multiple of 32 (R207). -/
def State.wheelRef (s : State) (c : Nat) : Nat :=
  match s.slotOf c with
  | some _ => (s.core c).segBase
  | none => s.clk.tb / 32 * 32

/-- Port that bank b serves in the NCLK that begins at TB t (R207). -/
def State.served (s : State) (c b t : Nat) : Nat :=
  let ref := s.wheelRef c
  let n := if ref ≤ t then (t - ref) / 2 % 16 else (16 - (ref - t) / 2 % 16) % 16
  s.planEntry c ((n + 16 - b % 16) % 16)

/-- Has the port capacity left in the NCLK that begins at TB t (R205, R208)? -/
def SpCore.room (x : SpCore) (port t : Nat) : Bool :=
  let l := mget (0, 0) x.last port
  !(l.1 == t) || decide (l.2 < portWidth port)

/-- TB at which the NCLK begins in which a request that may be served from TB `from_` on is served (R208), if the plan
gives the port an entry (R214). -/
def State.slotFor (s : State) (c port b from_ : Nat) : Option Nat :=
  (List.range 48).findSome? fun n =>
    let t := upTo 2 from_ + 2 * n
    if s.served c b t == port && (s.spCore c).room port t then some t else none

/-- A port presents a request (R208). -/
def State.present (s : State) (c port line : Nat) (use : SpUse) (wr : Option SpWr) (tb : Nat) : State :=
  let x := s.spCore c
  s.setSp c { x with reqs := mupd [] x.reqs port (· ++ [⟨line, use, wr, tb⟩]) }

/-- Bank groups that row-mode agents hold (R222, R223): those of waiting row accesses, and all of them during BIST. -/
def SpCore.rowHeld (x : SpCore) (g : Nat) : Bool := x.bist || x.rows.any (fun r => r.row % 4 == g)

/-- What serving one access gives: the state, the request served, the data of a read and whether its check failed, and the
TB at which its NCLK began. -/
structure SpServed where
  s : State
  req : SpReq
  data : List Byte
  bad : Bool
  tb : Nat

/-- Serve the first request of a port at a bank in its slot (R206, R208): nothing if none waits, the bank group is held
(R209), or the plan has no entry for the port (R214). -/
def State.serve (s : State) (c port b : Nat) : Option SpServed :=
  let x := s.spCore c
  match (mget [] x.reqs port).find? (fun r => r.line % 32 == b) with
  | none => none
  | some r =>
    if x.rowHeld (b / 8) then none
    else
      match s.slotFor c port b (max r.tb s.clk.tb) with
      | none => none
      | some t =>
        let s := s.atTb t
        match s.tagAccess c r.line port (r.wr.map (·.wop)) with
        | none => none
        | some s =>
          let x := s.spCore c
          let l := mget (0, 0) x.last port
          let x := { x with
            reqs := mupd [] x.reqs port (fun q => q.erase r)
            last := mput (0, 0) x.last port (if l.1 = t then (t, l.2 + 1) else (t, 1))
            blocked := merase x.blocked (port * 32 + b) }
          let s := s.setSp c x
          match r.wr with
          | some w => some ⟨s.spWrite c r.line port w, r, [], false, t⟩
          | none =>
            let (s, data, bad) := s.spRead c r.line port
            some ⟨s, r, data, bad, t⟩

/-- Is the first request of a port at a bank blocked by its tag in its slot (R186)? -/
def State.tagBlocked (s : State) (c port b : Nat) : Bool :=
  match (mget [] (s.spCore c).reqs port).find? (fun r => r.line % 32 == b) with
  | none => false
  | some r => (s.tagAccess c r.line port (r.wr.map (·.wop))).isNone

/-! ## Slot plans (R213) -/

/-- Entries of a plan given as LO and HI. -/
def planList (lo hi : Nat) : List Nat :=
  (List.range 8).map (fun e => bits lo (4 * e + 3) (4 * e)) ++ (List.range 8).map (fun e => bits hi (4 * e + 3) (4 * e))

/-- Is a plan valid (R213)? -/
def planValid (lo hi : Nat) : Bool :=
  let l := planList lo hi
  l.all (fun p => decide (p ≤ 12)) && l.contains pEPRU && l.contains pFAB_IN && l.contains pBOW_IN

/-- The preset plans (R212). -/
def planPreset (n : Nat) : Option (Nat × Nat) :=
  match n with
  | 0 => some (0xB29A_8315, 0x6C97_8345)
  | 1 => some (0xB28A_3815, 0x6C89_7845)
  | 2 => some (0xB2A1_9435, 0x6C78_9435)
  | 3 => some (0xB231_7CA5, 0x6948_7CA5)
  | _ => none

/-- A waiting plan takes effect, or is kept out with PLAN_ERR (R213). -/
def State.planTake (s : State) (c : Nat) : State :=
  let x := s.spCore c
  if !x.planWait then s
  else
    let s := s.setSp c { x with planWait := false }
    let lo := s.fget F.SP_PLAN_LO_ENTRIES c
    let hi := s.fget F.SP_PLAN_HI_ENTRIES c
    if planValid lo hi then
      let s := (s.fset F.SP_PLAN_CUR_LO_ENTRIES lo c).fset F.SP_PLAN_CUR_HI_ENTRIES hi c
      s.fset F.SP_STATUS_PLAN (s.fget F.SP_PROFILE_PRESET c) c
    else
      (s.fset F.SP_STATUS_PLAN_ERR 1 c).raise 0x2003 kCORE c (lo + hi * 2 ^ 32)

/-- Largest cyclic distance between consecutive EPRU entries of the plan in force (R210). -/
def State.epruGap (s : State) (c : Nat) : Nat :=
  let es := (List.range 16).filter (fun e => s.planEntry c e == pEPRU)
  let gap := fun e => ((List.range 16).find? (fun d => es.contains ((e + d + 1) % 16))).getD 15 + 1
  es.foldl (fun g e => max g (gap e)) 0

/-- CCLK of an Epru load (R210). -/
def State.loadTime (s : State) (c : Nat) : Nat := max 4 ((s.epruGap c + 1) / 2)

/-! ## Row mode (R204, R222 to R224) -/

/-- May a row-mode agent other than SWAP act on the core (R223)? -/
def State.rowAvail (s : State) (c : Nat) : Bool := !s.running c && !s.parked c

/-- The 512 bytes of a row. -/
def State.spRow (s : State) (c row : Nat) : List Byte := s.spBytes c (512 * row) 512

/-- Does a line of the row fail its check? -/
def State.rowBad (s : State) (c row : Nat) : Option Nat :=
  ((List.range 8).map (fun i => 8 * row + i)).find? (fun l => s.lineBad c l)

/-- Write a row with fresh codes; tags stay (R218, R224). -/
def State.rowWrite (s : State) (c row : Nat) (data : List Byte) : State :=
  { s with
    sp := mputs 0 s.sp (s.spByte c (512 * row)) data
    spCode := (List.range 8).foldl (fun m i => merase m (s.lineKey c (8 * row + i))) s.spCode }

/-- A failed check of a row-mode read: recorded, and SP_DETECT_ROW raised (R221, R224, R227). -/
def State.rowDetect (s : State) (c row line agent : Nat) : State :=
  let s := s.fset F.SP_STATUS_DETECTED 1 c
  let s := s.count .SP_DETECTS 1 c
  let s := s.wr .SP_DET_INFO (BitVec.ofNat 64 (line + agent * 2 ^ 20 + 2 ^ 24)) c
  s.raise 0x2002 kCORE c (row + agent * 2 ^ 16)

end Sys2Proof.Machine
end

