-- ==== Sys2Proof/Machine/TractOps.lean ====
section
/-! DEFINITION. Operations over tracts and engines that every engine shares: bundle release, clearing the engines, tract
faults and halts (03, 04, 05). -/

namespace Sys2Proof.Machine
open Sys2Proof

/-! ## Issue queues (R165 to R169) -/

/-- The queues: 0 matrix, 1 vector, 2 stream/route; 3 is the deferred buffer's released bundles (R171). -/
def Epru.queue (e : Epru) (q : Nat) : List Bundle :=
  match q with
  | 0 => e.mq | 1 => e.vq | 2 => e.sq
  | _ => e.defRel

def Epru.setQueue (e : Epru) (q : Nat) (l : List Bundle) : Epru :=
  match q with
  | 0 => { e with mq := l }
  | 1 => { e with vq := l }
  | 2 => { e with sq := l }
  | _ => { e with defRel := l }

/-- A bundle is released from queue q (R167): time passes until its release ACLK, and the queue has an entry free from
then on (R169). A bundle that the command names and that the queue does not hold is taken as released at the present
instant (log entry 12). The release ACLK and, for a fabric bundle, its target address are returned with the state. -/
def State.popBundle (s : State) (c q payload : Nat) : State × Nat × Nat :=
  match ((s.core c).queue q).find? (fun b => b.payload == payload) with
  | none => (s, s.clk.tb, 0)
  | some b =>
    let s := s.atTb b.rel
    let e := s.core c
    let e := e.setQueue q ((e.queue q).erase b)
    (s.setCore c { e with relAt := mput 0 e.relAt q b.rel }, b.rel, b.target)

/-! ## Clearing (R109, R154, R171, R194, R313) -/

/-- The matrix engine's clear (R109): passes abandoned, tiles empty, Underback zero, epilogue slots invalid. An engine
that is stopping or enabling goes on doing so. -/
def State.mxClear (s : State) (c : Nat) : State :=
  let x := s.mxc c
  let st := x.stopping.map (fun d => { d with t := some 0, upto := 0 })
  let s := s.setMx c { stopping := st, enabling := x.enabling }
  (s.fset F.MX_STATUS_SHADOW_FULL 0 c).fset F.MX_STATUS_HELD_VALID 0 c

/-- The vector engine's clear (R154, steps 1 to 5). -/
def State.vxClear (s : State) (c : Nat) : State :=
  let x := s.vxc c
  let st := x.stopping.map (fun d => { d with t := some 0, upto := 0 })
  let s := s.setVx c { stopping := st, enabling := x.enabling }
  let s := s.wr .VX_SUM_KIND 0 c
  let s := (List.range 4).foldl (fun s n => s.wr .VX_SUM 0 c n) s
  ((s.wr .VX_POS_Q 0 c).wr .VX_POS_K 0 c).wr .VX_DOC_COUNT 0 c

/-- The engine ports' requests and lines of a core are dropped with the engines' work. -/
def State.spEngineClear (s : State) (c : Nat) : State :=
  let x := s.spCore c
  let keep := fun u : SpUse =>
    match u with
    | .held _ _ => false | .feed _ _ => false | .fused _ _ => false | .out _ _ => false | .vxSrc _ _ _ => false
    | .vxW _ _ => false | .chload _ _ => false
    | _ => true
  s.setSp c { x with
    reqs := (x.reqs.map fun p => (p.1, p.2.filter (fun r => keep r.use))).filter (fun p => !p.2.isEmpty)
    rx := x.rx.filter (fun r => keep r.use)
    blocked := [] }

/-- The stream port at a fault or halt (R313): the prefetcher stops and the uncommitted top movements are discarded. -/
def State.stpFault (s : State) (c : Nat) : State :=
  let x := s.stpc c
  (s.setStp c { x with topNext := none, bytesNext := 0, saves := [], recs := [] }).fset F.STP_STATUS_PF_ACTIVE 0 c

/-- What a fault or halt does in one core (R194): the Epru stops, the queues and the deferred buffer are emptied, the
engines are cleared. -/
def State.coreStop (s : State) (c : Nat) : State :=
  let e := s.core c
  let s := s.setCore c { e with
    mq := [], vq := [], sq := [], defq := [], wait := .none, sat := none, stores := [], rerun := 0, barIn := none
    barOut := none, brel := none, skew := false, srFree := 0, lastTs := [], lastRel := [] }
  let s := s.fset F.EP_STATUS_STATE 0 c
  (((s.mxClear c).vxClear c).spEngineClear c).stpFault c

/-- PC of a core's Epru. -/
def State.pc (s : State) (c : Nat) : Nat := s.fget F.EP_STATUS_PC c

/-- A slot stops at once in a state of R191 (R194). -/
def State.slotStop (s : State) (t st : Nat) : State :=
  let s := (s.tractCores t).foldl State.coreStop s
  let s := (s.fset F.TRACT_STATUS_ENABLE_PENDING 0 t).fset F.TRACT_STATUS_PARK_PENDING 0 t
  let x := s.tract t
  let s := { s with pwr := { s.pwr with idleAt := s.clk.wt } }
  (s.setTract t { x with rel := none, rootT := none, stepHeld := false, filling := false }).fset F.TRACT_STATUS_STATE st t

/-- A fault of a slot detected by core c (R194): acts while the slot is RUNNING or STOPPING, or is being read in (R199). -/
def State.slotFault (s : State) (t c cause code : Nat) : State :=
  let pc := s.pc c
  let s := s.slotStop t tFAULTED
  let s := s.wr .TRACT_FAULT_INFO (BitVec.ofNat 64 (cause + code % 256 * 2 ^ 8 + c * 2 ^ 16)) t
  s.raise 0x4001 kTRACT t (cause + c * 2 ^ 8 + pc * 2 ^ 32)

/-- A fault found in core c: its tract faults if it is RUNNING or STOPPING. A core in no slot faults none. -/
def State.tractFault (s : State) (c cause : Nat) (code : Nat := 0) : State :=
  match s.slotOf c with
  | none => s
  | some t => if s.running c then s.slotFault t c cause code else s

/-- An engine rejects a released bundle (R112, R153, R249, R316): the event, and the tract faults with cause 0x04. -/
def State.rejectBundle (s : State) (c event op reason : Nat) : State :=
  (s.raise event kCORE c (op + reason * 2 ^ 8)).tractFault c 0x04

/-- The lowest reason of those that hold. -/
def lowestReason (l : List (Bool × Nat)) : Option Nat :=
  ((l.filter (·.1)).map (·.2)).foldl (fun a r => some (match a with | none => r | some x => min x r)) none

/-- Current exponent of a scale record; 0xFFF contributes 0 (R102, R123). -/
def State.scaleExp (s : State) (rec : Nat) : Int :=
  if rec ≥ 3072 then 0 else toSigned 8 (s.fget F.SCALE_STATE_EXP rec)

/-- Scale-record numbers that no bundle may name (R114, R126). -/
def badRec (r : Nat) : Bool := decide (3072 ≤ r ∧ r ≤ 4094)

/-- A NONFINITE_LOST event of a core (R84). -/
def State.nonfiniteLost (s : State) (c fmt : Nat) : State := s.raiseLim 0x1005 kCORE c fmt

/-- An ACC_OVERFLOW event of a core whose accumulator has no address (R84). -/
def State.accOverflow (s : State) (c : Nat) : State := s.raiseLim 0x1001 kCORE c 0

/-- States of a stoppable engine (R111). -/
def eDISABLED : Nat := 0
def eENABLING : Nat := 1
def eENABLED : Nat := 2
def eSTOPPING : Nat := 3

/-- The counter hash (R144). -/
def rotl32 (x n : Nat) : Nat := (x * 2 ^ n + x / 2 ^ (32 - n)) % 2 ^ 32
def ctrHash (k c0 c1 : Nat) : Nat :=
  let step := fun (p : Nat × Nat) (_ : Nat) =>
    let x := (p.1 + rotl32 p.2 13) % 2 ^ 32
    let y := Nat.xor ((p.2 * 0x85EB_CA6B) % 2 ^ 32) x
    (Nat.xor x (x / 2 ^ 16), y)
  let r := (List.range 6).foldl step (Nat.xor c0 k, Nat.xor c1 (rotl32 k 16))
  Nat.xor r.1 r.2

/-! ## Fabric: a core's own packets (R238, R240) -/

/-- Packets of a core that await a WACK or an RDR (R240). -/
def State.outstanding (s : State) (c : Nat) : Nat := s.fget F.FB_STATUS_OUTSTANDING c

/-- The core's port presents a packet in the NCLK at or after ACLK t (R238): it reaches the own router's input 2 NCLK
later. FB_INJECTED counts it. -/
def State.inject (s : State) (c : Nat) (p : Packet) (t : Nat) : State :=
  (s.count .FB_INJECTED 1 c).send p (.router c) (upTo 2 t + 4)

/-- A core sends a packet that is to be answered by a WACK or an RDR: held back while 256 are outstanding (R240). -/
def State.coreSend (s : State) (c : Nat) (p : Packet) (t : Nat) : State :=
  let x := s.fb c
  let s := if p.typ = Packet.RD then s else s.setFb c { x with wrOut := x.wrOut + 1 }
  if s.outstanding c < 256 then (s.fset F.FB_STATUS_OUTSTANDING (s.outstanding c + 1) c).inject c p t
  else
    let x := s.fb c
    s.setFb c { x with held := x.held ++ [p] }

/-- One outstanding packet of a core is answered, a remote write if `write`, and the first one held back is presented
(R240). -/
def State.coreAnswered (s : State) (c : Nat) (write : Bool) : State :=
  let x := s.fb c
  let s := if write then s.setFb c { x with wrOut := x.wrOut - 1 } else s
  let x := s.fb c
  match x.held with
  | [] => s.fset F.FB_STATUS_OUTSTANDING (s.outstanding c - 1) c
  | p :: rest => (s.setFb c { x with held := rest }).inject c p s.clk.tb

/-- The amax report of a unit of core c to a scale record (R79, R232). -/
def amaxPacket (c rec amax nf : Nat) : Packet :=
  { typ := Packet.AMAX, dest := destScale, src := c, addr := rec, lenm1 := 7, op := 3
    data := leBytes 4 amax ++ leBytes 4 (min nf 0xFFFF_FFFF) }

/-- Serve every waiting request of a port that belongs to one use, at most n of them, first to last; a request that cannot
be served now ends it. -/
def State.serveAll (s : State) (c port : Nat) (p : SpUse → Bool) : Nat → State
  | 0 => s
  | n + 1 =>
    match (mget [] (s.spCore c).reqs port).find? (fun r => p r.use) with
    | none => s
    | some r =>
      match s.serve c port (r.line % 32) with
      | none => s
      | some v => v.s.serveAll c port p n

/-- A line that has arrived at a port for a use, with its arrival. -/
def SpCore.got (x : SpCore) (u : SpUse) : Option SpRx := x.rx.find? (fun r => r.use == u)

end Sys2Proof.Machine
end

