-- ==== Sys2Proof/Machine/Addr.lean ====
section
/-! DEFINITION. Addresses (01, R43 to R45): module-local regions, global addresses, the stack interleave (R266), and the
destination that an issuing port derives from an address (R237). -/

namespace Sys2Proof.Machine
open Sys2Proof

def stackEnd : Nat := 0x1E0_0000_0000
def spWindow : Nat := 0x1000_0000_0000
def regWindow : Nat := 0x2000_0000_0000
def hostWindow : Nat := 0x3000_0000_0000
def stackBytes : Nat := 0x14_0000_0000

/-- Bits of a global address (R44). -/
def gMid (a : Nat) : Nat := bits a 63 54
def gLocal (a : Nat) : Nat := a % 2 ^ 46

/-- Stack, channel and channel address of a stack address under the interleave in force (R266). -/
structure ChanAddr where
  stack : Nat
  ch : Nat
  caddr : Nat
  deriving DecidableEq, Repr

def ilv (group glog a : Nat) : ChanAddr :=
  let g := 2 ^ glog
  let gs := group + 1
  let gsize := gs * stackBytes
  let grp := a / gsize
  let o := a % gsize
  let u := o / g
  let k := u % (32 * gs)
  ⟨gs * grp + k / 32, k % 32, (u / (32 * gs)) * g + o % g⟩

def State.ilvG (s : State) : Nat := s.fget F.HBMC_ILV_CUR_GROUP
def State.ilvLog (s : State) : Nat := s.fget F.HBMC_ILV_CUR_GLOG
def State.ilvOf (s : State) (a : Nat) : ChanAddr := ilv s.ilvG s.ilvLog a
def ChanAddr.chan (x : ChanAddr) : Nat := 32 * x.stack + x.ch

/-- Module-local stack address of a channel address: the inverse of R266. -/
def unIlv (group glog stack ch caddr : Nat) : Nat :=
  let g := 2 ^ glog
  let gs := group + 1
  let k := (stack % gs) * 32 + ch
  let u := caddr / g * (32 * gs) + k
  stack / gs * (gs * stackBytes) + u * g + caddr % g

def State.stackAddr (s : State) (chan caddr : Nat) : Nat := unIlv s.ilvG s.ilvLog (chan / 32) (chan % 32) caddr

/-- Is a stack present for addressing: its bit of MOD_STACK_MAP (R287, R288)? -/
def State.stackPresent (s : State) (st : Nat) : Bool := bit (s.fget F.MOD_STACK_MAP_PRESENT) st

/-- Stacks of the group that holds a stack address. -/
def State.groupStacks (s : State) (a : Nat) : List Nat :=
  let gs := s.ilvG + 1
  (List.range gs).map fun i => gs * (a / (gs * stackBytes)) + i

/-- Is the stack address a in a group that is in service? -/
def State.stackBacked (s : State) (a : Nat) : Bool := (s.groupStacks a).all s.stackPresent

/-- Do n bytes from module-local address a lie in the module's own in-service stacks? -/
def State.inStacks (s : State) (a n : Nat) : Bool :=
  decide (a + n ≤ stackEnd) &&
    (let gsz := (s.ilvG + 1) * stackBytes
     (List.range ((a + max n 1 - 1) / gsz + 1 - a / gsz)).all fun i => s.stackBacked ((a / gsz + i) * gsz))

/-- What a module-local address range of n bytes is (R43). -/
inductive Region where
  | stack (x : ChanAddr)
  | sp (core off : Nat)
  | reg (off : Nat)
  | host
  | unbacked
  deriving DecidableEq, Repr

def State.region (s : State) (a n : Nat) : Region :=
  if a < stackEnd then (if a + n ≤ stackEnd ∧ s.stackBacked a then .stack (s.ilvOf a) else .unbacked)
  else if spWindow ≤ a ∧ a < spWindow + 18000 * slotBytes then
    (let o := a - spWindow
     if o % slotBytes + n ≤ 0x50_0000 then .sp (o / slotBytes) (o % slotBytes) else .unbacked)
  else if regWindow ≤ a ∧ a + n ≤ regWindow + 0x800_0000 then .reg (a - regWindow)
  else if hostWindow ≤ a ∧ a + n ≤ 0x4000_0000_0000 then .host
  else .unbacked

/-- The module's own id (R354). -/
def State.ownId (s : State) : Nat := s.fget F.MOD_MODULE_ID_ID

/-- Is a module id this module's (R44, R45)? -/
def State.isOwn (s : State) (mid : Nat) : Bool := mid == 1023 || mid == s.ownId

/-- Offset of the register space in a CORE slot: the core, if it is one (R237). -/
def regCore (off : Nat) : Option Nat :=
  if 0x400_0000 ≤ off ∧ off < 0x632_8000 then some ((off - 0x400_0000) / 0x800) else none

/-- A route-table entry, if it is valid (R357). -/
def State.route (s : State) (prof d : Nat) : Option (List Nat) :=
  let e := (s.rd .BRIM_ROUTE 0 prof d).toNat
  let p := bits e 30 28
  let a1 := bits e 27 25
  let a2 := bits e 24 22
  if !bit e 31 || decide (6 ≤ p) || a1 == 6 || a2 == 6 || bits e 12 10 != 0 || decide (1000 ≤ d) then none
  else some (p :: [a1, a2].filter (· != 7))

/-- Is a port up: UP or DEGRADED? -/
def State.portUp (s : State) (p : Nat) : Bool :=
  let st := s.fget F.BRIM_STATUS_STATE p
  st == 2 || st == 3

/-- Port that a local issuer addresses for module d under profile `prof` (R358): the entry's PORT. Where no entry is valid the
request goes to BX0, which drops it. -/
def State.brimPort (s : State) (prof d : Nat) : Nat :=
  match s.route prof d with
  | some (p :: _) => p
  | _ => 0

/-- Route profile of an originating class (R359): 0 CORE, 1 GRIST, 2 RACC, 3 RACK, 4 REG. -/
def State.classProf (s : State) (cls : Nat) : Nat :=
  bits (s.rd .BRIM_CLASS_PROF).toNat (4 * cls + 3) (4 * cls)

/-- DEST and MID that an issuing port derives from a global address (R237), for an access of n bytes; nothing where the
address is unbacked (R43, R44). A request that no port can carry goes to the first port, which drops it (R358). -/
def State.destOf (s : State) (g n prof : Nat) : Option (Nat × Nat) :=
  if bits g 53 46 ≠ 0 then none
  else if s.isOwn (gMid g) then
    match s.region (gLocal g) n with
    | .stack x => some (destChan x.chan, 1023)
    | .sp c _ => some (c, 1023)
    | .reg off => some ((regCore off).getD destReg, 1023)
    | .host => some (destHost, 1023)
    | .unbacked => none
  else if 1000 ≤ gMid g then none
  else some (destBrim (s.brimPort prof (gMid g)), gMid g)

end Sys2Proof.Machine
end

