-- ==== Sys2Proof/Machine/MxMath.lean ====
section
/-! DEFINITION. The matrix engine's arithmetic (03): operand layouts (R89, R94, R96), column sums (R88, R100), the array
check (R106), and the collector's stages (R102, R103). -/

namespace Sys2Proof.Machine
open Sys2Proof

/-- The 16-bit, 8-bit or 32-bit code at byte i of a line. -/
def codeAt (l : List Byte) (i n : Nat) : Nat := leNat ((l.drop i).take n)

/-- The formats a matrix operand may have, and the mode families of R87: 0 FP32, 1 BF16, 2 FP16, 3 FP8. -/
def mxFamily (fmt : Nat) : Option Nat :=
  match fmt with
  | 0 => some 0 | 1 => some 1 | 2 => some 2 | 3 => some 3 | 4 => some 3
  | _ => none

/-- Lines of a tile in a held format (R89). -/
def tileLines (hfmt : Nat) : Nat := if hfmt = 0 then 64 else 32

/-- A line of a bank: what a LOAD captured, or what the bank happens to hold (log entry 7). -/
def MxTile.line (t : MxTile) (i : Nat) : List Byte :=
  match mget [] t.lines i with
  | [] => (List.range 64).map (Config.tileByte i)
  | l => l

/-- Taps T and channel rows C of a SLIDE code (R96). -/
def slideTaps (slide : Nat) : Nat := if slide = 0 then 1 else 2 ^ slide
def slideRows (slide : Nat) : Nat := 32 / slideTaps slide

/-- Element values of the held tile: reduction indices of one pass, each with its 32 columns (R89). -/
def MxTile.elem (t : MxTile) (k n : Nat) : Val :=
  match t.hfmt with
  | 0 => fp32.val (codeAt (t.line (2 * k + n / 16)) (4 * (n % 16)) 4)
  | 1 => bf16.val (codeAt (t.line k) (2 * n) 2)
  | 2 => fp16.val (codeAt (t.line k) (2 * n) 2)
  | 3 => e4m3.val (codeAt (t.line (k / 2)) (2 * n + k % 2) 1)
  | 4 => e5m2.val (codeAt (t.line (k / 2)) (2 * n + k % 2) 1)
  | _ => .nan

/-- Reduction indices of a pass (R87). -/
def passK (fmt : Nat) : Nat := if fmt = 3 ∨ fmt = 4 then 64 else 32

/-- Element k of a moving vector that stands in slot i of its group, from the group's lines (R94); `row` gives line r. -/
def movElem (fmt i k : Nat) (row : Nat → List Byte) : Val :=
  match fmt with
  | 0 => fp32.val (codeAt (row (2 * k + i / 16)) (4 * (i % 16)) 4)
  | 1 => bf16.val (codeAt (row k) (2 * i) 2)
  | 2 => fp16.val (codeAt (row k) (2 * i) 2)
  | 3 => e4m3.val (codeAt (row (k / 2)) (2 * i + k % 2) 1)
  | 4 => e5m2.val (codeAt (row (k / 2)) (2 * i + k % 2) 1)
  | _ => .nan

/-- The two BF16 parts of an FP32 operand (R100). -/
def splitParts (v : Val) : Val × Val :=
  match v with
  | .fin neg m e =>
    if m = 0 then (v, .fin false 0 0)
    else
      let x := bf16.roundMag .rne neg (m * pow2Num e) (pow2Den e) 0
      let h := bf16.val (bf16.signed neg (if x.ovf then bf16.maxCode else x.code))
      let d := v.dy.add h.dy.neg
      let l := bf16.conv .rne none (.fin (decide (d.m < 0)) d.m.natAbs d.e) 0
      (h, bf16.val l.code)
  | _ => (v, .fin false 0 0)

/-- Sum of a column from y_in over terms in ascending k (R88): the pair and whether an addition overflowed. -/
def columnSum (yin : Nat) (terms : List Nat) : Nat × Bool :=
  terms.foldl (fun a t => let r := pairAddTerm a.1 t; (r.1, a.2 || r.2)) (yin, false)

/-- An FP32 product term (R68, R70). -/
def prodTerm (x w : Val) : Nat := rnVal (x.mulv w)

/-- Negation of both words of a pair (R106). -/
def pairNeg (p : Nat) : Nat := mkPair (fneg (pairHi p)) (fneg (pairLo p))

/-- The exact value of an FP32 code's magnitude. -/
def abs32 (a : Nat) : Dy := (v32 a).absv.dy

/-- FP32 code of an exact non-negative sum rounded once toward +infinity (R91, R106). -/
def ru32 (x : Dy) : Nat :=
  if x.m = 0 then 0
  else
    let r := fp32.roundMag .ru false (x.m.natAbs * pow2Num x.e) (pow2Den x.e) 0
    if r.ovf then 0x7F80_0000 else r.code

/-- Checksums of one held row: the pair c and the bound a (R106), over the row's 32 values. -/
structure RowCheck where
  c : Nat
  a : Nat

def rowCheck (ws : List Val) : RowCheck :=
  { c := (columnSum 0 (ws.map rnVal)).1
    a := if ws.all Val.isFin then ru32 (ws.foldl (fun s w => s.add w.absv.dy) ⟨0, 0⟩) else 0x7F80_0000 }

/-- An exact product of a moving element and an FP32 word, as a pair (R106). -/
def exactProd (x : Val) (w : Nat) : Nat :=
  let p := x.mulv (v32 w)
  match p with
  | .fin _ _ _ =>
    let hi := rnVal p
    if fin32 hi then
      let d := p.dy.add (v32 hi).dy.neg
      mkPair hi (rnDy false d)
    else mkPair hi 0
  | _ => mkPair (rnVal p) 0

/-- Result of the array check of one vector or sub-step (R106): 0 passes, 1 mismatch, 2 skipped; with D.hi and A. -/
structure Verdict where
  code : Nat
  d : Nat
  a : Nat

def arrayCheck (checkEn : Bool) (tau : Nat) (xs : List Val) (rows : List RowCheck) (yin yout : List Nat) (ovf : Bool) :
    Verdict :=
  let z := (xs.zip rows).foldl
    (fun z p => (pairAdd (pairAdd z (exactProd p.1 (pairHi p.2.c))).1 (exactProd p.1 (pairLo p.2.c))).1) 0
  let d := (yout.zip yin).foldl (fun d p => (pairAdd (pairAdd d p.1).1 (pairNeg p.2)).1) 0
  let d := (pairAdd d (pairNeg z)).1
  let aExact := (xs.zip rows).foldl (fun s p => s.add (p.1.absv.dy.mul (abs32 p.2.a)))
    (yin.foldl (fun s y => s.add (abs32 (pairHi y))) ⟨0, 0⟩)
  let a := ru32 aExact
  let finite := xs.all Val.isFin && rows.all (fun r => fin32 r.a) && yin.all (fun y => fin32 (pairHi y))
    && yout.all (fun y => fin32 (pairHi y)) && fin32 (pairHi z) && fin32 (pairHi d) && fin32 a && !ovf
  let dh := pairHi d
  if !checkEn || !finite then ⟨2, dh, a⟩
  else
    let big := ((v32 a).dy.mul ⟨1, -(tau : Int)⟩).lt (abs32 dh)
    ⟨if big then 1 else 0, dh, a⟩

/-- Sums and verdict of one vector (R88, R100, R106): 32 pairs, the verdict, and whether an addition overflowed. -/
structure VecSum where
  outs : List Nat
  verdict : Verdict
  ovf : Bool

/-- One array step over given moving elements and held elements. -/
def arrayStep (k : Nat) (x : Nat → Val) (w : Nat → Nat → Val) (term : Nat → Nat → Nat) (yin : List Nat)
    (checkEn : Bool) (tau : Nat) : VecSum :=
  let ks := List.range k
  let cols := (List.range 32).map fun n => columnSum (yin.getD n 0) (ks.map fun i => term i n)
  let outs := cols.map (·.1)
  let ovf := cols.any (·.2)
  let rows := ks.map fun i => rowCheck ((List.range 32).map (w i))
  ⟨outs, arrayCheck checkEn tau (ks.map x) rows yin outs ovf, ovf⟩

/-- A vector through the array (R88), in the split mode through its three sub-steps (R100). -/
def vectorSum (fmt : Nat) (tile : MxTile) (x : Nat → Val) (yin : List Nat) (checkEn : Bool) (tau : Nat) : VecSum :=
  if fmt = 0 then
    let w := fun k n => tile.elem k n
    let xh := fun k => (splitParts (x k)).1
    let xl := fun k => (splitParts (x k)).2
    let wh := fun k n => (splitParts (w k n)).1
    let wl := fun k n => (splitParts (w k n)).2
    let ok := fun k n => (x k).isFin && (w k n).isFin
    let zero := List.replicate 32 0
    let s0 := arrayStep 32 xl wh (fun k n => if ok k n then prodTerm (xl k) (wh k n) else 0) yin checkEn tau
    let s1 := arrayStep 32 xh wl (fun k n => if ok k n then prodTerm (xh k) (wl k n) else 0) zero checkEn tau
    let s2 := arrayStep 32 xh wh (fun k n => if ok k n then prodTerm (xh k) (wh k n) else prodTerm (x k) (w k n)) zero
      checkEn tau
    let outs := (List.range 32).map fun n =>
      let p := pairAdd (s0.outs.getD n 0) (s1.outs.getD n 0)
      let q := pairAdd p.1 (s2.outs.getD n 0)
      (q.1, p.2 || q.2)
    let verdict : Verdict :=
      if s0.verdict.code = 1 then s0.verdict
      else if s1.verdict.code = 1 then s1.verdict
      else if s2.verdict.code = 1 then s2.verdict
      else if s0.verdict.code = 2 ∨ s1.verdict.code = 2 ∨ s2.verdict.code = 2 then { s0.verdict with code := 2 }
      else s0.verdict
    ⟨outs.map (·.1), verdict, s0.ovf || s1.ovf || s2.ovf || outs.any (·.2)⟩
  else
    arrayStep (passK fmt) x (fun k n => tile.elem k n) (fun k n => prodTerm (x k) (tile.elem k n)) yin checkEn tau

/-! ## Collector (R102, R103) -/

/-- A value in the collector: a pair with unbounded exponent, or a non-finite hi (R102). -/
inductive UPair where
  | fin (hi lo : Dy)
  | special (v : Val)
  deriving DecidableEq, Repr

/-- RNE to 24 significant bits with no bound on the exponent. -/
def rn24 (x : Dy) : Dy :=
  if x.m = 0 then ⟨0, 0⟩
  else
    let n := x.m.natAbs
    let sh := Nat.log2 n - 23
    let t := n / 2 ^ sh
    let rem := n % 2 ^ sh
    let up := decide (2 ^ sh < 2 * rem) || (decide (2 ^ sh = 2 * rem ∧ 0 < sh) && decide (t % 2 = 1))
    let t := if up then t + 1 else t
    ⟨if x.m < 0 then -(t : Int) else t, x.e + sh⟩

/-- A pair from its exact value, rounded as pair_add rounds its result. -/
def UPair.ofExact (v : Dy) : UPair :=
  let h := rn24 v
  .fin h (rn24 (v.add h.neg))

/-- Stage C1: the pair times 2^-(ea + eb), exactly. -/
def UPair.ofPair (p : Nat) (e : Int) : UPair :=
  match v32 (pairHi p), v32 (pairLo p) with
  | .fin n m x, .fin n' m' x' => .fin ((Val.fin n m x).dy.mul ⟨1, -e⟩) ((Val.fin n' m' x').dy.mul ⟨1, -e⟩)
  | .fin _ _ _, v => .special v
  | v, _ => .special v

def UPair.hiVal : UPair → Val
  | .fin hi _ => .fin (decide (hi.m < 0)) hi.m.natAbs hi.e
  | .special v => v

/-- pair_add of R67 with no bound on the exponent. -/
def upairAdd (x y : UPair) : UPair :=
  match x, y with
  | .fin xh xl, .fin yh yl =>
    let s := rn24 (xh.add yh)
    let e := (xh.add yh).add s.neg
    let t := rn24 (xl.add yl)
    let e' := rn24 (e.add t)
    let hi := rn24 (s.add e')
    let d := rn24 (hi.add s.neg)
    .fin hi (rn24 (e'.add d.neg))
  | _, _ => .special (x.hiVal.addv y.hiVal)

/-- Stage C2: the fused operation (R102). -/
def fuseOp (fuse : Nat) (y : UPair) (f : Val) : UPair :=
  match fuse with
  | 1 => if f.isFin then upairAdd y (.fin f.dy ⟨0, 0⟩) else .special (y.hiVal.addv f)
  | 2 =>
    match y with
    | .fin hi lo => if f.isFin then .ofExact ((hi.add lo).mul f.dy) else .special (y.hiVal.mulv f)
    | .special v => .special (v.mulv f)
  | _ => y

/-- Stage C3: the pair renormalised. -/
def UPair.renorm : UPair → UPair
  | .fin hi lo => .ofExact (hi.add lo)
  | u => u

/-- Value of an output: hi + lo (R64). -/
def UPair.val : UPair → Val
  | .fin hi lo => let s := hi.add lo; .fin (decide (s.m < 0)) s.m.natAbs s.e
  | .special v => v

/-- FP32 magnitude that C4 accumulates for a finite output (R103). -/
def UPair.amax : UPair → Nat
  | .fin hi lo =>
    let s := hi.add lo
    let c := rnDy false ⟨s.m.natAbs, s.e⟩
    if fin32 c then c else Config.amaxBeyond s.m.natAbs s.e
  | .special _ => 0

def UPair.isFin : UPair → Bool
  | .fin _ _ => true
  | .special _ => false

/-- PAIR64 code of an output (R58): hi rounded into FP32, lo the rest. -/
def UPair.pair : UPair → Nat
  | .fin hi lo =>
    let s := hi.add lo
    let h := rnDy false s
    if fin32 h then mkPair h (rnDy false (s.add (v32 h).dy.neg)) else mkPair h 0
  | .special v => mkPair (rnVal v) 0

/-- Bytes of an element of an output format (R105). -/
def outSize (ofmt : Nat) : Nat :=
  match ofmt with
  | 8 => 8 | 0 => 4 | 1 => 2 | 2 => 2
  | _ => 1

end Sys2Proof.Machine
end

