-- ==== Sys2Proof/Machine/MxOps.lean ====
section
/-! DEFINITION. The matrix engine's operations (03): feeders, entries, the write buffer, enabling. -/

namespace Sys2Proof.Machine
open Sys2Proof

/-! ## Payload fields (R114) -/

def MxPass.vm1 (p : MxPass) : Nat := bits p.payload 58 51
def MxPass.mfmt (p : MxPass) : Nat := bits p.payload 50 47
def MxPass.mvLine (p : MxPass) : Nat := bits p.payload 75 59
def MxPass.slide (p : MxPass) : Nat := bits p.payload 26 24
def MxPass.ubBase (p : MxPass) : Nat := bits p.payload 34 27
def MxPass.swap (p : MxPass) : Bool := bit p.payload 21
def MxPass.top (p : MxPass) : Bool := bit p.payload 20
def MxPass.out (p : MxPass) : Bool := bit p.payload 19

/-- Output vectors, and vectors entered with the halo vectors (R96). -/
def MxPass.nOut (p : MxPass) : Nat := p.vm1 + 1
def MxPass.nEnter (p : MxPass) : Nat := p.nOut + slideTaps p.slide - 1

/-- ACLK between entries (R87, R100). -/
def MxPass.stride (p : MxPass) : Nat := if p.mfmt = 0 then 3 else 1

/-- Lines between groups, and lines read of each group (R94, R96). -/
def groupStride (fmt : Nat) : Nat := if fmt = 0 then 64 else 32
def MxPass.groupLines (p : MxPass) : Nat := if p.mfmt = 0 then 64 else slideRows p.slide
def MxPass.groups (p : MxPass) : Nat := (p.nEnter + 31) / 32

/-- Line offsets from MV_LINE that a pass reads, group by group (R94). -/
def MxPass.offsets (p : MxPass) : List Nat :=
  (List.range p.groups).flatMap fun g => (List.range p.groupLines).map fun r => groupStride p.mfmt * g + r

/-- The last line that a pass reads. -/
def MxPass.lastLine (p : MxPass) : Nat := p.mvLine + groupStride p.mfmt * (p.groups - 1) + p.groupLines - 1

/-- Has the pass entered all its vectors? -/
def MxPass.entered (p : MxPass) : Bool := decide (p.nEnter ≤ p.ents.length)

/-- Feeder entries that a pass still takes in a row's queue (R95): one line, or two of FP32, for each group not yet
entered. -/
def MxPass.queueLoad (p : MxPass) : Nat :=
  if p.presented then (p.groups - p.ents.length / 32) * (if p.mfmt = 0 then 2 else 1) else 0

/-- Lines a LOAD reads (R89). -/
def loadLines (payload : Nat) : Nat := tileLines (bits payload 57 54)

/-! ## Feeders (R94, R95) -/

/-- The feeders present the lines of the next pass while its rows' queues of 64 entries have room, two lines an NCLK
(R205); a pass's lines may be presented from its writing into the queue on (log entry 9). -/
def State.mxFeed (s : State) (c : Nat) : State :=
  let x := s.mxc c
  match x.passes.find? (fun p => !p.presented) with
  | none => s
  | some p =>
    let load := (x.passes.map MxPass.queueLoad).sum
    let need := p.groups * (if p.mfmt = 0 then 2 else 1)
    if 64 < load + need ∧ load ≠ 0 then s
    else
      let t0 := upTo 2 (max s.clk.tb x.feedFree)
      let offs := p.offsets
      let s := (offs.zip (List.range offs.length)).foldl
        (fun s o => s.present c pMX_FEED (p.mvLine + o.1) (.feed p.id o.1) none (t0 + 2 * (o.2 / 2))) s
      let x := s.mxc c
      s.setMx c { x with
        passes := x.passes.map fun q => if q.id = p.id then { q with presented := true } else q
        feedFree := t0 + 2 * ((offs.length + 1) / 2) }

/-- A PASS bundle is written into the matrix queue: its record begins and its feeders may start. -/
def State.mxPassWritten (s : State) (c payload : Nat) : State :=
  let x := s.mxc c
  let p : MxPass := { id := x.nextId, payload := payload }
  (s.setMx c { x with nextId := x.nextId + 1, passes := x.passes ++ [p] }).mxFeed c

/-- Offsets of the lines that hold the elements of entered vector u (R94). -/
def MxPass.lineOffsets (p : MxPass) (u : Nat) : List Nat :=
  let base := groupStride p.mfmt * (u / 32)
  if p.mfmt = 0 then (List.range 32).map fun r => base + 2 * r + (u % 32) / 16
  else (List.range p.groupLines).map fun r => base + r

/-- ACLK from which vector u stands complete in the feeder queues, once all its lines have arrived (R95). -/
def State.mxComplete (s : State) (c : Nat) (p : MxPass) (u : Nat) : Option Nat :=
  let x := s.spCore c
  (p.lineOffsets u).foldl
    (fun a o => match a, x.got (.feed p.id o) with
      | some t, some r => some (max t r.tb)
      | _, _ => none) (some 0)

/-- Element k of output vector v of a pass (R94, R96). -/
def State.mxElem (s : State) (c : Nat) (p : MxPass) (v k : Nat) : Val :=
  let rows := slideRows p.slide
  let u := if p.slide = 0 then v else v + k / rows
  let r := if p.slide = 0 then k else k % rows
  let base := groupStride p.mfmt * (u / 32)
  movElem p.mfmt (u % 32) r (fun o => ((s.spCore c).got (.feed p.id (base + o))).elim [] (·.data))

/-! ## The collector's write buffer (R546) -/

/-- Rows whose lines MX_COLL has still to serve. -/
def SpCore.outRows (x : SpCore) : List Nat :=
  ((mget [] x.reqs pMX_COLL).filterMap fun r =>
    match r.use with
    | .out row _ => some row
    | _ => none).dedup

/-- Is the buffer full in ACLK t? -/
def State.mxFull (s : State) (c t : Nat) : Bool :=
  let x := s.mxc c
  let inFlight := x.vecs.filter fun v =>
    decide (v.t + 38 < t) && (x.passes.any fun p => p.id == v.pass && p.out)
  decide (64 ≤ (s.spCore c).outRows.length + inFlight.length)

/-! ## Entries (R95 to R99) -/

/-- Work that waits for the entries of pass id learns its last entry t (R108). -/
def Drain.passDone (d : Drain) (id bound : Nat) : Drain := if d.upto = id + 1 then { d with t := some bound } else d

/-- Vector number `ents.length` of pass p enters in ACLK t, `stall` ACLK after it might have: the column sums of the output
vector that it completes are formed, and with OUT = 0 parked in the Underback (R95 to R97, R106). -/
def State.mxEnter (s : State) (c : Nat) (p : MxPass) (t stall : Nat) : State :=
  let s := s.atTb t
  let s := if stall = 0 then s else s.count .MX_STALL_ACLK stall c
  let u := p.ents.length
  let p := { p with ents := t :: p.ents, nextEntry := t + 1 }
  let halo := slideTaps p.slide - 1
  let x := s.mxc c
  let vec : Option (MxVec × Bool) :=
    if u < halo then none
    else
      let v := u - halo
      let tv := p.ents.getD halo t
      let ub := fun n => mget 0 x.ub ((p.ubBase + v) % 256 * 32 + n)
      let yin := (List.range 32).map fun n => if p.top then ub n else 0
      let r := vectorSum p.mfmt p.tile (s.mxElem c p v) yin (bit p.check 6) (bits p.check 5 0)
      some (⟨p.id, v, tv, r.outs, r.verdict.code, r.verdict.d, r.verdict.a⟩, r.ovf)
  let s :=
    match vec with
    | none => s.setMx c { x with passes := x.passes.map (fun q => if q.id = p.id then p else q), lastT := some t }
    | some (w, ovf) =>
      let e := (p.ubBase + w.v) % 256
      let ub := if p.out then x.ub else
        (w.outs.zip (List.range 32)).foldl (fun m o => mput 0 m (e * 32 + o.2) o.1) x.ub
      let ubT := if p.out then x.ubT else mput 0 x.ubT e (w.t + 1)
      let s := s.setMx c { x with
        passes := x.passes.map (fun q => if q.id = p.id then p else q)
        vecs := x.vecs ++ [w], ub := ub, ubT := ubT, lastT := some t }
      if ovf then s.accOverflow c else s
  if p.entered then
    let x := s.mxc c
    let s := s.setMx c { x with
      drains := x.drains.map (·.passDone p.id (t + 70))
      stopping := x.stopping.map (·.passDone p.id (t + 70)) }
    let y := s.spCore c
    let mine := fun u : SpUse =>
      match u with
      | .feed id _ => id == p.id
      | _ => false
    (s.setSp c { y with rx := y.rx.filter (fun r => !mine r.use) }).mxFeed c
  else s

/-- The entry ACLK that R98 requires of the first vector (its sub-step 0 in the split mode). -/
def Mx.topBound (x : Mx) (p : MxPass) : Nat :=
  if !p.top then 0
  else
    (List.range p.nOut).foldl (fun a v =>
      match mget 0 x.ubT ((p.ubBase + v) % 256) with
      | 0 => a
      | w => max a (w - 1 + 39 - v * p.stride)) 0

/-! ## Enabling (R111) -/

/-- A drain covering everything released so far (R108). -/
def Mx.drainNow (x : Mx) (d : Nat) (arrive : Bool) (ctr : Nat) : Drain :=
  let last := x.passes.find? (fun p => p.id + 1 == x.relId)
  let t : Option Nat :=
    if x.relId = 0 then some 0
    else
      match last with
      | none => some (match x.lastT with | none => 0 | some t => t + 70)
      | some p => if p.entered then some (match p.ents with | [] => 0 | t :: _ => t + 70) else none
  ⟨d, x.relId, t, arrive, ctr⟩

/-- A write of MX_CTRL.ENABLE (R111). -/
def State.mxEnable (s : State) (c : Nat) (v : Bool) : State :=
  let s := s.fset F.MX_CTRL_ENABLE (b2n v) c
  let st := s.fget F.MX_STATUS_STATE c
  let x := s.mxc c
  if v then
    if st = eDISABLED then (s.setMx c { x with enabling := some s.clk.tb }).fset F.MX_STATUS_STATE eENABLING c
    else if st = eSTOPPING then s.fset F.MX_STATUS_ENABLE_PENDING 1 c
    else s
  else if st = eENABLED then
    (s.setMx c { x with stopping := some (x.drainNow s.clk.tb false 0) }).fset F.MX_STATUS_STATE eSTOPPING c
  else if st = eENABLING then (s.setMx c { x with enabling := none }).fset F.MX_STATUS_STATE eDISABLED c
  else s.fset F.MX_STATUS_ENABLE_PENDING 0 c

/-- The matrix engine rejects a bundle (R112, R116). -/
def State.mxReject (s : State) (c op reason : Nat) : State := s.rejectBundle c 0x3002 op reason

def State.mxOff (s : State) (c : Nat) : Bool := s.fget F.MX_STATUS_STATE c != eENABLED

/-- A counted saturation of an unscaled conversion in the matrix engine (R103, R116). -/
def State.mxSaturated (s : State) (c n : Nat) : State :=
  if n = 0 then s
  else
    let s := s.count .MX_SAT_COUNT n c
    if s.flag F.MX_CTRL_SAT_EVT c then s.raiseLim 0x3004 kCORE c (s.rd .MX_SAT_COUNT c).toNat else s

/-! ## The collector (R102 to R105) -/

/-- Outputs of one row through C1 to C4: each pair, with the fused elements (R102). -/
def collectRow (ea eb : Int) (fuse : Nat) (outs : List Nat) (f : List Val) : List UPair :=
  (outs.zip f).map fun p => (fuseOp fuse (UPair.ofPair p.1 (ea + eb)) p.2).renorm

/-- C5: one output converted (R103): its bytes and the conversion. -/
def collectConv (ofmt rnd : Nat) (oe : Option Int) (y : UPair) (r : Nat) : Conv :=
  match fmtOf ofmt with
  | none => ⟨y.pair, false, false⟩
  | some f => f.conv ((Rnd.ofCode rnd).getD .rne) oe y.val r

/-- The write operation of a DEST and an OFMT (R105, R114, R215). -/
def destWop (dest ofmt : Nat) : Nat :=
  match dest, ofmt with
  | 1, 8 => 1 | 1, 0 => 2 | 1, 1 => 3 | 2, 0 => 5 | 2, 1 => 6
  | _, _ => 0

/-- Cut bytes that begin at scratchpad byte b into line writes (R105): line, byte mask and the line's bytes. -/
def cutLines (b : Nat) (data : List Byte) : List (Nat × Nat × List Byte) :=
  let first := b / 64
  let last := (b + data.length - 1) / 64
  (List.range (last + 1 - first)).map fun i =>
    let l := first + i
    let lo := max b (64 * l) - 64 * l
    let hi := min (b + data.length) (64 * l + 64) - 64 * l
    let part := (data.drop (64 * l + lo - b)).take (hi - lo)
    (l, (2 ^ (hi - lo) - 1) * 2 ^ lo, zeros lo ++ part ++ zeros (64 - hi))

/-- Count saturations of a scale record (R77, R103). -/
def State.recSaturated (s : State) (rec n : Nat) : State :=
  if n = 0 then s
  else { s with red := { s.red with satRise := mupd 0 s.red.satRise rec (· + n) } }.count .SCALE_SAT_COUNT n rec

end Sys2Proof.Machine
end

