-- ==== Sys2Proof/Machine/Fulling.lean ====
section
/-! DEFINITION. The Fulling formats (09, R317 to R320): packing and unpacking. Modes: 0 BF16-LL, 1 E4M3-B32, 2 E3M2-B32,
3 SIGN1 (R148). -/

namespace Sys2Proof.Machine
open Sys2Proof

/-- Consecutive groups of k elements, the last one shorter if need be; `fuel` bounds the number of groups. -/
def groupsOf {α : Type} (k : Nat) : Nat → List α → List (List α)
  | 0, _ => []
  | _, [] => []
  | fuel + 1, l => l.take k :: groupsOf k fuel (l.drop k)

/-- Fields of width w packed least significant first (R317), in whole bytes. -/
def packFields (w : Nat) (l : List Nat) : List Byte :=
  let v := l.foldr (fun x acc => x % 2 ^ w + acc * 2 ^ w) 0
  leBytes ((l.length * w + 7) / 8) v

/-- The n fields of width w of a byte string (R317). -/
def unpackFields (w n : Nat) (l : List Byte) : List Nat :=
  let v := leNat l
  (List.range n).map fun j => bits (v / 2 ^ (w * j)) (w - 1) 0 % 2 ^ w

/-! ## BF16-LL (R318) -/

def bfExp (x : Nat) : Nat := bits x 14 7

/-- One group of at most 32 BF16 codes. -/
def packLL (g : List Nat) : List Byte :=
  let zmask := (g.zip (List.range g.length)).foldl (fun m p => if p.1 = 0 then m else m + 2 ^ p.2) 0
  let nz := g.filter (· != 0)
  if nz.isEmpty then leBytes 4 0
  else
    let ebase := nz.foldl (fun a x => min a (bfExp x)) 255
    let top := nz.foldl (fun a x => max a (bfExp x - ebase)) 0
    let ew := ((List.range 9).find? (fun w => decide (top < 2 ^ w))).getD 8
    leBytes 4 zmask ++ [BitVec.ofNat 8 ebase, BitVec.ofNat 8 ew]
      ++ nz.map (fun x => BitVec.ofNat 8 ((bit x 15).toNat * 128 + bits x 6 0))
      ++ (if ew = 0 then [] else packFields ew (nz.map (fun x => bfExp x - ebase)))

/-- Number of ones among the low k bits. -/
def onesIn (k v : Nat) : Nat := ((List.range k).filter (bit v)).length

/-- Bytes of the group at the head of a byte string. -/
def llGroupLen (l : List Byte) : Nat :=
  let z := leNat (l.take 4)
  let m := onesIn 32 z
  if m = 0 then 4
  else 6 + m + (m * (l.getD 5 0).toNat + 7) / 8

/-- One group unpacked: k BF16 codes. -/
def unpackLL (k : Nat) (l : List Byte) : List Nat :=
  let z := leNat (l.take 4)
  let m := onesIn 32 z
  let ebase := (l.getD 4 0).toNat
  let ew := (l.getD 5 0).toNat
  let sm := (l.drop 6).take m
  let ex := if ew = 0 then List.replicate m 0 else unpackFields ew m ((l.drop (6 + m)).take ((m * ew + 7) / 8))
  (List.range k).map fun i =>
    if bit z i then
      let j := onesIn i z
      let b := (sm.getD j 0).toNat
      (b / 128) * 2 ^ 15 + ((ebase + ex.getD j 0) % 256) * 2 ^ 7 + b % 128
    else 0

/-- Unpack n BF16 codes (R318); `fuel` bounds the groups. -/
def unpackLLs : Nat → Nat → List Byte → List Nat
  | 0, _, _ => []
  | fuel + 1, n, l =>
    if n = 0 then []
    else unpackLL (min n 32) l ++ unpackLLs fuel (n - min n 32) (l.drop (llGroupLen l))

/-- Bytes that n packed elements take at the head of a byte string. -/
def llLen : Nat → Nat → List Byte → Nat
  | 0, _, _ => 0
  | fuel + 1, n, l =>
    if n = 0 then 0
    else
      let k := llGroupLen l
      k + llLen fuel (n - min n 32) (l.drop k)

/-! ## Block formats and SIGN1 (R319, R59) -/

/-- The scale X of a block (R319). -/
def blockX (fmax : Nat) (xs : List Val) : Int :=
  let big := (xs.filter Val.isFin).foldl (fun (a : Dy) x => if a.lt x.absv.dy then x.absv.dy else a) ⟨0, 0⟩
  if big.m = 0 then 0
  else
    let e := ilog2 (fmax * pow2Den big.e) (big.m.natAbs * pow2Num big.e)
    max (-127) (min 127 e)

/-- One block: its bytes and the number of non-finite elements lost (R72). -/
def packBlock (f : Fmt) (fmax : Nat) (xs : List Val) : List Byte × Nat :=
  let x := blockX fmax xs
  let cs := xs.map fun v => f.conv .rne (some x) v 0
  let lost := (cs.filter (·.lost)).length
  let body := if f.width = 8 then cs.map (fun c => BitVec.ofNat 8 c.code) else packFields 6 (cs.map (·.code))
  (BitVec.ofNat 8 (ofSigned 8 x) :: body, lost)

/-- Pack elements in a mode: BF16-LL takes BF16 codes, the other modes values. The bytes, and the elements lost. -/
def fullPack (mode : Nat) (codes : List Nat) (vals : List Val) : List Byte × Nat :=
  match mode with
  | 0 => ((groupsOf 32 (codes.length + 1) codes).flatMap packLL, 0)
  | 1 =>
    let bs := (groupsOf 32 (vals.length + 1) vals).map (packBlock e4m3 448)
    (bs.flatMap (·.1), (bs.map (·.2)).sum)
  | 2 =>
    let bs := (groupsOf 32 (vals.length + 1) vals).map (packBlock e3m2 28)
    (bs.flatMap (·.1), (bs.map (·.2)).sum)
  | _ =>
    let cs := vals.map sign1
    (packFields 1 (cs.map (·.code)), (cs.filter (·.lost)).length)

/-- Largest packed length of n elements in a mode (R317 to R319). -/
def packMax (mode n : Nat) : Nat :=
  match mode with
  | 0 => (n / 32) * 70 + (if n % 32 = 0 then 0 else 6 + n % 32 + n % 32)
  | 1 => (n + 31) / 32 * 33
  | 2 => (n + 31) / 32 * 25
  | _ => (n + 7) / 8

/-- q × 2^-X rounded RNE to the restore format, its largest finite value beyond (R320). -/
def restore (f : Fmt) (q : Val) (x : Int) : Nat :=
  match q with
  | .fin neg m e =>
    let e' := e - x
    let n := m * pow2Num e'
    let d := pow2Den e'
    if n = 0 then f.signed neg 0
    else
      let r := f.roundMag .rne neg n d 0
      f.signed neg (if r.ovf then f.maxCode else r.code)
  | .inf neg => f.signed neg (f.inf.getD f.maxCode)
  | .nan => f.qnan

/-- Unpack n elements of a mode into the codes of a restore format (R318, R320). -/
def fullUnpack (mode n : Nat) (f : Fmt) (l : List Byte) : List Nat :=
  match mode with
  | 0 => (unpackLLs (n + 1) n l).map fun c => if f = bf16 then c else (f.conv .rne none (bf16.val c) 0).code
  | 1 =>
    ((List.range ((n + 31) / 32)).flatMap fun b =>
      let blk := (l.drop (33 * b)).take 33
      let x := toSigned 8 (blk.getD 0 0).toNat
      (List.range 32).map fun i => restore f (e4m3.val (blk.getD (1 + i) 0).toNat) x).take n
  | 2 =>
    ((List.range ((n + 31) / 32)).flatMap fun b =>
      let blk := (l.drop (25 * b)).take 25
      let x := toSigned 8 (blk.getD 0 0).toNat
      (unpackFields 6 32 (blk.drop 1)).map fun q => restore f (e3m2.val q) x).take n
  | _ => (unpackFields 1 n l).map fun b => (f.conv .rne none (.fin false (min b 1) 0) 0).code

/-- Bytes of the packed form of n elements that stands at the head of a byte string. -/
def packedLen (mode n : Nat) (l : List Byte) : Nat := if mode = 0 then llLen (n + 1) n l else packMax mode n

end Sys2Proof.Machine
end

