-- ==== Sys2Proof/Machine/Trans.lean ====
section
/-! DEFINITION. Functions that the spec bounds and does not fix (R129, R139, R143): the true value as an integer in units of
2^-512, and the FP32 values that the bound allows, of which a free value picks one (log entry 10). -/

namespace Sys2Proof.Machine
open Sys2Proof

/-! ## True values in units of 2^-512 -/

def fxOne : Int := 2 ^ 512
def fxMul (a b : Int) : Int := a * b / fxOne
def fxDiv (a b : Int) : Int := a * fxOne / b

/-- m × 2^e. -/
def fxOf (m : Int) (e : Int) : Int := m * fxOne * (pow2Num e : Int) / (pow2Den e : Int)

/-- Exponential series: t + t x / (k + 1) + …. -/
def expSum (x : Int) : Nat → Nat → Int → Int
  | 0, _, _ => 0
  | f + 1, k, t => t + expSum x f (k + 1) (fxMul t x / (k + 1))

/-- Series of atanh (z2 = z²) and atan (z2 = -z²): t / (2k + 1) + …. -/
def oddSum (z2 : Int) : Nat → Nat → Int → Int
  | 0, _, _ => 0
  | f + 1, k, t => t / (2 * k + 1) + oddSum z2 f (k + 1) (fxMul t z2)

/-- Series of sin (k = 1, t = r) and cos (k = 0, t = 1), with r2 = r². -/
def trigSum (r2 : Int) : Nat → Nat → Int → Int
  | 0, _, _ => 0
  | f + 1, k, t => t + trigSum r2 f (k + 2) (-(fxMul t r2) / ((k + 1) * (k + 2)))

/-- Series of erf without its factor: t / (2k + 1) + …, each t the one before times -x² / (k + 1). -/
def erfSum (x2 : Int) : Nat → Nat → Int → Int
  | 0, _, _ => 0
  | f + 1, k, t => t / (2 * k + 1) + erfSum x2 f (k + 1) (-(fxMul t x2) / (k + 1))

def atanhFx (z : Int) : Int := oddSum (fxMul z z) 170 0 z
def ln2Fx : Int := 2 * atanhFx (fxOne / 3)

/-- atan(1 / n). -/
def atanInv (n : Int) : Int := oddSum (-(fxOne / (n * n))) 120 0 (fxOne / n)
def piFx : Int := 16 * atanInv 5 - 4 * atanInv 239
def sqrtPiFx : Int := (Nat.sqrt (piFx * fxOne).toNat : Int)

/-- 2^n times a value. -/
def fxShift (v n : Int) : Int := v * (pow2Num n : Int) / (pow2Den n : Int)

/-- e^x for |x| ≤ 200. -/
def expFx (x : Int) : Int :=
  let n := x / ln2Fx
  fxShift (expSum (x - n * ln2Fx) 140 0 fxOne) n

/-- Natural logarithm of m × 2^e, m > 0. -/
def lnFx (m : Nat) (e : Int) : Int :=
  let l := Nat.log2 m
  let f := fxOf m (-(l : Int))
  2 * atanhFx (fxDiv (f - fxOne) (f + fxOne)) + (e + l) * ln2Fx

def tanhFx (x : Int) : Int := let w := expFx (2 * x); fxDiv (w - fxOne) (w + fxOne)
def sigmFx (x : Int) : Int := let w := expFx x; fxDiv w (fxOne + w)
def erfFx (x : Int) : Int := fxDiv (2 * erfSum (fxMul x x) 320 0 x) sqrtPiFx

/-- sin (shift 0) or cos (shift 1) of x ≥ 0: its argument is reduced by quarter turns. -/
def trigFx (shift : Int) (x : Int) : Int :=
  let h := piFx / 2
  let k := x * 2 / piFx
  let r := x - k * piFx / 2
  let r2 := fxMul r r
  let v := if (k + shift) % 2 = 0 then trigSum r2 70 1 r else trigSum r2 70 0 fxOne
  if h = 0 then 0 else if (k + shift) % 4 < 2 then v else -v

/-! ## The values that a bound allows -/

/-- FP32 magnitude codes within the bound of a true magnitude r > 0 in units of 2^-512: 51 hundredths of an ulp when `narrow`, and
otherwise 1 ulp. A value that the series leaves within 2^-300 ulp of a code is that code exactly. -/
def nearCodes (narrow : Bool) (r : Int) : List Nat :=
  let n := r.toNat
  let c := (fp32.roundMag .rz false n (2 ^ 512) 0).code
  match fp32.val c with
  | .fin _ m e =>
    let u := pow2Num e * 2 ^ 512
    let rem := n * pow2Den e - m * u
    let exact := if rem * 2 ^ 300 ≤ u then some c else if (u - rem) * 2 ^ 300 ≤ u then some (c + 1) else none
    match exact with
    | some x => if narrow then [x] else [x, x + 1, x - 1]
    | none =>
      if narrow then (if 100 * rem ≤ 51 * u then [c] else []) ++ (if 100 * (u - rem) ≤ 51 * u then [c + 1] else [])
      else [c, c + 1]
  | _ => [c]

/-- Is a true magnitude beyond the largest finite FP32 value? -/
def beyondFp32 (r : Int) : Bool := decide ((2 ^ 24 - 1) * 2 ^ 104 * fxOne < r)

/-- The FP32 result of a function whose true value is ±r: ∞ with its sign beyond the largest finite value, +0 below 2^-149 (R129; R139 gives the
softmax quotient no such rule), otherwise one of the values that the bound allows. -/
def nearValue (op a b : Nat) (narrow neg : Bool) (r : Int) : Nat :=
  if beyondFp32 r then fp32.signed neg 0x7F80_0000
  else if r * 2 ^ 149 < fxOne then (if op = 0x2C then Config.ulpPick op a b % 2 else 0)
  else
    let l := nearCodes narrow r
    let c := l.getD (Config.ulpPick op a b % l.length) 0
    fp32.signed neg c

/-- The result for a true value with its sign. -/
def nearSigned (op a b : Nat) (narrow : Bool) (r : Int) : Nat :=
  if r < 0 then nearValue op a b narrow true (-r) else nearValue op a b narrow false r

/-- Floor of the square root of n / d in units of 2^-512. -/
def sqrtFx (n d : Nat) : Int := (Nat.sqrt (n * 2 ^ 1024 / d) : Int)

/-- RCP of ±m × 2^e. -/
def rcpVal (p : Nat) (neg : Bool) (m : Nat) (e : Int) : Nat :=
  nearValue 0x14 p 0 false neg ((2 ^ 512 * pow2Den e / (m * pow2Num e) : Nat) : Int)

/-- The result of a transcendental stage at a finite non-zero p of value ±m × 2^e, where the function has a value (R129). -/
def transFin (op p : Nat) (neg : Bool) (m : Nat) (e : Int) : Nat :=
  let x := fxOf m e
  let sx := if neg then -x else x
  let big := fun (k : Int) => decide (k * fxOne ≤ x)
  match op with
  | 0x10 =>
    if big 200 then (if neg then 0 else 0x7F80_0000) else nearValue op p 0 true false (expFx sx)
  | 0x11 =>
    if big 200 then (if neg then 0 else 0x7F80_0000) else nearValue op p 0 true false (expFx (fxMul sx ln2Fx))
  | 0x12 => if m * pow2Num e = pow2Den e then 0 else nearSigned op p 0 true (lnFx m e)
  | 0x13 => if m * pow2Num e = pow2Den e then 0 else nearSigned op p 0 true (fxDiv (lnFx m e) ln2Fx)
  | 0x14 => rcpVal p neg m e
  | 0x15 => nearValue op p 0 false false (sqrtFx (m * pow2Num e) (pow2Den e))
  | 0x16 => nearValue op p 0 false false (sqrtFx (pow2Den e) (m * pow2Num e))
  | 0x17 => nearValue op p 0 false neg (if big 90 then fxOne - 1 else tanhFx x)
  | 0x18 => nearValue op p 0 false false (if big 200 then (if neg then 0 else fxOne - 1) else sigmFx sx)
  | 0x19 => nearValue op p 0 false neg (if big 6 then fxOne - 1 else erfFx x)
  | 0x1A => let r := trigFx 0 x; nearSigned op p 0 false (if neg then -r else r)
  | _ => nearSigned op p 0 false (trigFx 1 x)

/-- A transcendental stage (R129, R130). -/
def transc (op p : Nat) : Nat :=
  let isExp := op == 0x10 || op == 0x11
  let isLog := op == 0x12 || op == 0x13
  match v32 p with
  | .nan => nan32
  | .inf neg =>
    if isExp then (if neg then 0 else 0x7F80_0000)
    else if isLog || op == 0x15 then (if neg then nan32 else 0x7F80_0000)
    else if op = 0x14 then (if neg then 0x8000_0000 else 0)
    else if op = 0x16 then (if neg then nan32 else 0)
    else if op = 0x17 ∨ op = 0x19 then (if neg then 0xBF80_0000 else one32)
    else if op = 0x18 then (if neg then 0 else one32)
    else nan32
  | .fin neg m e =>
    if m = 0 then
      if isExp || op == 0x1B then one32
      else if isLog then 0xFF80_0000
      else if op = 0x14 ∨ op = 0x16 then fp32.signed neg 0x7F80_0000
      else if op = 0x18 then 0x3F00_0000
      else p
    else if (isLog || op == 0x15 || op == 0x16) && neg then nan32
    else transFin op p neg m e

/-- a ÷ b of two positive finite FP32 values, within 1 ulp (R139). -/
def quotNear (a b : Nat) : Nat :=
  match v32 a, v32 b with
  | .fin _ m x, .fin _ m' x' =>
    if m' = 0 ∨ m = 0 then 0
    else nearValue 0x2C a b false false ((2 ^ 512 * (m * pow2Num (x - x')) / (m' * pow2Den (x - x')) : Nat) : Int)
  | _, _ => divVal (v32 a) (v32 b)

/-- θ^(-2j ÷ HD), within 1 ulp (R143), for θ > 1 of code theta. -/
def ropeOmega (theta j hd : Nat) : Nat :=
  match v32 theta with
  | .fin _ m e => nearValue 0x33 theta (j * 1024 + hd) false false (expFx (-(lnFx m e * (2 * j) / hd)))
  | _ => nan32

end Sys2Proof.Machine
end

