-- ==== Sys2Proof/Machine/VxMath.lean ====
section
/-! DEFINITION. The vector engine's arithmetic (04): descriptors, stages, reductions, softmax, the position unit, the random
stage, and the times at which a chain's beats pass its stages. -/

namespace Sys2Proof.Machine
open Sys2Proof

/-! ## Chain descriptors (R123, R124) -/

def descWord (d : List Byte) (off : Nat) : Nat := codeAt d off 4
def dCtrl (d : List Byte) : Nat := descWord d 0
def dNst (d : List Byte) : Nat := bits (dCtrl d) 2 0 + 1
def dCfmt (d : List Byte) : Nat := bits (dCtrl d) 3 3
def dEw (d : List Byte) : Nat := bits (dCtrl d) 4 4
def dAfmt (d : List Byte) : Nat := bits (dCtrl d) 11 8
def dBfmt (d : List Byte) : Nat := bits (dCtrl d) 15 12
def dDfmt (d : List Byte) : Nat := bits (dCtrl d) 19 16
def dDrnd (d : List Byte) : Nat := bits (dCtrl d) 22 20
def dDmask (d : List Byte) : Bool := bit (dCtrl d) 23
def dAscale (d : List Byte) : Nat := bits (descWord d 4) 11 0
def dDscale (d : List Byte) : Nat := bits (descWord d 4) 23 12
def dBscale (d : List Byte) : Nat := bits (descWord d 8) 11 0
def dAmxrec (d : List Byte) : Nat := bits (descWord d 8) 23 12
def dFill (d : List Byte) : Nat := descWord d 0xC
def dK (d : List Byte) (i : Nat) : Nat := descWord d (0x10 + 4 * i)

/-- A stage word. -/
structure Stage where
  op : Nat
  sb : Nat
  sc : Nat
  imm : Nat
  deriving DecidableEq, Repr

def dStage (d : List Byte) (i : Nat) : Stage :=
  let w := descWord d (0x20 + 4 * i)
  ⟨bits w 31 26, bits w 25 22, bits w 21 18, bits w 17 0⟩

def dStages (d : List Byte) : List Stage := (List.range (dNst d)).map (dStage d)

/-- VLMAX and elements of a beat (R117). -/
def vlMax (ew : Nat) : Nat := if ew = 0 then 256 else 512
def beatLen (ew : Nat) : Nat := if ew = 0 then 64 else 128

/-- Operand specifiers of a bundle (R152). -/
inductive VxOpnd where
  | line (l : Nat)
  | reg (r : Nat)
  | none
  | bad
  deriving DecidableEq, Repr

def vxOpnd (v : Nat) : VxOpnd :=
  if bit v 17 then (if v % 2 ^ 17 ≤ 81919 then .line (v % 2 ^ 17) else .bad)
  else if bit v 16 then (if v % 2 ^ 16 = 0 then .none else .bad)
  else if bits v 15 5 = 0 then .reg (v % 32) else .bad

/-- Stage latency (R125); the macros and PERM time themselves (R150). -/
def stageLat (op : Nat) : Nat :=
  if op = 0x00 then 1
  else if op ≤ 0x0A then 4
  else if op = 0x0B then 2
  else if op = 0x0C then 3
  else if 0x10 ≤ op ∧ op ≤ 0x13 then 10
  else if 0x14 ≤ op ∧ op ≤ 0x1B then 12
  else if 0x20 ≤ op ∧ op ≤ 0x25 then 1
  else if op = 0x30 ∨ op = 0x31 ∨ op = 0x32 then 2
  else if op = 0x33 then 14
  else if op = 0x38 ∨ op = 0x3C ∨ op = 0x3D then 4
  else 0

def usesB (op : Nat) : Bool :=
  op == 0x01 || op == 0x02 || op == 0x03 || op == 0x04 || op == 0x05 || op == 0x06 || op == 0x09 || op == 0x0A || op == 0x0B
def usesC (op : Nat) : Bool := op == 0x04 || op == 0x0A
def isReduction (op : Nat) : Bool := decide (0x20 ≤ op ∧ op ≤ 0x25)

/-- Is the IMM of a stage free of reserved encodings (R125, R134, R143)? -/
def immOk (st : Stage) : Bool :=
  let i := st.imm
  if st.op = 0x09 then decide (i ≤ 6)
  else if st.op = 0x0C then decide (i < 256) && (Rnd.ofCode (bits i 6 4)).isSome && decide (bits i 3 0 ≤ 4)
  else if 0x20 ≤ st.op ∧ st.op ≤ 0x24 then decide (i < 8)
  else if st.op = 0x25 then decide (i < 32) && bits i 4 3 != 3
  else if st.op = 0x28 then decide (i < 32)
  else if st.op = 0x2E then decide (i < 64)
  else if st.op = 0x33 then bits i 17 9 == 0 && !bit i 4 && decide (1 ≤ bits i 3 0 ∧ bits i 3 0 ≤ 9)
  else if st.op = 0x38 then true
  else if st.op = 0x3C then decide (i < 32)
  else if st.op = 0x3D then decide (i < 4)
  else i == 0

def opKnown (op : Nat) : Bool :=
  decide (op ≤ 0x0C) || decide (0x10 ≤ op ∧ op ≤ 0x1B) || isReduction op || op == 0x28 || op == 0x2C || op == 0x2D || op == 0x2E
    || decide (0x30 ≤ op ∧ op ≤ 0x33) || op == 0x38 || op == 0x3C || op == 0x3D

/-- Operand selects that a stage uses. -/
def Stage.sels (st : Stage) : List Nat := (if usesB st.op then [st.sb] else []) ++ (if usesC st.op then [st.sc] else [])

/-- Summary slot that a stage writes, if it writes one. -/
def Stage.slot (st : Stage) : Option Nat :=
  if isReduction st.op then some (bits st.imm 1 0)
  else if st.op = 0x3C ∧ bit st.imm 4 then some (bits st.imm 3 2)
  else none

def hasDup (l : List Nat) : Bool := l.dedup.length != l.length

/-- Does a descriptor pass R126, for the operands of its CHAIN and the effective length? -/
def descOk (d : List Byte) (a b dst : VxOpnd) (cValid : Bool) (n : Nat) : Bool :=
  let sts := dStages d
  let nst := dNst d
  let idx := List.range nst
  let at_ := fun i => sts.getD i ⟨0, 0, 0, 0⟩
  let ctrl := dCtrl d
  let fmtBad := fun f => f == 6 || decide (9 ≤ f)
  let arith := fun f : Nat => decide (5 ≤ f)
  let usesFpk := sts.any (fun st => st.op == 0x3C)
  let usesFupk := sts.any (fun st => st.op == 0x3D)
  let ctrlOk := bits ctrl 31 24 == 0 && bits ctrl 7 5 == 0 && !(dEw d == 0 && dCfmt d == 1)
    && !fmtBad (dAfmt d) && !fmtBad (dBfmt d) && !fmtBad (dDfmt d) && (Rnd.ofCode (dDrnd d)).isSome
    && !(a != .none && !usesFupk && arith (dAfmt d)) && !(b != .none && arith (dBfmt d))
    && !(dst != .none && !usesFpk && arith (dDfmt d))
    && bits (descWord d 4) 31 24 == 0 && bits (descWord d 8) 31 24 == 0
  let scaleOk := !(badRec (dAscale d) || badRec (dDscale d) || badRec (dBscale d) || badRec (dAmxrec d))
  let selOk := idx.all fun i =>
    let st := at_ i
    opKnown st.op && immOk st && (usesB st.op || st.sb == 0) && (usesC st.op || st.sc == 0)
      && st.sels.all fun x =>
        x != 0xF && !(decide (8 ≤ x) && decide (i ≤ x - 8))
          && !(decide (8 ≤ x) && ((at_ (x - 8)).op == 0x2C || (at_ (x - 8)).op == 0x2D))
          && !(x == 1 && a == .none) && !(x == 2 && b == .none) && !(x == 3 && !cValid)
          && !(x == 0 && i == 0 && a == .none)
  let firstOk := a != .none || (at_ 0).op == 0x38
  let smxOk := idx.all fun i =>
    let op := (at_ i).op
    (op != 0x2C || ((at_ (i + 1)).op == 0x2D && (at_ (i + 2)).op == 0x2E && decide (i + 2 < nst)))
      && (op != 0x2D || (decide (1 ≤ i) && (at_ (i - 1)).op == 0x2C))
      && (op != 0x2E || (decide (1 ≤ i) && (at_ (i - 1)).op == 0x2D))
  let slotOk := !hasDup (sts.filterMap Stage.slot)
  let argOk := sts.all fun st => !(st.op == 0x24 && bit st.imm 2)
  let fpkOk := idx.all fun i =>
    (at_ i).op != 0x3C || (decide (i + 1 = nst) && (match dst with | .line _ => true | _ => false))
  let fupkOk := idx.all fun i =>
    (at_ i).op != 0x3D || (decide (i = 0) && (match a with | .line _ => true | _ => false))
  let lenOk := sts.all fun st =>
    if st.op = 0x3C ∨ st.op = 0x3D then
      let m := bits st.imm 1 0
      if m = 1 ∨ m = 2 then decide (n % 32 = 0) else if m = 3 then decide (n % 8 = 0) else true
    else true
  ctrlOk && scaleOk && selOk && firstOk && smxOk && slotOk && argOk && fpkOk && fupkOk && lenOk

/-- Bytes of a format's element in scratchpad. -/
def fmtBytes (f : Nat) : Nat :=
  match f with
  | 0 => 4 | 1 => 2 | 2 => 2
  | _ => 1

/-- Does a descriptor pass R122: register operand formats, and scratchpad operands within the scratchpad? -/
def descOperandsOk (d : List Byte) (a b dst : VxOpnd) (n : Nat) : Bool :=
  let regFmt := fun f => if dEw d = 0 then f == 0 else (f == 1 || f == 2)
  let fits := fun l bytes => decide (n = 0 ∨ l * 64 + bytes ≤ 81920 * 64)
  let sts := dStages d
  let fp := (sts.find? (fun st => st.op == 0x3C)).map (fun st => bits st.imm 1 0)
  let fu := (sts.find? (fun st => st.op == 0x3D)).map (fun st => bits st.imm 1 0)
  let src := fun (o : VxOpnd) f (packed : Option Nat) =>
    match o with
    | .reg _ => packed.isSome || regFmt f
    | .line l => fits l (match packed with | some m => packMax m n | none => n * fmtBytes f)
    | _ => true
  src a (dAfmt d) fu && src b (dBfmt d) none && src dst (dDfmt d) fp

/-! ## Elements -/

/-- An element in the pipe: its FP32 value and its live bit (R118, R132). -/
structure El where
  v : Nat
  live : Bool
  deriving DecidableEq, Repr

/-- What a chain does beside its outputs, by the element at which it does it. -/
inductive Eff where
  | sat
  | satRec (rec : Nat)
  | permRange (j : Nat)
  | posRange (pos : Nat)
  | nanRow
  | infRow
  | emptyRow
  | lost (fmt : Nat)
  deriving DecidableEq, Repr

/-- What the stages of a chain read beside their operands. -/
structure ChainEnv where
  d : List Byte
  n : Nat
  a : List Nat
  b : List Nat
  c : List Nat
  idx : List Nat
  posQ : Nat
  posK : Nat
  window : Nat
  rlog : Nat
  docs : List Nat
  key : Nat
  seq : Nat
  core : Nat
  dexp : Option Int

/-- FP32 codes. -/
def plusInf : Nat := 0x7F80_0000
def minusInf : Nat := 0xFF80_0000
def minusZero : Nat := 0x8000_0000

/-- COND of CMP (R125). -/
def condHolds (cond p b : Nat) : Bool :=
  let x := v32 p
  let y := v32 b
  let un := x.isNaN || y.isNaN
  match cond with
  | 0 => x.eqv y
  | 1 => un || !x.eqv y
  | 2 => x.lt y
  | 3 => x.lt y || x.eqv y
  | 4 => y.lt x
  | 5 => y.lt x || x.eqv y
  | _ => un

/-- Non-zero and not NaN, and zero or NaN (R125). -/
def truthy (b : Nat) : Bool :=
  match v32 b with
  | .nan => false
  | .inf _ => true
  | .fin _ m _ => m != 0

/-- Conversion of a pipe value, as a code of the format with what it counts (R128). -/
def cvtVal (fmt rnd : Nat) (scale : Option Int) (v r : Nat) : Conv :=
  ((fmtOf fmt).getD fp32).conv ((Rnd.ofCode rnd).getD .rne) scale (v32 v) r

/-- A code of a format widened to FP32 (R118). -/
def widen (fmt code : Nat) : Nat := rnVal (((fmtOf fmt).getD fp32).val code)

/-- Random 32 bits of a stage and element (R145). -/
def ChainEnv.hash (env : ChainEnv) (s i : Nat) : Nat :=
  ctrHash env.key env.seq ((env.core * 2 ^ 14 + s * 2 ^ 9 + i) % 2 ^ 32)

/-! ## Rows and positions (R140 to R143) -/

def posMax : Nat := 1048575
def ChainEnv.rowLen (env : ChainEnv) : Nat := 2 ^ env.rlog
def ChainEnv.q (env : ChainEnv) (i : Nat) : Nat := env.posQ + i / env.rowLen
def ChainEnv.k (env : ChainEnv) (i : Nat) : Nat := env.posK + i % env.rowLen

/-- The position of an element that exceeds the limit (R142), if one does. -/
def ChainEnv.outOfRange (env : ChainEnv) (i : Nat) : Option Nat :=
  if posMax < env.q i then some (env.q i) else if posMax < env.k i then some (env.k i) else none

def docOf (docs : List Nat) (p : Nat) : Nat := (docs.filter (fun x => decide (x ≤ p))).length

/-- Does a mask stage clear the live bit of element i (R141, R142)? -/
def ChainEnv.masked (env : ChainEnv) (op i : Nat) : Bool :=
  let q := env.q i
  let k := env.k i
  (env.outOfRange i).isSome ||
    (if op = 0x30 then decide (q < k)
     else if op = 0x31 then decide (q < k) || decide (env.window ≤ q - k)
     else docOf env.docs k != docOf env.docs q)

/-! ## Reductions (R133, R73, R74, R134) -/

/-- Merge of lane or tree results, of which either may be absent. -/
def mergeOpt {α : Type} (f : α → α → α) (a b : Option α) : Option α :=
  match a, b with
  | none, y => y
  | x, none => x
  | some x, some y => some (f x y)

/-- One level of the tree: results 2j and 2j + 1 give result j. -/
def treeLevel {α : Type} (f : α → α → α) : List (Option α) → List (Option α)
  | a :: b :: rest => mergeOpt f a b :: treeLevel f rest
  | l => l

/-- A reduction over the live elements in the order of R133: lanes by i mod 64 in ascending i, then six levels. -/
def laneReduce {α : Type} (f : α → α → α) (g : Nat → α) (l : List (Nat × El)) : Option α :=
  let live := l.filter (·.2.live)
  let lane := fun k => (live.filter (fun p => p.1 % 64 == k)).foldl
    (fun acc p => mergeOpt f acc (some (g p.2.v))) none
  let lanes := (List.range 64).map lane
  let t := (List.range 6).foldl (fun ls _ => treeLevel f ls) lanes
  t.headD none

/-- Compensated sum with its overflow flag. -/
def sumMerge (a b : Nat × Bool) : Nat × Bool :=
  let r := pairAdd a.1 b.1
  (r.1, a.2 || b.2 || r.2)

def rsum (l : List (Nat × El)) : Nat × Bool :=
  (laneReduce sumMerge (fun v => ((pairAddTerm 0 v).1, false)) l).getD (0, false)

/-- A square that overflows is an overflow of a finite input (R71, R84). -/
def rssq (l : List (Nat × El)) : Nat × Bool :=
  let sq := fun (v : Nat) => exactProd (v32 v) v
  (laneReduce sumMerge (fun v => (sq v, fin32 v && !fin32 (pairHi (sq v)))) l).getD (0, false)

def rmax (l : List (Nat × El)) : Nat := (laneReduce (fun a b => fp32.max a b) id l).getD minusInf
def rmin (l : List (Nat × El)) : Nat := (laneReduce (fun a b => fp32.min a b) id l).getD plusInf

/-- Order of argmax (R73): a NaN before all, then the larger value; -0 and +0 are equal. -/
def argBetter (a b : Nat) : Bool :=
  let x := v32 a
  let y := v32 b
  !y.isNaN && (x.isNaN || y.lt x)

def rarg (l : List (Nat × El)) : Nat :=
  (((l.filter (·.2.live)).foldl (fun (best : Option (Nat × Nat)) p =>
    match best with
    | none => some (p.1, p.2.v)
    | some (i, v) => if argBetter p.2.v v then some (p.1, p.2.v) else some (i, v)) none).map (·.1)).getD 0xFFFF_FFFF

def nonZeroOrNaN (v : Nat) : Bool :=
  match v32 v with
  | .fin _ m _ => m != 0
  | _ => true

/-- Kind and value of a reduction or STAT stage, and whether a sum overflowed (R135). -/
def reduceOp (st : Stage) (l : List (Nat × El)) : Nat × Nat × Bool :=
  let live := (l.filter (·.2.live)).map (·.2.v)
  match st.op with
  | 0x20 => let r := rsum l; (1, r.1, r.2)
  | 0x21 => let r := rssq l; (2, r.1, r.2)
  | 0x22 => (3, rmax l, false)
  | 0x23 => (4, rmin l, false)
  | 0x24 => (5, rarg l, false)
  | _ =>
    match bits st.imm 4 3 with
    | 0 => (6, (live.filter (fun v => !fin32 v)).length, false)
    | 1 => (7, b2n (live.any nonZeroOrNaN), false)
    | _ => (8, b2n (live.all nonZeroOrNaN), false)

/-- A summary slot after a stage (R136): its kind and value. -/
def combine (acc : Bool) (oldKind old kind new : Nat) : Nat × Bool :=
  if !acc || oldKind != kind then (new, false)
  else
    match kind with
    | 1 => pairAdd old new
    | 2 => pairAdd old new
    | 3 => (fp32.max old new, false)
    | 4 => (fp32.min old new, false)
    | 6 => (min (old + new) (2 ^ 64 - 1), false)
    | 9 => (min (old + new) (2 ^ 64 - 1), false)
    | 7 => (max old new, false)
    | 8 => (min old new, false)
    | _ => (new, false)

/-! ## Softmax (R139) -/

/-- exp of a non-positive difference, log of a sum. -/
def expOf (v : Nat) : Nat := transc 0x10 v
def logOf (v : Nat) : Nat := transc 0x12 v

/-- One row: outputs, lse, and the counter that it increments. -/
def softRow (l : List (Nat × El)) : List Nat × Nat × Option Eff :=
  let live := l.filter (·.2.live)
  let vals := live.map (·.2.v)
  if vals.any (fun v => (v32 v).isNaN) then (l.map fun _ => nan32, nan32, some .nanRow)
  else
    let isP := fun v => v32 v == Val.inf false
    let k := (vals.filter isP).length
    if 0 < k then
      let y := divVal (.fin false 1 0) (.fin false k 0)
      (l.map fun p => if p.2.live && isP p.2.v then y else 0, plusInf, some .infRow)
    else if vals.all (fun v => v32 v == Val.inf true) then (l.map fun _ => 0, minusInf, some .emptyRow)
    else
      let m := rmax l
      let e := l.map fun p => (p.1, ({ v := expOf (fsub p.2.v m), live := p.2.live } : El))
      let s := rnVal (pairVal (rsum e).1)
      (e.map fun p => if p.2.live then quotNear p.2.v s else 0, fadd m (logOf s), none)

/-! ## ROPE (R143) -/

def ropeStage (env : ChainEnv) (st : Stage) (p : List El) : List (El × Option Eff) :=
  let hlog := bits st.imm 3 0
  let hd := 2 ^ hlog
  let layout := bit st.imm 7
  let psel := bit st.imm 8
  let theta := dK env.d (bits st.imm 6 5)
  let thetaOk := match v32 theta with
    | .fin neg m e => !neg && Dy.lt ⟨1, 0⟩ ⟨m, e⟩
    | _ => false
  let x := fun i => if i < env.n then (p.getD i ⟨0, false⟩).v else 0
  (p.zip (List.range p.length)).map fun q =>
    let i := q.2
    let pos := (if psel then env.posK else env.posQ) + i / env.rowLen
    let far := match env.outOfRange i with
      | some f => some f
      | none => if posMax < pos then some pos else none
    let eff := far.map Eff.posRange
    if !thetaOk then (⟨nan32, q.1.live⟩, eff)
    else
      match far with
      | some _ => (⟨dFill env.d, q.1.live⟩, eff)
      | none =>
        let d := i % hd
        let lower := if layout then decide (d < hd / 2) else decide (d % 2 = 0)
        let partner := if layout then (if lower then i + hd / 2 else i - hd / 2) else (if lower then i + 1 else i - 1)
        let j := if layout then d % (hd / 2) else d / 2
        let a := rnVal (.mulv (.fin false pos 0) (v32 (ropeOmega theta j hd)))
        let sn := transc 0x1A a
        let cs := transc 0x1B a
        let v := if lower then ffma (x i) cs (fneg (fmul (x partner) sn)) else ffma (x partner) sn (fmul (x i) cs)
        (⟨v, q.1.live⟩, none)

/-! ## A whole chain -/

/-- What evaluating a chain gives: the stages' outputs so far (first stage first), effects by element, summaries (slot,
kind, acc, value, overflow) by stage, the LSE register's values, and the packed bytes of an FPK. -/
structure ChainRes where
  outs : List (List El) := []
  effs : List (Nat × Eff) := []
  sums : List (Nat × Nat × Nat × Bool × Nat × Bool) := []
  lse : Option (Nat × List Nat) := none
  packed : Option (List Byte) := none

/-- Operand of a select (R124) for element i. -/
def ChainEnv.operand (env : ChainEnv) (prev : List El) (outs : List (List El)) (sel i : Nat) : Nat :=
  match sel with
  | 0 => (prev.getD i ⟨0, false⟩).v
  | 1 => env.a.getD i 0
  | 2 => env.b.getD i 0
  | 3 => env.c.getD i 0
  | 4 => dK env.d 0 | 5 => dK env.d 1 | 6 => dK env.d 2 | 7 => dK env.d 3
  | k => ((outs.getD (k - 8) []).getD i ⟨0, false⟩).v

/-- An element-wise stage on one element: value, live bit, effect. -/
def elemOp (env : ChainEnv) (s : Nat) (st : Stage) (i : Nat) (e : El) (b c : Nat) : El × Option Eff :=
  let p := e.v
  let keep := fun v => ((⟨v, e.live⟩ : El), (none : Option Eff))
  match st.op with
  | 0x01 => keep (fadd p b)
  | 0x02 => keep (fsub p b)
  | 0x03 => keep (fmul p b)
  | 0x04 => keep (ffma p b c)
  | 0x05 => keep (fp32.min p b)
  | 0x06 => keep (fp32.max p b)
  | 0x07 => keep (if (v32 p).isNaN then nan32 else p % 2 ^ 31)
  | 0x08 => keep (fneg p)
  | 0x09 => keep (if condHolds (st.imm % 8) p b then one32 else 0)
  | 0x0A => keep (if truthy p then b else c)
  | 0x0B => (⟨p, e.live && truthy b⟩, none)
  | 0x0C =>
    let fmt := bits st.imm 3 0
    let use := bit st.imm 7
    let scale := if use then env.dexp else none
    let r := cvtVal fmt (bits st.imm 6 4) scale p (env.hash s i % 65536)
    (⟨widen fmt r.code, e.live⟩,
      if r.counted then some (if scale.isSome then .satRec (dDscale env.d) else .sat) else none)
  | 0x38 =>
    let h := env.hash s i
    if bit st.imm 17 then keep (if bits h 31 15 < bits st.imm 16 0 then 0 else one32)
    else keep (rnVal (.fin false (bits h 31 8) (-24)))
  | op =>
    if 0x10 ≤ op ∧ op ≤ 0x1B then keep (transc op p)
    else if op = 0x30 ∨ op = 0x31 ∨ op = 0x32 then
      (⟨p, e.live && !env.masked op i⟩, (env.outOfRange i).map .posRange)
    else keep p

/-- One stage of a chain over its whole vector. -/
def chainStage (env : ChainEnv) (res : ChainRes) (s : Nat) : ChainRes :=
  let st := dStage env.d s
  let prev := if s = 0 then (List.range env.n).map (fun i => (⟨env.a.getD i 0, true⟩ : El)) else res.outs.getD (s - 1) []
  let ix := List.range prev.length
  let pairs := ix.zip prev
  match st.op with
  | 0x28 =>
    let r := pairs.map fun p =>
      let j := env.idx.getD p.1 0
      if j < env.n then (prev.getD j ⟨0, false⟩, (none : Option Eff))
      else (⟨dFill env.d, true⟩, some (.permRange j))
    { res with outs := res.outs ++ [r.map (·.1)]
               effs := res.effs ++ (ix.zip r).filterMap (fun p => p.2.2.map (fun e => (p.1, e))) }
  | 0x2E =>
    let x := res.outs.getD (s - 3) prev
    let x := if s = 2 then (List.range env.n).map (fun i => (⟨env.a.getD i 0, true⟩ : El)) else x
    let rows := groupsOf env.rowLen (x.length + 1) ((List.range x.length).zip x)
    let rs := rows.map fun r => (r, softRow r)
    let ys := rs.flatMap fun r => (r.1.zip r.2.1).map fun p => (⟨p.2, p.1.2.live⟩ : El)
    let effs := rs.filterMap fun r => r.2.2.2.map fun e => (((r.1.getLast?).map (·.1)).getD 0, e)
    { res with outs := res.outs ++ [ys], effs := res.effs ++ effs
               lse := if bit st.imm 5 then some (bits st.imm 4 0, rs.map (·.2.2.1)) else res.lse }
  | 0x33 =>
    let r := ropeStage env st prev
    { res with outs := res.outs ++ [r.map (·.1)]
               effs := res.effs ++ (ix.zip r).filterMap (fun p => p.2.2.map (fun e => (p.1, e))) }
  | 0x3C =>
    let codes := prev.map fun e => (cvtVal 1 0 none e.v 0).code
    let (bytes, lost) := fullPack (bits st.imm 1 0) codes (prev.map fun e => v32 e.v)
    let fmt := if bits st.imm 1 0 = 2 then 5 else 7
    { res with outs := res.outs ++ [prev], packed := some bytes
               effs := if lost = 0 then res.effs else res.effs ++ [(0, .lost fmt)]
               sums := if bit st.imm 4 then res.sums ++ [(s, bits st.imm 3 2, 9, false, bytes.length, false)] else res.sums }
  | _ =>
    if isReduction st.op then
      let r := reduceOp st pairs
      { res with outs := res.outs ++ [prev]
                 sums := res.sums ++ [(s, bits st.imm 1 0, r.1, bit st.imm 2, r.2.1, r.2.2)] }
    else
      let r := pairs.map fun p =>
        elemOp env s st p.1 p.2 (env.operand prev res.outs st.sb p.1) (env.operand prev res.outs st.sc p.1)
      { res with outs := res.outs ++ [r.map (·.1)]
                 effs := res.effs ++ (ix.zip r).filterMap (fun p => p.2.2.map (fun e => (p.1, e))) }

/-- All stages of a chain. -/
def chainEval (env : ChainEnv) : ChainRes := (List.range (dNst env.d)).foldl (chainStage env) {}

/-! ## Times (R149, R150) -/

/-- Is the stage one that takes the whole vector? -/
def isWhole (op : Nat) : Bool := op == 0x28 || op == 0x2C || op == 0x2D || op == 0x2E

/-- L of R150. -/
def chainL (d : List Byte) : Nat := ((dStages d).map fun st => stageLat st.op).sum

/-- ACLK in which each beat leaves a stage, from those in which it enters; `t0` is when the last beat entered SMX1. -/
def stageTimes (st : Stage) (t0 : Nat) (ts : List Nat) : List Nat :=
  let n := ts.length
  if st.op = 0x28 then (List.range n).map fun b => ts.getLastD 0 + 2 + b
  else if st.op = 0x2E then (List.range n).map fun b => t0 + n + 32 + b
  else ts.map (· + stageLat st.op)

/-- Times at which the beats leave stages 0, 1, …; `ents` in beat order. -/
def chainTimes (d : List Byte) (ents : List Nat) : List (List Nat) :=
  ((dStages d).foldl (fun (acc : List (List Nat) × List Nat × Nat) st =>
    let ts := acc.2.1
    let t0 := if st.op = 0x2C then ts.getLastD 0 else acc.2.2
    let ts' := stageTimes st t0 ts
    (acc.1 ++ [ts'], ts', t0)) ([], ents, 0)).1

/-- ACLK in which each beat's result is written: one after it leaves the last stage. -/
def writeTimes (d : List Byte) (ents : List Nat) : List Nat := ((chainTimes d ents).getLastD []).map (· + 1)

/-- ACLK in which the last beat leaves the last PERM or softmax macro; 0 without one (R149). -/
def wholeEnd (d : List Byte) (ents : List Nat) : Nat :=
  ((dStages d).zip (chainTimes d ents)).foldl (fun a p => if isWhole p.1.op then p.2.getLastD 0 else a) 0

/-- ACLK in which the summary of stage s is written (R150). -/
def sumTime (d : List Byte) (ents : List Nat) (s : Nat) : Nat := ((chainTimes d ents).getD s []).getLastD 0 + 10

end Sys2Proof.Machine
end

