-- ==== Sys2Proof/Machine/VxOps.lean ====
section
/-! DEFINITION. The vector engine's operations (04): sources, beats, summaries, document tables, enabling. -/

namespace Sys2Proof.Machine
open Sys2Proof

def State.vxReject (s : State) (c op reason : Nat) : State := s.rejectBundle c 0x4010 op reason
def State.vxOff (s : State) (c : Nat) : Bool := s.fget F.VX_STATUS_STATE c != eENABLED

/-! ## CHAIN fields (R152) -/

def VxChain.cid (q : VxChain) : Nat := bits q.payload 75 70
def VxChain.opA (q : VxChain) : VxOpnd := vxOpnd (bits q.payload 69 52)
def VxChain.opB (q : VxChain) : VxOpnd := vxOpnd (bits q.payload 51 34)
def VxChain.opD (q : VxChain) : VxOpnd := vxOpnd (bits q.payload 33 16)
def VxChain.cValid (q : VxChain) : Bool := bit q.payload 15
def VxChain.creg (q : VxChain) : Nat := bits q.payload 14 10
def VxChain.beats (q : VxChain) : Nat := (q.n + beatLen (dEw q.desc) - 1) / beatLen (dEw q.desc)
def VxChain.elemBytes (q : VxChain) : Nat := if dEw q.desc = 0 then 4 else 2
def VxChain.entered (q : VxChain) : Bool := q.desc != [] && decide (q.beats ≤ q.ents.length)
def VxChain.fupk (q : VxChain) : Option Nat :=
  let st := dStage q.desc 0
  if st.op = 0x3D then some (bits st.imm 1 0) else none
def VxChain.times (q : VxChain) : List Nat := writeTimes q.desc q.ents.reverse
def VxChain.hasWhole (q : VxChain) : Bool := (dStages q.desc).any (fun st => isWhole st.op)
def VxChain.idxReg (q : VxChain) : Option Nat := ((dStages q.desc).find? (fun st => st.op == 0x28)).map (fun st => st.imm % 32)
def VxChain.lseReg (q : VxChain) : Option Nat :=
  ((dStages q.desc).find? (fun st => st.op == 0x2E && bit st.imm 5)).map (fun st => st.imm % 32)

/-- Is beat b of register r still to be written by the chain (R149)? -/
def VxChain.owes (q : VxChain) (r b : Nat) : Bool :=
  ((q.opD == .reg r) && decide (q.wrote ≤ b ∧ b < q.beats)) || (q.lseReg == some r && decide (q.wrote < q.beats))

/-- Does any earlier chain owe beat b of register r? -/
def Vx.owed (x : Vx) (id r b : Nat) : Bool := x.chains.any (fun q => decide (q.id < id) && q.owes r b)

/-- Does any earlier chain owe any beat of register r? -/
def Vx.owedAny (x : Vx) (id r : Nat) : Bool := (List.range 4).any (fun b => x.owed id r b)

def Vx.regBytes (x : Vx) (r off n : Nat) : List Byte := mgets 0 x.v (r * 1024 + off) n

/-- Elements [i, i + n) of a register, as codes of the chain's width. -/
def Vx.regElems (x : Vx) (r w i n : Nat) : List Nat :=
  (List.range n).map fun j => leNat (x.regBytes r ((i + j) * w) w)

/-! ## Sources (R120, R152) -/

/-- Lines of a scratchpad source, from its first: those that hold elements 0 to n - 1. -/
def State.srcLines (s : State) (c : Nat) (q : VxChain) (line fmt : Nat) (packed : Option Nat) : Nat :=
  let bytes := match packed with
    | some m => packedLen m q.n (s.spBytes c (64 * line) (packMax m q.n))
    | none => q.n * fmtBytes fmt
  (bytes + 63) / 64

/-- A chain's scratchpad sources are presented on VX_A and VX_B so that the first may arrive at the earliest beat entry
(log entry 9). -/
def State.vxPresent (s : State) (c : Nat) (q : VxChain) (tb : Nat) : State :=
  let go := fun (s : State) (o : VxOpnd) (port fmt : Nat) (packed : Option Nat) =>
    match o with
    | .line l => (List.range (s.srcLines c q l fmt packed)).foldl
        (fun s k => s.present c port (l + k) (.vxSrc q.id port k) none tb) s
    | _ => s
  let s := go s q.opA pVX_A (dAfmt q.desc) q.fupk
  go s q.opB pVX_B (dBfmt q.desc) none

/-- Bytes [from, from + n) of a scratchpad source that have arrived, with the last arrival; nothing if some line is
missing. -/
def State.srcBytes (s : State) (c : Nat) (q : VxChain) (port from_ n : Nat) : Option (List Byte × Nat) :=
  if n = 0 then some ([], 0)
  else
    let k0 := from_ / 64
    let k1 := (from_ + n - 1) / 64
    let x := s.spCore c
    let r := (List.range (k1 + 1 - k0)).foldl (fun (a : Option (List Byte × Nat)) i =>
      match a, x.got (.vxSrc q.id port (k0 + i)) with
      | some (l, t), some g => some (l ++ g.data, max t g.tb)
      | _, _ => none) (some ([], 0))
    r.map fun p => ((p.1.drop (from_ - 64 * k0)).take n, p.2)

/-- Source values of one beat: FP32 codes after widening and scaling (R118, R123), with the last arrival. -/
def State.srcBeat (s : State) (c : Nat) (q : VxChain) (o : VxOpnd) (port fmt rec b : Nat) : Option (List Nat × Nat) :=
  let i0 := b * beatLen (dEw q.desc)
  let n := min q.n (i0 + beatLen (dEw q.desc)) - i0
  let sc := fun code =>
    let v := widen fmt code
    if rec = 0xFFF then v else rnVal ((v32 v).mulv (.fin false 1 (-(s.scaleExp rec))))
  match o with
  | .none => some ([], 0)
  | .bad => some ([], 0)
  | .reg r =>
    let x := s.vxc c
    if x.owed q.id r b then none
    else some ((x.regElems r q.elemBytes i0 n).map sc, 0)
  | .line l =>
    match (if port = pVX_A then q.fupk else none) with
    | some m =>
      let len := 64 * s.srcLines c q l fmt (some m)
      (s.srcBytes c q port 0 len).map fun p => (((fullUnpack m q.n fp32 p.1).drop i0).take n, p.2)
    | none =>
      let w := fmtBytes fmt
      (s.srcBytes c q port (i0 * w) (n * w)).map fun p => ((List.range n).map (fun j => sc (codeAt p.1 (j * w) w)), p.2)

/-- Is the chain's document table there (R152)? -/
def Vx.docsReady (x : Vx) (q : VxChain) : Bool :=
  !((dStages q.desc).any (fun st => st.op == 0x32)) || !(x.docWait.any (fun d => d.id == q.docId))

/-- What the chain's stages read (R123, R145). -/
def State.vxEnv (s : State) (c : Nat) (q : VxChain) : ChainEnv :=
  let x := s.vxc c
  { d := q.desc, n := q.n, a := q.a, b := q.b, c := q.c, idx := q.idx, posQ := q.posQ, posK := q.posK, window := q.window
    rlog := q.rlog, docs := mget [] x.docs q.docId, key := s.fget F.VX_RNG_KEY_VALUE c, seq := q.seq, core := c
    dexp := if dDscale q.desc = 0xFFF then none else some (s.scaleExp (dDscale q.desc)) }

/-! ## Write buffer (R149) -/

def SpCore.vxBeats (x : SpCore) : List Nat :=
  ((mget [] x.reqs pVX_W).filterMap fun r =>
    match r.use with
    | .vxW b _ => some b
    | _ => none).dedup

/-! ## Effects of elements -/

def State.vxSaturated (s : State) (c n : Nat) : State :=
  if n = 0 then s
  else
    let s := s.count .VX_SAT_COUNT n c
    if s.flag F.VX_CTRL_SAT_EVT c then s.raiseLim 0x4011 kCORE c (s.rd .VX_SAT_COUNT c).toNat else s

def State.vxEff (s : State) (c : Nat) (p : Nat × Eff) : State :=
  match p.2 with
  | .sat => s.vxSaturated c 1
  | .satRec r => s.recSaturated r 1
  | .permRange j =>
    let s := s.fset F.VX_STATUS_PERM_RANGE 1 c
    if s.flag F.VX_CTRL_PERM_EVT c then s.raiseLim 0x4012 kCORE c (j + p.1 * 2 ^ 16) else s
  | .posRange pos =>
    let s := s.fset F.VX_STATUS_POS_RANGE 1 c
    if s.flag F.VX_CTRL_POS_EVT c then s.raiseLim 0x4013 kCORE c pos else s
  | .nanRow => s.count .VX_NAN_ROWS 1 c
  | .infRow => s.count .VX_INF_ROWS 1 c
  | .emptyRow => s.count .VX_EMPTY_ROWS 1 c
  | .lost fmt => s.nonfiniteLost c fmt

/-! ## Summaries (R135, R136) -/

/-- Write one summary. -/
def State.vxSum (s : State) (c : Nat) (slot kind : Nat) (acc : Bool) (v : Nat) (ovf : Bool) : State :=
  let kinds := s.rd .VX_SUM_KIND c
  let old := bits kinds.toNat (4 * slot + 3) (4 * slot)
  let r := combine acc old (s.rd .VX_SUM c slot).toNat kind v
  let s := s.wr .VX_SUM_KIND (BitVec.ofNat 64 (setBits kinds.toNat (4 * slot + 3) (4 * slot) kind)) c
  let s := s.wr .VX_SUM (BitVec.ofNat 64 r.1) c slot
  if r.2 || ovf then s.accOverflow c else s

/-- Last summary time of a chain whose beats have all entered; 0 without a summary. -/
def VxChain.sumEnd (q : VxChain) : Nat :=
  ((List.range (dNst q.desc)).filter (fun i => (dStage q.desc i).slot.isSome)).foldl
    (fun a i => max a (sumTime q.desc q.ents.reverse i)) 0

/-- Write the summaries of a chain. -/
def State.vxSums (s : State) (c : Nat) (q : VxChain) : State :=
  let s := (chainEval (s.vxEnv c q)).sums.foldl (fun s r => s.vxSum c r.2.1 r.2.2.1 r.2.2.2.1 r.2.2.2.2.1 r.2.2.2.2.2) s
  let x := s.vxc c
  s.setVx c { x with chains := x.chains.map fun y => if y.id = q.id then { y with sumsDone := true } else y }

/-- Write the summaries that are due by now, chain after chain in release order (R136); `upto` are written in any case. -/
def State.vxSettle (s : State) (c upto : Nat) : State :=
  ((s.vxc c).chains.foldl (fun (acc : State × Bool) q =>
    if acc.2 then acc
    else if q.sumsDone then acc
    else if q.entered && (decide (q.id < upto) || decide (0 < q.beats ∧ q.sumEnd ≤ acc.1.clk.tb)) then (acc.1.vxSums c q, false)
    else (acc.1, true)) (s, false)).1

/-! ## Document tables (R152, R153) -/

/-- DOCLDs whose register has no write owed are read; entries not strictly ascending reject the bundle with reason 0x4. -/
def State.vxDocs (s : State) (c : Nat) : State :=
  (s.vxc c).docWait.foldl (fun s d =>
    let x := s.vxc c
    let r := bits d.payload 75 71
    let n := bits d.payload 70 62
    if !(x.docWait.any (fun e => e.id == d.id)) then s
    else if x.chains.any (fun q => decide (q.id < d.upto) && (q.desc == [] || (List.range 4).any (q.owes r))) then s
    else
      let l := (x.regElems r 4 0 n).map (· % 2 ^ 20)
      let asc := (l.zip (l.drop 1)).all (fun p => decide (p.1 < p.2))
      let s := s.setVx c { x with docs := mput [] x.docs d.id l, docWait := x.docWait.filter (fun e => e.id != d.id) }
      if asc then s else s.vxReject c 5 4) s

/-! ## Release of a chain (R147, R153) -/

/-- Does the chain draw random values (R147)? -/
def drawsRandom (d : List Byte) (dst : VxOpnd) : Bool :=
  (dStages d).any (fun st => st.op == 0x38 || (st.op == 0x0C && bits st.imm 6 4 == 4))
    || (dst != .none && dDrnd d == 4 && !((dStages d).any fun st => st.op == 0x3C))

/-- Tests of a chain against a descriptor (R122, R126, R156). -/
def chainReason (q : VxChain) (d : List Byte) (n : Nat) : Option Nat :=
  if d = [] then some 3
  else lowestReason [(!descOk d q.opA q.opB q.opD q.cValid n, 3), (!descOperandsOk d q.opA q.opB q.opD n, 4)]

/-- A chain whose descriptor is there and passes: its length, its random sequence value and its sources. -/
def State.vxAccept (s : State) (c : Nat) (q : VxChain) (d : List Byte) (ready tb : Nat) : State :=
  let q := { q with desc := d, n := min q.n (vlMax (dEw d)), ready := ready, waitLoad := none }
  let seq := s.fget F.VX_RNG_SEQ_VALUE c
  let s := if drawsRandom d q.opD then s.fset F.VX_RNG_SEQ_VALUE ((seq + 1) % 2 ^ 32) c else s
  let q := { q with seq := s.fget F.VX_RNG_SEQ_VALUE c, presented := true }
  let x := s.vxc c
  (s.setVx c { x with chains := x.chains.map fun y => if y.id = q.id then q else y }).vxPresent c q tb

/-- A drain covering every chain released so far (R151). -/
def Vx.drainNow (x : Vx) (d : Nat) (arrive : Bool) (ctr : Nat) : Drain :=
  let t : Option Nat :=
    if x.nextId = 0 then some 0
    else if x.chains.any (fun q => q.id + 1 == x.nextId) then none
    else some (x.lastDone.getD 0)
  ⟨d, x.nextId, t, arrive, ctr⟩

/-- A write of VX_CTRL.ENABLE (R155). -/
def State.vxEnable (s : State) (c : Nat) (v : Bool) : State :=
  let s := s.fset F.VX_CTRL_ENABLE (b2n v) c
  let st := s.fget F.VX_STATUS_STATE c
  let x := s.vxc c
  if v then
    if st = eDISABLED then (s.setVx c { x with enabling := some s.clk.tb }).fset F.VX_STATUS_STATE eENABLING c
    else if st = eSTOPPING then s.fset F.VX_STATUS_ENABLE_PENDING 1 c
    else s
  else if st = eENABLED then
    (s.setVx c { x with stopping := some (x.drainNow s.clk.tb false 0) }).fset F.VX_STATUS_STATE eSTOPPING c
  else if st = eENABLING then (s.setVx c { x with enabling := none }).fset F.VX_STATUS_STATE eDISABLED c
  else s.fset F.VX_STATUS_ENABLE_PENDING 0 c

/-- Cut bytes that begin at scratchpad byte b into line writes, byte i being written only where `keep` says so. -/
def cutKeep (b : Nat) (data : List Byte) (keep : List Bool) : List (Nat × Nat × List Byte) :=
  (cutLines b data).map fun l =>
    let first := if 64 * l.1 < b then b - 64 * l.1 else 0
    let base := 64 * l.1 + first - b
    let mask := (List.range 64).foldl (fun m i =>
      if bit l.2.1 i && keep.getD (base + i - first) false then m + 2 ^ i else m) 0
    (l.1, mask, l.2.2)

end Sys2Proof.Machine
end

