-- ==== Sys2Proof/Machine/EpOps.lean ====
section
/-! DEFINITION. The Epru's operations (05): beginning and ending an instruction, exceptions, writing bundles into the issue
queues. -/

namespace Sys2Proof.Machine
open Sys2Proof

/-- EP_STATUS.STATE (05, "Epru registers"). -/
def epIDLE : Nat := 0
def epRUN : Nat := 1
def epWAIT_CTR : Nat := 2
def epWAIT_BAR : Nat := 3
def epWAIT_QUEUE : Nat := 4
def epWAIT_TAG : Nat := 5
def epWAIT_REG : Nat := 6
def epSTOPPED : Nat := 7

def State.epState (s : State) (c : Nat) : Nat := s.fget F.EP_STATUS_STATE c
def State.setEpState (s : State) (c st : Nat) : State := s.fset F.EP_STATUS_STATE st c

/-- Value of an Epru register; g0 reads 0 (R157). -/
def State.g (s : State) (c r : Nat) : Nat := if r = 0 then 0 else mget 0 (s.core c).g r

/-- Write an Epru register modulo 2^64, readable from ACLK t on; writes to g0 are discarded (R157, R161). -/
def State.setG (s : State) (c r v t : Nat) : State :=
  if r = 0 then s
  else
    let e := s.core c
    s.setCore c { e with g := mput 0 e.g r (v % 2 ^ 64), ready := mput 0 e.ready r t }

/-- Sign-extended 16-bit immediate, as a number modulo 2^64 (R159). -/
def sext16 (imm : Nat) : Nat := ofSigned 64 (toSigned 16 imm)
def sext21 (imm : Nat) : Int := toSigned 21 imm

/-- An Epru exception (R164): the tract faults with cause 0x03, or an Epru in no running slot stops at the instruction. -/
def State.epException (s : State) (c : Nat) : State :=
  if s.running c then s.tractFault c 0x03 else s.setEpState c epSTOPPED

/-- An instruction of core c begins that reads registers `srcs` (R158, R161): at the first CCLK edge at which the Epru is
free and the registers may be read; the stalled CCLK are counted. Nothing if the Epru is not running. -/
def State.epBegin (s : State) (c : Nat) (srcs : List Nat) : Option State :=
  if s.epState c ≠ epRUN then none
  else
    let e := s.core c
    let nat := upTo 4 (max s.clk.tb e.next)
    let b := srcs.foldl (fun a r => max a (if r = 0 then 0 else mget 0 e.ready r)) nat
    let b := upTo 4 b
    let s := s.atTb b
    let s := if b = nat then s else s.count .EP_WAIT_CCLK ((b - nat) / 4) c
    some (s.count .EP_INSTRUCTIONS 1 c)

/-- ACLK in which the instruction that has begun began. -/
def State.epNow (s : State) (c : Nat) : Nat := max s.clk.tb (s.core c).next

/-- The Epru goes on at PC pc after n CCLK; a PC beyond 16,383 is an exception (R164). -/
def State.epGoto (s : State) (c : Nat) (pc : Int) (n : Nat) : State :=
  if pc < 0 ∨ 16383 < pc then s.epException c
  else
    let e := s.core c
    (s.setCore c { e with next := s.clk.tb + 4 * n }).fset F.EP_STATUS_PC pc.toNat c

/-- The Epru goes on with the next instruction after n CCLK. -/
def State.epDone (s : State) (c n : Nat) : State := s.epGoto c ((s.pc c : Int) + 1) n

/-- An instruction that computes a register (R160): value `v` of the state at its beginning, latency `lat` CCLK. -/
def State.epAlu (s : State) (c rd : Nat) (srcs : List Nat) (lat : Nat) (v : State → Nat) : State :=
  match s.epBegin c srcs with
  | none => s
  | some s => (s.setG c rd (v s) (s.clk.tb + 4 * lat)).epDone c 1

/-! ## Bundles (R165 to R171) -/

def bQ (b : Nat) : Nat := bits b 127 126
def bTs (b : Nat) : Nat := bits b 123 84
def bDefer (b : Nat) : Bool := bit b 83
def bPayload (b : Nat) : Nat := bits b 79 0
def bOp (b : Nat) : Nat := bits b 79 76

/-- Entries of an issue queue (R166). -/
def queueCap (q : Nat) : Nat := if q = 2 then 32 else 64

/-- Target address of a fabric bundle, formed when it is written (R246). -/
def State.fabTarget (s : State) (c payload : Nat) : Nat :=
  let op := bits payload 79 76
  let treg := if op = 4 then bits payload 27 24 else bits payload 36 33
  let toff := if op = 4 then bits payload 23 0 else bits payload 32 9
  if op = 2 ∨ op = 3 ∨ op = 4 then ((s.rd .FB_TGT c treg).toNat + 64 * toff) % 2 ^ 64 else 0

/-- Does every byte of a fabric bundle's target lie in the scratchpad of a core of c's tract (R248)? -/
def State.targetInTract (s : State) (c target lines : Nat) : Bool :=
  bits target 53 46 == 0 && s.isOwn (gMid target) &&
    match s.region (gLocal target) (64 * lines) with
    | .sp d _ => s.sameTract c d
    | _ => false

/-- Is a stream/route bundle idempotent (R170, R248, R315)? Reserved opcodes are not tested. -/
def State.idempotent (s : State) (c payload target : Nat) : Bool :=
  match bits payload 79 76 with
  | 2 => (bits payload 46 44 == 0 && !bit payload 43) || s.targetInTract c target (bits payload 58 47 + 1)
  | 4 => s.targetInTract c target (bits payload 58 47 + 1)
  | 9 => false
  | 13 => false
  | _ => true

/-- What writing a bundle gives. -/
inductive WrRes where
  | done (s : State)
  | full
  | fault (s : State)

/-- The Epru writes one bundle in ACLK t with its TS increased by `add` (R166, R168, R169, R171). -/
def State.epWrite (s : State) (c b add t : Nat) : WrRes :=
  let e := s.core c
  let q := bQ b
  let ts := bTs b + add
  let payload := bPayload b
  let target := if q = 2 then s.fabTarget c payload else 0
  if q = 3 ∨ bits b 125 124 ≠ 0 ∨ bits b 82 80 ≠ 0 ∨ (bDefer b ∧ q ≠ 2) ∨ 2 ^ 40 - 1 < ts then .fault (s.tractFault c 0x02)
  else if bDefer b then
    if ts ≠ 0 then .fault (s.tractFault c 0x02)
    else if 32 ≤ e.defq.length then .fault (s.tractFault c 0x09)
    else .done (s.setCore c { e with defq := e.defq ++ [⟨0, payload, target⟩] })
  else if ts < mget 0 e.lastTs q then .fault (s.tractFault c 0x02)
  else if q = 2 ∧ !s.idempotent c payload target then .fault (s.tractFault c 0x02)
  else if queueCap q ≤ ((e.queue q).filter (fun x => decide (t ≤ x.rel))).length then .full
  else
    let rel := e.segBase + ts
    let last := mget (0, 0) e.lastRel q
    if rel < t + 4 ∨ (last.1 = rel ∧ 4 ≤ last.2) ∨ (q = 2 ∧ rel < e.srFree) then .fault (s.tractFault c 0x01)
    else
      let e := e.setQueue q (e.queue q ++ [⟨rel, payload, target⟩])
      let e := { e with
        lastTs := mput 0 e.lastTs q ts
        lastRel := mput (0, 0) e.lastRel q (if last.1 = rel then (rel, last.2 + 1) else (rel, 1)) }
      let s := s.setCore c e
      .done (if q = 0 ∧ bOp b = 2 then s.mxPassWritten c payload else s)

/-- The Epru writes bundles one a CCLK from ACLK t on; a full queue leaves it waiting with those still to be written
(R166, R169). -/
def State.epWriteAll (s : State) (c add t : Nat) : List Nat → State
  | [] =>
    let e := s.core c
    let s := (s.setCore c { e with wait := .none }).setEpState c epRUN
    let s := s.epDone c 1
    if s.epState c ≠ epRUN then s
    else
      let e := s.core c
      s.setCore c { e with next := t }
  | b :: rest =>
    match s.epWrite c b add t with
    | .done s => s.epWriteAll c add (t + 4) rest
    | .full =>
      let e := s.core c
      (s.setCore c { e with wait := .queue (b :: rest) add, next := t }).setEpState c epWAIT_QUEUE
    | .fault s => s

end Sys2Proof.Machine
end

