-- ==== Sys2Proof/Machine/FabOps.lean ====
section
/-! DEFINITION. The wafer fabric's operations (07): endpoints and stops, routing, discards, answers, packets that a core
reads out of and writes into its scratchpad. -/

namespace Sys2Proof.Machine
open Sys2Proof

/-! ## Endpoints (R233, R236, R254) -/

/-- Rim ring stop of a channel's stack, a Brim port, or the host's corner (R254). -/
def stopOf (ep : Nat) : Nat :=
  if 0x8000 ≤ ep ∧ ep < 0x8300 then
    (let pair := (ep - 0x8000) / 64
     pair / 3 * 4 + 1 + pair % 3)
  else if 0x8400 ≤ ep ∧ ep < 0x8406 then 4 * ((ep - 0x8400) / 2)
  else if 0x8420 ≤ ep ∧ ep < 0x8425 then (16 - (ep - 0x8420)) % 16
  else if 0x8428 ≤ ep ∧ ep < 0x842D then 4 + (ep - 0x8428)
  else 12

/-- Field column and row of a stop (R254). -/
def stopField (k : Nat) : Nat × Nat :=
  if k ≤ 4 then (k, 0) else if k ≤ 8 then (4, k - 4) else if k ≤ 12 then (12 - k, 4) else (0, 16 - k)

/-- Is the code a destination of the mesh (R233)? -/
def destOk (d : Nat) : Bool :=
  decide (d < 18000) || decide (0x8000 ≤ d ∧ d < 0x8300) || decide (0x8400 ≤ d ∧ d < 0x8406) || decide (0x8410 ≤ d ∧ d ≤ 0x8412)

/-- Has the header a reserved encoding (R231 to R234)? -/
def packetReserved (p : Packet) : Bool :=
  p.typ == 0 || decide (12 ≤ p.typ) || !destOk p.dest || p.wop == 7 || decide (1000 ≤ p.mid ∧ p.mid ≠ 1023)

def clampTo (x lo hi : Nat) : Nat := min (max x lo) hi

/-- The core through which endpoint `ep` is reached from core (r, c), or reaches it (R236). -/
def edgeCore (ep r c : Nat) : Nat :=
  let (fx, fy) := stopField (stopOf ep)
  if fx = 0 then clampTo r (24 * fy) (24 * fy + 23) * 150
  else if fx = 4 then clampTo r (24 * fy) (24 * fy + 23) * 150 + 149
  else if fy = 0 then clampTo c (30 * fx) (30 * fx + 29)
  else 119 * 150 + clampTo c (30 * fx) (30 * fx + 29)

/-- Output port of the router of core c for destination d (R235, R236): 0 N, 1 E, 2 S, 3 W, 4 local, 5 edge. -/
def outPort (c d : Nat) : Nat :=
  let t := if d < 18000 then d else edgeCore d (c / 150) (c % 150)
  if t = c then (if d < 18000 then 4 else 5)
  else if t % 150 ≠ c % 150 then (if c % 150 < t % 150 then 1 else 3)
  else if c / 150 < t / 150 then 2 else 0

/-- The core beyond a mesh port. -/
def neighbour (c out : Nat) : Nat :=
  match out with
  | 0 => c - 150
  | 1 => c + 1
  | 2 => c + 150
  | _ => c - 1

/-- The input port at which a mesh link ends. -/
def opposite (out : Nat) : Nat := (out + 2) % 4

/-- Has the router of core c a mesh link or edge port in a direction (R228, R229)? -/
def hasLink (c out : Nat) : Bool :=
  let r := c / 150
  let col := c % 150
  match out with
  | 0 => decide (0 < r)
  | 1 => decide (col < 149)
  | 2 => decide (r < 119)
  | 3 => decide (0 < col)
  | _ => col == 0 || col == 149 || ((r == 0 || r == 119) && decide (30 ≤ col ∧ col ≤ 119))

/-- Is a link marked down at either end (R253)? -/
def State.linkDown (s : State) (c out : Nat) : Bool :=
  if 4 ≤ out then s.flag F.FB_STATUS_EDGE_DOWN c
  else bit (s.fget F.FB_STATUS_LINK_DOWN c) out || bit (s.fget F.FB_STATUS_LINK_DOWN (neighbour c out)) (opposite out)

/-! ## Answers and discards (R240, R252) -/

/-- The answer to a request: type, STATUS, data and poison. -/
def packetReply (p : Packet) (typ status : Nat) (data : List Byte := []) (poison : Bool := false) : Packet :=
  { typ := typ, dest := p.src, src := p.dest, addr := p.addr, lenm1 := if data.isEmpty then 0 else data.length - 1
    rid := if typ = Packet.RDR then p.rid else 0, flags := status, data := data, poison := poison, op := p.op }

def stOK : Nat := 0
def stADDRESS : Nat := 1
def stREFUSED : Nat := 2

/-- The answer that a refused or discarded request gets (R252); other packets get none. -/
def packetRefusal (p : Packet) (status : Nat) : Option Packet :=
  if p.typ = Packet.WR ∨ p.typ = Packet.RED ∨ p.typ = Packet.AMAX then some (packetReply p Packet.WACK status)
  else if p.typ = Packet.RD then some (packetReply p Packet.RDR status (zeros (p.lenm1 + 1)))
  else if p.typ = Packet.REGRD then some (packetReply p Packet.REGR status (zeros 4))
  else if p.typ = Packet.REGWR then some (packetReply p Packet.REGR status)
  else none

/-- A rim endpoint presents a packet at TB t (R236, R238, R254): onto the ring for another rim endpoint, else through the
edge port of the entry core. -/
def State.rimSend (s : State) (p : Packet) (t : Nat) : State :=
  let t := upTo 2 t
  if p.dest < 18000 then s.send p (.router (edgeCore p.src (p.dest / 150) (p.dest % 150))) (t + 4) 5
  else s.send p (.ring (stopOf p.src)) t 32

/-- A unit presents a packet of its own at TB t: a core through its port (R238), another unit at the rim. -/
def State.present1 (s : State) (p : Packet) (t : Nat) : State :=
  if p.src < 18000 then s.inject p.src p t else s.rimSend p t

/-- Core whose router counts and names a discard (R252): the destination's, or for a rim endpoint the exit core of core c. -/
def dropCore (p : Packet) (c : Nat) : Nat := if p.dest < 18000 then p.dest else edgeCore p.dest (c / 150) (c % 150)

/-- SRC field of the header (R231). -/
def packetSrc (p : Packet) : Nat :=
  if p.typ = Packet.RED ∨ p.typ = Packet.AMAX ∨ p.typ = Packet.BAR then p.count else p.src

/-- A packet is discarded with a reason and answered (R234, R252); `c` is the core at whose router it stands. -/
def State.discard (s : State) (c : Nat) (p : Packet) (reason : Nat) : State :=
  let d := dropCore p c
  let s := s.count .FB_DROPPED 1 d
  let s := s.raiseLim 0x5002 kCORE d (p.typ + reason * 2 ^ 4 + packetSrc p * 2 ^ 16)
  if reason = 5 then s
  else
    match packetRefusal p stREFUSED with
    | none => s
    | some a => s.send a (.router c) (upTo 2 s.clk.tb + 4)

/-- A packet leaves the router of core c in NCLK-time t: it is at the next router, or at its destination port, 2 NCLK later
(R238), unless its link is down (R252). -/
def State.forward (s : State) (c : Nat) (p : Packet) (t : Nat) : State :=
  let out := outPort c p.dest
  if out = 4 then s.send p (.port c) (t + 4)
  else if s.linkDown c out then s.discard c p 4
  else if out = 5 then s.send p (.rim p.dest) (t + 8) 32
  else s.send p (.router (neighbour c out)) (t + 4) (opposite out)

/-- Is the domain of a core held in reset (R252)? Start-up releases the core domains in phase P5; the domain of a field that
runs on bypass is in reset (R445). -/
def State.coreHeld (s : State) (c : Nat) : Bool := !s.boot.coresUp || s.boot.bypass.contains (5 * 32 + fieldOf c)

/-- Reason for which a core's router discards a packet for it (R252). -/
def State.dropReason (s : State) (c : Nat) : Option Nat :=
  if s.parked c || s.fget F.PWR_STATUS_STATE == 2 then some 1 else if s.coreHeld c then some 2 else if s.unusable c then some 3 else none

/-- A packet is presented to the port of core c: it is taken out of flight, and discarded if R252 says so. -/
def State.atPort (s : State) (c : Nat) (p : Packet) : State × Bool :=
  let s := s.take p (.port c)
  match s.dropReason c with
  | some r => (s.discard c p r, false)
  | none => (s.count .FB_DELIVERED 1 c, true)

/-! ## Merge stages (R242, R243) -/

def packetMergeable (p : Packet) : Bool := p.typ == Packet.RED || p.typ == Packet.AMAX

/-- Have two packets one key (R242)? -/
def packetSameKey (p q : Packet) : Bool :=
  p.typ == q.typ && p.dest == q.dest && p.addr == q.addr &&
    (p.typ == Packet.AMAX ||
      (p.mid == q.mid && p.lenm1 == q.lenm1 && p.rid == q.rid && p.rid != 0 && p.arrive == q.arrive && p.ctr == q.ctr))

/-- Two payloads of PAIR64 elements, element by element, and the offsets of elements that overflow (R243). -/
def pairPayload (a b : List Byte) : List Byte × List Nat :=
  (List.range (a.length / 8)).foldl (fun acc i =>
    let (v, ov) := pairAdd (leNat ((a.drop (8 * i)).take 8)) (leNat ((b.drop (8 * i)).take 8))
    (acc.1 ++ leBytes 8 v, if ov then acc.2 ++ [8 * i] else acc.2)) ([], [])

/-- Two amax payloads (R243). -/
def amaxPayload (a b : List Byte) : List Byte :=
  leBytes 4 (amaxCode (leNat (a.take 4)) (leNat (b.take 4))) ++
    leBytes 4 (min (leNat ((a.drop 4).take 4) + leNat ((b.drop 4).take 4)) 0xFFFF_FFFF)

/-- The merge of packet b into packet a (R243), with the offsets of elements that overflow. -/
def packetMerge (a b : Packet) : Packet × List Nat :=
  let (d, ov) := if a.typ = Packet.AMAX then (amaxPayload a.data b.data, []) else pairPayload a.data b.data
  ({ a with data := d, count := a.count + b.count, poison := a.poison || b.poison }, ov)

/-! ## Reading out of and writing into a core's scratchpad -/

/-- Scratchpad byte of a module-local address in a core's slot. -/
def spOff (addr : Nat) : Nat := addr % slotBytes

/-- Names of a core's operations in `Packet.op`: fabric bundles, SAVEs and the prefetcher's reads (an amax report bears 3). -/
def opFab (id : Nat) : Nat := 4 * id
def opSave (id : Nat) : Nat := 4 * id + 1
def opPf (k : Nat) : Nat := 4 * k + 2

/-- The core reads n bytes from scratchpad byte b through FAB_OUT for a packet (R247); its lines are presented from TB t. -/
def State.fabRead (s : State) (c : Nat) (p : Packet) (b n t : Nat) : State :=
  let x := s.fb c
  let first := b / 64
  let lines := (b + n - 1) / 64 + 1 - first
  let s := s.setFb c { x with
    nextId := x.nextId + 1
    tx := x.tx ++ [{ id := x.nextId, hdr := p, line := first, nlines := lines, off := b % 64 }] }
  (List.range lines).foldl (fun s i => s.present c pFAB_OUT (first + i) (.fabTx x.nextId i) none t) s

/-- The core writes bytes at scratchpad byte b through FAB_IN (R217). -/
def State.fabWrite (s : State) (c : Nat) (p : Packet) (b wop : Nat) (data : List Byte) (poison : Bool) : State :=
  let x := s.fb c
  let ls := cutLines b data
  let s := s.setFb c { x with nextId := x.nextId + 1, rx := x.rx ++ [⟨x.nextId, p, ls.length⟩] }
  ls.foldl (fun s l => s.present c pFAB_IN l.1 (.fabRx x.nextId) (some ⟨l.2.1, l.2.2, wop, poison⟩) s.clk.tb) s

/-- Cuts of a run of n lines to target address g (R247): offset and length of each packet in lines. -/
def State.cutRun (s : State) (g n : Nat) : List (Nat × Nat) :=
  let a := gLocal g
  let edge := fun (i : Nat) =>
    let b := a + 64 * i
    i % 8 == 0 ||
      (if a < stackEnd then b % 2 ^ s.ilvLog == 0
       else if spWindow ≤ a ∧ a < regWindow then (b - spWindow) % slotBytes == 0
       else false)
  let starts := (List.range n).filter fun i => i == 0 || edge i
  starts.zip (starts.drop 1 ++ [n]) |>.map fun p => (p.1, p.2 - p.1)

/-- One more packet of a core's fabric operation has completed; the last one completes the operation (R247). -/
def State.fabOpDone (s : State) (c id : Nat) : State :=
  let x := s.fb c
  s.setFb c { x with
    ops := (x.ops.map fun o => if o.id = id then { o with left := o.left - 1 } else o).filter (fun o => decide (o.left ≠ 0)) }

/-- A payload that FAB_IN has written whole in the NCLK that began at TB t (R217, R240, R244, R247). -/
def State.fabWhole (s : State) (c : Nat) (p : Packet) (t : Nat) : State :=
  let s := s.atTb (t + 1)
  if p.typ = Packet.RDR then
    let s := match (s.fb c).ops.find? (fun o => opFab o.id == p.op) with
      | some o => if o.arrive then s.arrive c o.ctr 1 o.external else s
      | none => s
    s.fabOpDone c (p.op / 4)
  else
    let ext := !(decide (p.src < 18000) && s.sameTract c p.src)
    let s := if p.arrive then s.arrive c p.ctr (if p.typ = Packet.RED then p.count else 1) ext else s
    s.inject c (packetReply p Packet.WACK stOK) s.clk.tb

/-- The lines of a packet that FAB_OUT has read (R221, R250): it leaves, poisoned if a check failed; the core's own operation
then latches the rerun. -/
def State.fabTxDone (s : State) (c : Nat) (x : FabTx) (t : Nat) : State :=
  let n := x.hdr.lenm1 + 1
  let bytes := ((List.range x.nlines).flatMap fun i => mget [] x.got i)
  let p := { x.hdr with data := (bytes.drop x.off).take n, poison := x.hdr.poison || x.bad }
  if p.typ = Packet.RDR then s.inject c p t
  else (if x.bad then s.latchRerun c 0 else s).coreSend c p t

/-- An access of FAB_OUT has been served: line k of read `id`. -/
def State.fabTxLine (s : State) (c id k : Nat) (data : List Byte) (bad : Bool) (t : Nat) : State :=
  let y := s.fb c
  match y.tx.find? (fun x => x.id == id) with
  | none => s
  | some x =>
    let x := { x with got := mput [] x.got k data, bad := x.bad || bad }
    if x.got.length < x.nlines then s.setFb c { y with tx := y.tx.map fun z => if z.id = id then x else z }
    else (s.setFb c { y with tx := y.tx.filter (fun z => z.id != id) }).fabTxDone c x (t + 2)

/-- An access of FAB_IN has been served: one line of write `id`. -/
def State.fabRxLine (s : State) (c id t : Nat) : State :=
  let y := s.fb c
  match y.rx.find? (fun x => x.id == id) with
  | none => s
  | some x =>
    if 1 < x.left then s.setFb c { y with rx := y.rx.map fun z => if z.id = id then { z with left := z.left - 1 } else z }
    else (s.setFb c { y with rx := y.rx.filter (fun z => z.id != id) }).fabWhole c x.hdr t

/-! ## Bow writes at a core (R258 to R260) -/

/-- A captured Bow line for the held loader (R90, R91), or a line it has read: line k of the tile arrives at TB t. -/
def State.mxCapture (s : State) (c rel k : Nat) (data : List Byte) (t : Nat) : State :=
  let x := s.mxc c
  match x.loads.find? (fun l => l.begun && l.rel == rel) with
  | none => s
  | some l =>
    let got := if l.got.contains k then l.got else l.got ++ [k]
    s.setMx c { x with
      loads := x.loads.map fun m => if m.begun ∧ m.rel = rel then { m with got := got, last := max m.last t } else m
      shadow := { x.shadow with lines := mput [] x.shadow.lines k data, cap := got.length } }

/-- A Bow write at a core may now be complete: all its lines have passed and been served; the NCLK of the last began at TB t
(R259, R260). The increment is stamped (R300). -/
def State.bowCheck (s : State) (c id t : Nat) : State :=
  let y := s.spCore c
  match y.bow.find? (fun w => w.id == id) with
  | none => s
  | some w =>
    if w.passed ≤ w.hdr.nlm1 ∨ w.left ≠ 0 then s
    else
      let live := fun (k : Nat) => (mget [] s.bow (c / 150)).any fun b => b.id == k
      let s := s.setSp c { y with
        bow := y.bow.filter (fun z => z.id != id), bowDone := (y.bowDone ++ [id]).filter live }
      if w.hdr.arrive ∧ !w.lost then
        let s := (s.atTb (t + 1)).arrive c w.hdr.ctr 1 true
        let x := s.stpc c
        s.setStp c { x with stamps := mput 0 x.stamps w.hdr.ctr s.clk.wt }
      else s

/-- An access or row of a Bow write has been served in the NCLK that began at TB t. -/
def State.bowServed (s : State) (c id t : Nat) : State :=
  let y := s.spCore c
  (s.setSp c { y with bow := y.bow.map fun w => if w.id = id then { w with left := w.left - 1 } else w }).bowCheck c id t

/-- A Bow line is discarded at a core (R260). -/
def State.bowDrop (s : State) (c line : Nat) (unavailable : Bool) : State :=
  (s.count .FB_BOW_DROPS 1 c).raiseLim 0x5005 kCORE c (line + b2n unavailable * 2 ^ 20)

/-! ## Fabric bundles (R246 to R249) -/

/-- A stream/route bundle is released from the queue (2) or among the deferred ones (3): state, release ACLK and target. -/
def State.popFab (s : State) (c q payload : Nat) : State × Nat × Nat :=
  let held := ((s.core c).queue q).any (fun b => b.payload == payload)
  let (s', rel, t) := s.popBundle c q payload
  (s', rel, if held then t else s.fabTarget c payload)

/-- A fabric or stream/route bundle is rejected (R249, R263). -/
def State.fabReject (s : State) (c op reason : Nat) : State := s.rejectBundle c 0x5006 op reason

/-- Reason to reject a fabric bundle (R249). -/
def fabReason (payload target : Nat) : Option Nat :=
  let op := bits payload 79 76
  let a := gLocal target
  let wop := bits payload 46 44
  let resv := if op = 2 then wop == 7 || bits payload 8 0 != 0
    else if op = 3 then wop != 0 || bits payload 8 0 != 0
    else false
  let host := decide (hostWindow ≤ a ∧ a < 0x4000_0000_0000)
  lowestReason [(resv, 1), (target % 64 != 0, 2), (decide (81919 < bits payload 75 59 + bits payload 58 47), 3),
    (decide (regWindow ≤ a ∧ a < hostWindow), 4), (host && ((op == 2 && wop != 0) || op == 4), 5)]

/-- FB_UNBACKED of a core (R251). -/
def State.unbackedCore (s : State) (c g : Nat) : State := s.raiseLim 0x5001 kCORE c g

/-- A released FWR, FRD or FRED (R247, R251): its packets, each tested against R43 on its own. -/
def State.fabBundle (s : State) (c q payload : Nat) : State :=
  let op := bits payload 79 76
  let (s, rel, target) := s.popFab c q payload
  match fabReason payload target with
  | some r => s.fabReject c op r
  | none =>
    let line := bits payload 75 59
    let n := bits payload 58 47 + 1
    let cuts := s.cutRun target n
    let x := s.fb c
    let id := x.nextId
    let arr := if op = 4 then bit payload 34 else bit payload 43
    let ctr := if op = 4 then bits payload 33 28 else bits payload 42 37
    let o : FabOp := {
      id := id, op := op, external := q == 3, left := cuts.length, line := line, nlines := n, target := target
      arrive := arr, ctr := ctr }
    let s := s.setFb c { x with nextId := id + 1, ops := x.ops ++ [o] }
    (cuts.zip (List.range cuts.length)).foldl (fun s ck =>
      let g := (target + 64 * ck.1.1) % 2 ^ 64
      let len := 64 * ck.1.2
      let b := 64 * (line + ck.1.1)
      match s.destOf g len (s.classProf 0) with
      | none =>
        let s := s.unbackedCore c g
        if op = 3 then
          s.fabWrite c { typ := Packet.RDR, dest := c, src := c, op := opFab id, rid := ck.2, lenm1 := len - 1 } b 0 (zeros len) false
        else s.fabOpDone c id
      | some (dest, mid) =>
        let p : Packet := {
          typ := if op = 2 then Packet.WR else if op = 3 then Packet.RD else Packet.RED
          dest := dest, src := c, addr := gLocal g, lenm1 := len - 1, mid := mid, op := opFab id }
        if op = 3 then s.coreSend c { p with rid := ck.2 } rel
        else if op = 2 then s.fabRead c { p with wop := bits payload 46 44, arrive := arr, ctr := ctr } b len rel
        else s.fabRead c { p with rid := bits payload 46 35, arrive := arr, ctr := ctr } b len rel) s

end Sys2Proof.Machine
end

