-- ==== Sys2Proof/Machine/Matrix.lean ====
section
/-! DEFINITION. Meanings of the matrix engine's commands (03). A released bundle's command carries bits [75:0] of its
payload; the opcode is the command's. -/

namespace Sys2Proof.Machine
open Sys2Proof

/-- The payload of a bundle with opcode op. -/
def withOp (op : Nat) (payload : BitVec 76) : Nat := op * 2 ^ 76 + payload.toNat

/-- MX_NOP (R113). -/
def execMxNop (core : Core) (payload : BitVec 76) (s : State) : Out :=
  let s := (s.popBundle core 0 (withOp 0 payload)).1
  match lowestReason [(payload.toNat != 0, 1), (s.mxOff core, 2)] with
  | some r => .next (s.mxReject core 0 r)
  | none => .next s

/-- MX_LOAD (R89, R92, R114): a bank that is to be filled. -/
def execMxLoad (core : Core) (payload : BitVec 76) (s : State) : Out :=
  let p := withOp 1 payload
  let (s, rel, _) := s.popBundle core 0 p
  let fmt := bits p 57 54
  match lowestReason [(bits p 41 0 != 0 || (mxFamily fmt).isNone || decide (81919 < bits p 75 59 + tileLines fmt - 1), 1),
      (s.mxOff core, 2), (badRec (bits p 53 42), 6)] with
  | some r => .next (s.mxReject core 1 r)
  | none =>
    let x := s.mxc core
    let (waits, after) := match x.lastSwap with
      | none => (none, rel + 1)
      | some (id, none) => (some id, rel + 1)
      | some (_, some t) => (none, max (rel + 1) (t + 65))
    .next (s.setMx core { x with loads := x.loads ++ [⟨p, rel, waits, after, false, [], 0⟩] })

/-- MX_LOAD_BEGIN (R92): the first LOAD that has not begun and waits for no swap begins; an earlier one is abandoned. With
SRC = 0 its lines are presented on MX_HELD, one an NCLK. -/
def execMxLoadBegin (core : Core) (s : State) : Out :=
  let x := s.mxc core
  match x.loads.find? (fun l => !l.begun) with
  | none => .next s
  | some l =>
    if l.waits.isSome then .next s
    else
      let s := s.atTb l.after
      let y := s.spCore core
      let held := fun u : SpUse =>
        match u with
        | .held _ _ => true
        | _ => false
      let s := s.setSp core { y with
        reqs := (y.reqs.map fun p => (p.1, p.2.filter (fun r => !held r.use))).filter (fun p => !p.2.isEmpty)
        rx := y.rx.filter (fun r => !held r.use) }
      let x := s.mxc core
      let later := (x.loads.filter (fun k => !k.begun)).drop 1
      let sh : MxTile := { x.shadow with hfmt := bits l.payload 57 54, hscale := bits l.payload 53 42, cap := 0 }
      let s := (s.setMx core { x with loads := { l with begun := true } :: later, shadow := sh }).fset
        F.MX_STATUS_SHADOW_FULL 0 core
      let lines := if bit l.payload 58 then 0 else loadLines l.payload
      .next ((List.range lines).foldl
        (fun s i => s.present core pMX_HELD (bits l.payload 75 59 + i) (.held l.rel i) none (s.clk.tb + 2 * i)) s)

/-- MX_LOAD_COMPLETE (R91): four ACLK after the arrival of the tile's last line the shadow bank is full. -/
def execMxLoadComplete (core : Core) (s : State) : Out :=
  let x := s.mxc core
  match x.loads.find? (fun l => l.begun && decide (loadLines l.payload ≤ l.got.length)) with
  | none => .next s
  | some l =>
    let s := s.atTb (l.last + 4)
    let x := s.mxc core
    .next ((s.setMx core { x with loads := x.loads.erase l }).fset F.MX_STATUS_SHADOW_FULL 1 core)

/-- MX_PASS (R99, R114): checked at its release and queued. -/
def execMxPass (core : Core) (payload : BitVec 76) (s : State) : Out :=
  let p := withOp 2 payload
  let (s, rel, _) := s.popBundle core 0 p
  let s := if (s.mxc core).passes.any (fun q => !q.released && q.payload == p) then s else s.mxPassWritten core p
  let x := s.mxc core
  match x.passes.find? (fun q => !q.released && q.payload == p) with
  | none => .next s
  | some q =>
    match lowestReason [(bits p 18 0 != 0 || (mxFamily q.mfmt).isNone || decide (5 < q.slide) || decide (81919 < q.lastLine), 1),
        (s.mxOff core, 2), (badRec (bits p 46 35), 6)] with
    | some r =>
      .next ((s.setMx core { x with passes := x.passes.erase q }).mxReject core 2 r)
    | none =>
      let q' := { q with released := true, rel := rel }
      let s := s.setMx core { x with
        passes := x.passes.map (fun y => if y.id = q.id then q' else y)
        relId := q.id + 1
        lastSwap := if q.swap then some (q.id, none) else x.lastSwap }
      .next (s.fset F.MX_STATUS_DRAINED 0 core)

/-- MX_PASS_FIRST_ENTRY (R93, R99, R102, R104, R110, R114): the oldest released pass that has not begun, once the pass
before it has entered all its vectors, its first vector stands complete and the write buffer has room. -/
def execMxPassFirstEntry (core : Core) (s : State) : Out :=
  let x := s.mxc core
  match x.passes.find? (fun p => !p.begun) with
  | none => .next s
  | some p =>
    if !p.released || (x.passes.any fun q => q.begun && !q.entered) then .next s
    else
      match s.mxComplete core p 0 with
      | none => .next s
      | some arr =>
        let sub := p.stride - 1
        let nat := max (max (p.rel + 16) (match x.lastT with | none => 0 | some t => t + 1)) (x.topBound p)
        let t := max (max (nat + sub) arr) s.clk.tb
        if s.mxFull core t then .next s
        else
          let s := s.atTb t
          let x := s.mxc core
          let tile := if p.swap then (if x.shadow.hfmt = 15 then { x.shadow with hfmt := p.mfmt } else x.shadow) else x.held
          let epi := mget 0 x.epi (bits p.payload 23 22)
          let ofmt := bits epi 73 70
          let past := fun (line b : Nat) => decide (81920 * 64 < line * 64 + p.nOut * 32 * b)
          let reasons :=
            [((p.out && decide (epi = 0)) || (!p.swap && !s.flag F.MX_STATUS_HELD_VALID core), 3),
             (p.out && decide (epi ≠ 0) && (past (bits epi 54 38) (outSize ofmt)
                || (decide (bits epi 34 33 ≠ 0) && past (bits epi 32 16) (if bit epi 15 then 2 else 4))), 1),
             (tile.hfmt != 15 && decide (mxFamily tile.hfmt ≠ mxFamily p.mfmt), 4),
             (p.slide != 0 && !(tile.hfmt == 1 || tile.hfmt == 2), 5)]
          match lowestReason reasons with
          | some r => .next ((s.setMx core { x with passes := x.passes.erase p }).mxReject core 2 r)
          | none =>
            let full := s.flag F.MX_STATUS_SHADOW_FULL core
            let s :=
              if p.swap then
                let s := s.setMx core { x with
                  held := tile
                  loads := x.loads.map (fun l =>
                    if l.waits = some p.id then { l with waits := none, after := max l.after (t - sub + 65) } else l)
                  lastSwap := match x.lastSwap with
                    | some (id, u) => if id = p.id then some (id, some (t - sub)) else some (id, u)
                    | none => none }
                let s := s.fset F.MX_STATUS_HELD_VALID 1 core
                if full then s
                else (s.raise 0x3003 kCORE core (min tile.cap 63)).latchRerun core 1
              else s
            let seq := s.fget F.MX_SR_SEQ_VALUE core
            let sr := p.out && decide (bits epi 69 67 = 4) && decide (ofmt ≠ 8)
            let s := if sr then s.fset F.MX_SR_SEQ_VALUE ((seq + 1) % 2 ^ 32) core else s
            let os := bits epi 66 55
            let p' := { p with
              begun := true, tile := tile, epi := epi, srSeq := seq
              ea := s.scaleExp tile.hscale, eb := s.scaleExp (bits p.payload 46 35)
              oe := if os = 0xFFF then none else some (s.scaleExp os)
              check := (s.rd .MX_CHECK core).toNat }
            .next (s.mxEnter core p' t (t - sub - nat))

/-- MX_VECTOR_ENTRY (R95): the next vector of the pass that is entering, or one ACLK of stall. -/
def execMxVectorEntry (core : Core) (s : State) : Out :=
  let x := s.mxc core
  match x.passes.find? (fun p => p.begun && !p.entered) with
  | none => .next s
  | some p =>
    let sub := p.stride - 1
    let nat := p.nextEntry
    let stalled := ((s.atTb (nat + sub)).count .MX_STALL_ACLK 1 core).setMx core { x with
      passes := x.passes.map fun q => if q.id = p.id then { q with nextEntry := nat + 1 } else q }
    match s.mxComplete core p p.ents.length with
    | none => .next stalled
    | some arr =>
      let t := max (max (nat + sub) arr) s.clk.tb
      if s.mxFull core t then .next stalled else .next (s.mxEnter core p t (t - sub - nat))

/-- MX_VECTOR_COMPLETE (R103, R105 to R107, R546): the oldest vector in the array leaves the collector. -/
def execMxVectorComplete (core : Core) (s : State) : Out :=
  match (s.mxc core).vecs with
  | [] => .next s
  | w :: rest =>
    let s := s.atTb (w.t + 69)
    let x := s.mxc core
    let s := s.setMx core { x with vecs := rest }
    match x.passes.find? (fun p => p.id == w.pass) with
    | none => .next s
    | some p =>
      let passNo := (s.rd .MX_PASSES core).toNat + x.passes.findIdx (fun q => q.id == w.pass)
      let s :=
        if w.verdict = 1 then
          let s := s.count .MX_CHECK_MISMATCHES 1 core
          let s := (s.wr .MX_MISMATCH_INFO (BitVec.ofNat 64 (w.v % 256 + passNo % 2 ^ 24 * 256)) core)
          let s := (s.wr .MX_MISMATCH_D (BitVec.ofNat 64 w.d) core).wr .MX_MISMATCH_A (BitVec.ofNat 64 w.a) core
          (s.raiseLim 0x3001 kCORE core (w.d + w.a * 2 ^ 32)).latchRerun core 1
        else if w.verdict = 2 then s.count .MX_CHECK_SKIPS 1 core
        else s
      if !p.out then .next s
      else
        let epi := p.epi
        let ofmt := bits epi 73 70
        let fuse := bits epi 34 33
        let fb := if bit epi 15 then 2 else 4
        let fbyte := bits epi 32 16 * 64 + w.v * 32 * fb
        let flines := if fuse = 0 then [] else (cutLines fbyte (zeros (32 * fb))).map (·.1)
        let s := flines.foldl (fun s l => (s.spRead core l pMX_COLL).1) s
        let fdata := s.spBytes core fbyte (32 * fb)
        let f := (List.range 32).map fun n =>
          if fb = 2 then bf16.val (codeAt fdata (2 * n) 2) else fp32.val (codeAt fdata (4 * n) 4)
        let ys := collectRow p.ea p.eb fuse w.outs f
        let key := s.fget F.MX_SR_KEY_VALUE core
        let cs := (ys.zip (List.range 32)).map fun y =>
          collectConv ofmt (bits epi 69 67) p.oe y.1
            (ctrHash key p.srSeq (2 ^ 31 + core.val * 2 ^ 14 + w.v * 32 + y.2) % 65536)
        let sat := (cs.filter (·.counted)).length
        let s := match p.oe with
          | some _ => s.recSaturated (bits epi 66 55) sat
          | none => s.mxSaturated core sat
        let amax := (ys.map (·.amax)).foldl max p.amax
        let nf := p.nf + (ys.filter (fun y => !y.isFin)).length
        let n := outSize ofmt
        let data := cs.flatMap fun r => leBytes n r.code
        let x := s.mxc core
        let s := s.setMx core { x with
          nextRow := x.nextRow + 1
          passes := x.passes.map fun q => if q.id = p.id then { q with amax := amax, nf := nf } else q }
        let wop := destWop (bits epi 37 36) ofmt
        let lines := cutLines (bits epi 54 38 * 64 + w.v * 32 * n) data
        .next ((lines.zip (List.range lines.length)).foldl
          (fun s l => s.present core pMX_COLL l.1.1 (.out x.nextRow l.2) (some ⟨l.1.2.1, l.1.2.2, wop, false⟩) s.clk.tb) s)

/-- MX_OUTPUT_ROW_SERVED (R546): MX_COLL serves the lines of the oldest row that holds a place. -/
def execMxOutputRowServed (core : Core) (s : State) : Out :=
  match (s.spCore core).outRows with
  | [] => .next s
  | row :: _ =>
    let mine := fun u : SpUse =>
      match u with
      | .out r _ => r == row
      | _ => false
    .next (s.serveAll core pMX_COLL mine 5)

/-- MX_PASS_COMPLETE (R103, R115): the oldest pass, once its last vector has left the collector. -/
def execMxPassComplete (core : Core) (s : State) : Out :=
  let x := s.mxc core
  match x.passes with
  | [] => .next s
  | p :: rest =>
    if !p.entered || x.vecs.any (fun v => v.pass == p.id) then .next s
    else
      let s := s.atTb (p.ents.headD 0 + 70)
      let x := s.mxc core
      let s := (s.setMx core { x with passes := rest }).count .MX_PASSES 1 core
      if p.out && bit p.epi 35 then
        .next (s.coreSend core (amaxPacket core (bits p.epi 66 55) p.amax p.nf) s.clk.tb)
      else .next s

/-- MX_EPI (R110, R114). -/
def execMxEpi (core : Core) (payload : BitVec 76) (s : State) : Out :=
  let p := withOp 3 payload
  let s := (s.popBundle core 0 p).1
  let ofmt := bits p 73 70
  let os := bits p 66 55
  let dest := bits p 37 36
  let okFmt := ofmt == 8 || (mxFamily ofmt).isSome
  match lowestReason
    [(bits p 14 0 != 0 || !okFmt || (ofmt != 8 && (Rnd.ofCode (bits p 69 67)).isNone) || dest == 3 || bits p 34 33 == 3
        || decide (81919 < bits p 54 38) || decide (81919 < bits p 32 16), 1),
     (s.mxOff core, 2), (badRec os, 6), (ofmt == 8 && os != 0xFFF, 7), (bit p 35 && os == 0xFFF, 8),
     ((dest == 1 && !(ofmt == 8 || ofmt == 0 || ofmt == 1)) || (dest == 2 && !(ofmt == 0 || ofmt == 1)), 9)] with
  | some r => .next (s.mxReject core 3 r)
  | none =>
    let x := s.mxc core
    .next (s.setMx core { x with epi := mput 0 x.epi (bits p 75 74) p })

/-- MX_DRAIN (R108). -/
def execMxDrain (core : Core) (payload : BitVec 76) (s : State) : Out :=
  let p := withOp 4 payload
  let (s, rel, _) := s.popBundle core 0 p
  match lowestReason [(bits p 68 0 != 0, 1), (s.mxOff core, 2)] with
  | some r => .next (s.mxReject core 4 r)
  | none =>
    let x := s.mxc core
    .next (s.setMx core { x with drains := x.drains ++ [x.drainNow rel (bit p 75) (bits p 74 69)] })

/-- MX_DRAIN_COMPLETE (R108): the oldest DRAIN, once the vectors it covers have left the collector. -/
def execMxDrainComplete (core : Core) (s : State) : Out :=
  let x := s.mxc core
  match x.drains with
  | [] => .next s
  | d :: rest =>
    match d.t with
    | none => .next s
    | some b =>
      if x.vecs.any (fun v => decide (v.pass < d.upto)) then .next s
      else
        let s := s.atTb (max (d.d + 8) b)
        let x := s.mxc core
        let s := (s.setMx core { x with drains := rest }).fset F.MX_STATUS_DRAINED 1 core
        .next (if d.arrive then s.arrive core d.ctr else s)

/-- MX_ENABLE_WRITE (R111). -/
def execMxEnableWrite (core : Core) (value : Bool) (s : State) : Out := .next (s.mxEnable core value)

/-- MX_STOPPING_END (R111): the ACLK in which a DRAIN released at the write would complete. -/
def execMxStoppingEnd (core : Core) (s : State) : Out :=
  let x := s.mxc core
  match x.stopping with
  | none => .next s
  | some d =>
    match d.t with
    | none => .next s
    | some b =>
      if x.vecs.any (fun v => decide (v.pass < d.upto)) then .next s
      else
        let s := s.atTb (max (d.d + 8) b)
        let x := s.mxc core
        if s.flag F.MX_STATUS_ENABLE_PENDING core then
          .next (((s.setMx core { x with stopping := none, enabling := some (s.clk.tb + 1) }).fset
            F.MX_STATUS_ENABLE_PENDING 0 core).fset F.MX_STATUS_STATE eENABLING core)
        else .next ((s.setMx core { x with stopping := none }).fset F.MX_STATUS_STATE eDISABLED core)

/-- MX_ENABLING_END (R111): 16 ACLK after ENABLING began. -/
def execMxEnablingEnd (core : Core) (s : State) : Out :=
  let x := s.mxc core
  match x.enabling with
  | none => .next s
  | some b =>
    let s := s.atTb (b + 16)
    let x := s.mxc core
    .next ((s.setMx core { x with enabling := none }).fset F.MX_STATUS_STATE eENABLED core)

end Sys2Proof.Machine
end

