-- ==== Sys2Proof/Machine/Fabric.lean ====
section
/-! DEFINITION. Meanings of the fabric's commands (07). -/

namespace Sys2Proof.Machine
open Sys2Proof

/-- ROUTER_HOP (R234, R235, R238, R252): a packet whose header is at a router's input and that takes no merge entry there. -/
def execRouterHop (core : Core) (packet : Packet) (s : State) : Out :=
  let (s, via) := s.takeF packet (.router core)
  let t := upTo 2 s.clk.tb
  let y := s.fb core
  let s := s.setFb core { y with seen := mput 0 y.seen via t }
  .next (if packetReserved packet then s.discard core packet 5 else s.forward core packet t)

/-- MERGE_STAGE_ENTRY (R242, R243): a RED or AMAX at a router's input enters its merge stage in the next NCLK: it joins the
earliest waiting entry of its key within the window, takes an entry, or, with merging disabled or all 8 entries of its
output port occupied, passes. -/
def execMergeStageEntry (core : Core) (packet : Packet) (s : State) : Out :=
  let (s, via) := s.takeF packet (.router core)
  let n := upTo 2 s.clk.tb
  if packetReserved packet then .next (s.discard core packet 5)
  else if !packetMergeable packet || !s.flag F.FB_MERGE_MERGE_EN core then .next (s.forward core packet n)
  else
    let out := outPort core packet.dest
    let m := n + 2
    let x := s.fb core
    let fits := fun (e : MergeEntry) =>
      e.out == out && !e.closed && decide (e.m ≤ m ∧ m ≤ e.m + 16) && packetSameKey e.pkt packet
    let own := fun (s : State) =>
      if 8 ≤ (x.merge.filter (fun e => e.out == out)).length then s.forward core packet n
      else (s.atTb m).setFb core { x with merge := x.merge ++ [⟨out, packet, m, via, false⟩] }
    match x.merge.find? fits with
    | none => .next (own s)
    | some e =>
      if 65535 < e.pkt.count + packet.count then .next (own s)
      else
        let s := s.atTb m
        let (a, b) := if e.m = m ∧ via < e.inp then (packet, e.pkt) else (e.pkt, packet)
        let (r, ovs) := packetMerge a b
        let r := { r with src := e.pkt.src, op := e.pkt.op }
        let s := s.setFb core { x with merge := x.merge.map fun z => if z = e then { z with pkt := r, inp := min z.inp via } else z }
        let s := s.count .FB_MERGED 1 core
        let s := ovs.foldl (fun s i => s.raiseLim 0x1001 kCORE core (packet.addr + i)) s
        .next (s.send (packetReply packet Packet.WACK stOK) (.router core) (m + 4))

/-- MERGE_STAGE_EXIT (R242): the router's oldest entry, so that its packet is at the next input or port in NCLK m + 9. -/
def execMergeStageExit (core : Core) (s : State) : Out :=
  let x := s.fb core
  match x.merge with
  | [] => .next s
  | e :: rest =>
    let s := s.atTb (e.m + 17)
    .next ((s.setFb core { x with merge := rest }).forward core e.pkt (e.m + 14))

/-- RIM_RING_HOP (R254, R255): one segment of the ring in 4 NCLK, or the way between two endpoints of one stop. -/
def execRimRingHop (stop : Fin 16) (packet : Packet) (s : State) : Out :=
  let s := s.take packet (.ring stop)
  let t := upTo 2 s.clk.tb
  let d := stopOf packet.dest
  let k := stop.val
  if packetReserved packet && packet.typ != 12 && !(decide (0x8420 ≤ packet.dest ∧ packet.dest ≤ 0x842C)) then .next (s.discard (edgeCore packet.dest 0 0) packet 5)
  else if d = k then .next (s.send packet (.rim packet.dest) (t + 8) 32)
  else
    let cw := (d + 16 - k) % 16
    let downCw := (List.range cw).any fun i => s.rimDown.contains ((k + i) % 16)
    let downAcw := (List.range (16 - cw)).any fun i => s.rimDown.contains (16 + (k + 31 - i) % 16)
    if downCw && downAcw then
      let s := s.count .FB_DROPPED 1 (edgeCore packet.dest 0 0)
      let s := s.raiseLim 0x5002 kCORE (edgeCore packet.dest 0 0) (packet.typ + 4 * 2 ^ 4 + packetSrc packet * 2 ^ 16)
      .next (match packetRefusal packet stREFUSED with
        | none => s
        | some a => s.rimSend a s.clk.tb)
    else
      let clockwise := if downCw then false else if downAcw then true else decide (cw ≤ 8)
      let nxt := if clockwise then (k + 1) % 16 else (k + 15) % 16
      let seg := if clockwise then k else 16 + (k + 15) % 16
      .next (s.send packet (if nxt = d then .rim packet.dest else .ring nxt) (t + 8) seg)

/-- FB_WR_DELIVER (R240, R250, R252): a WR at its core's port; with FLAGS.ROW a row of a BAR4 write (R225). -/
def execFbWrDeliver (core : Core) (packet : Packet) (s : State) : Out :=
  let (s, ok) := s.atPort core packet
  if !ok then .next s
  else if bit packet.flags 0 then
    if s.rowAvail core then
      let y := s.spCore core
      .next (s.setSp core { y with
        rows := y.rows ++ [{ agent := 4, row := spOff packet.addr / 512, data := some packet.data, pkt := some packet }] })
    else .next ((s.spBadAccess core 3).inject core (packetReply packet Packet.WACK stREFUSED) s.clk.tb)
  else .next (s.fabWrite core packet (spOff packet.addr) packet.wop packet.data packet.poison)

/-- FB_RD_DELIVER (R221, R247, R252): an RD at its core's port; with FLAGS.ROW a row of a BAR4 read (R225). -/
def execFbRdDeliver (core : Core) (packet : Packet) (s : State) : Out :=
  let (s, ok) := s.atPort core packet
  if !ok then .next s
  else if bit packet.flags 0 then
    if s.rowAvail core then
      let y := s.spCore core
      .next (s.setSp core { y with rows := y.rows ++ [{ agent := 4, row := spOff packet.addr / 512, pkt := some packet }] })
    else
      .next ((s.spBadAccess core 3).inject core
        (packetReply packet Packet.RDR stREFUSED (zeros (packet.lenm1 + 1))) s.clk.tb)
  else
    let a := { packetReply packet Packet.RDR stOK (zeros (packet.lenm1 + 1)) with data := [] }
    .next (s.fabRead core a (spOff packet.addr) (packet.lenm1 + 1) s.clk.tb)

/-- FB_RED_DELIVER (R244, R250): a RED at its core's port is applied as ADD_PAIR64. -/
def execFbRedDeliver (core : Core) (packet : Packet) (s : State) : Out :=
  let (s, ok) := s.atPort core packet
  .next (if ok then s.fabWrite core packet (spOff packet.addr) 1 packet.data packet.poison else s)

/-- FWR (R246, R247). -/
def execFwr (core : Core) (payload : BitVec 76) (s : State) : Out := .next (s.fabBundle core 2 (withOp 2 payload))

/-- FRD (R246, R247). -/
def execFrd (core : Core) (payload : BitVec 76) (s : State) : Out := .next (s.fabBundle core 2 (withOp 3 payload))

/-- FRED (R246, R247). -/
def execFred (core : Core) (payload : BitVec 76) (s : State) : Out := .next (s.fabBundle core 2 (withOp 4 payload))

/-- A released stream/route NOP (R170, R249). -/
def State.srNop (s : State) (c q payload : Nat) : State :=
  let s := (s.popBundle c q payload).1
  if bits payload 75 0 ≠ 0 then s.fabReject c 0 1 else s

/-- A released LARRIVE (R170, R172, R173): internal, or external from the deferred buffer. -/
def State.larrive (s : State) (c q payload : Nat) : State :=
  let s := (s.popBundle c q payload).1
  if bits payload 69 0 ≠ 0 then s.fabReject c 1 1 else s.arrive c (bits payload 75 70) 1 (q == 3)

/-- SR_NOP (R170). -/
def execSrNop (core : Core) (payload : BitVec 76) (s : State) : Out := .next (s.srNop core 2 (withOp 0 payload))

/-- LARRIVE (R170). -/
def execLarrive (core : Core) (payload : BitVec 76) (s : State) : Out := .next (s.larrive core 2 (withOp 1 payload))

/-- Is a packet on ring segment direction k at TB t? -/
def Flight.onRing (f : Flight) (k t : Nat) : Bool :=
  f.via == k && decide (t < f.tb) &&
    (match f.loc with
     | .ring _ => true
     | .rim _ => true
     | _ => false)

/-- LINK_FLIT_ERROR (R253, R263): packets on the link come 4 NCLK later; the event is raised on the first retry in each 10
ms, with the retries of the 10 ms before. -/
def execLinkFlitError (link : LinkId) (s : State) : Out :=
  match link with
  | .mesh core l =>
    let s := s.count .FB_LINK_RETRIES 1 core
    let inp := if l.val = 4 then 5 else l.val
    let s := { s with flights := s.flights.map fun (f : Flight) =>
      if f.loc = Loc.router core ∧ f.via = inp ∧ s.clk.tb ≤ f.tb then { f with tb := f.tb + 8 } else f }
    let now := s.clk.wt / 10000000
    let x := s.fb core
    let r := mget (0, 0, 0) x.retry l
    let cur := if r.1 = now then r.2.1 else 0
    let prev := if r.1 = now then r.2.2 else if r.1 + 1 = now then r.2.1 else 0
    let s := s.setFb core { x with retry := mput (0, 0, 0) x.retry l (now, cur + 1, prev) }
    .next (if cur = 0 then s.raise 0x5003 kCORE core (l.val + min prev 0xFFFF_FFFF * 2 ^ 32) else s)
  | .ring seg anti =>
    let k := seg.val + (if anti then 16 else 0)
    let late := fun (f : Flight) => if f.onRing k s.clk.tb then { f with tb := f.tb + 8 } else f
    .next { s with flights := s.flights.map late }

/-- HEARTBEAT_SEND (R253): a link direction that ends at this router sends a heartbeat, if the router that drives it has HB_EN
set; the receiver has seen a flit. -/
def execHeartbeatSend (link : LinkId) (s : State) : Out :=
  match link with
  | .mesh core l =>
    let src := if l.val = 4 then core.val else neighbour core l
    if !hasLink core l || !s.flag F.FB_CTRL_HB_EN src then .next s
    else
      let x := s.fb core
      .next (s.setFb core { x with seen := mput 0 x.seen (if l.val = 4 then 5 else l.val) s.clk.tb })
  | .ring _ _ => .next s

/-- LINK_HEARTBEAT_LAPSE (R253, R255): 256 NCLK after the last flit the receiver marks the link down; on a ring segment the
packets that it carries are discarded and answered. -/
def execLinkHeartbeatLapse (link : LinkId) (s : State) : Out :=
  match link with
  | .mesh core l =>
    let inp := if l.val = 4 then 5 else l.val
    if !hasLink core l then .next s
    else
      let s := s.atTb (mget 0 (s.fb core).seen inp + 512)
      let s := if l.val = 4 then s.fset F.FB_STATUS_EDGE_DOWN 1 core
        else s.fset F.FB_STATUS_LINK_DOWN (setBits (s.fget F.FB_STATUS_LINK_DOWN core) l l 1) core
      let s := (s.raise 0x5004 kCORE core l).critMet (s.phys core) 4
      .next (if l.val = 4 then s else s.critMet (s.phys (neighbour core l)) 4)
  | .ring seg anti =>
    let k := seg.val + (if anti then 16 else 0)
    let onSeg := fun (f : Flight) => f.onRing k s.clk.tb
    let lost := s.flights.filter onSeg
    let s := { s with rimDown := (s.rimDown.filter (· != k)) ++ [k], flights := s.flights.filter (fun f => !onSeg f) }
    let fld := stopField seg
    let s := s.raise 0x5007 kFIELD (fld.2 * 5 + fld.1) (b2n anti)
    .next (lost.foldl (fun s f =>
      let c := edgeCore f.pkt.dest 0 0
      let s := (s.count .FB_DROPPED 1 c).raiseLim 0x5002 kCORE c (f.pkt.typ + 4 * 2 ^ 4 + packetSrc f.pkt * 2 ^ 16)
      match packetRefusal f.pkt stREFUSED with
      | none => s
      | some a => s.rimSend a s.clk.tb) s)

/-! ## Bow bus (R256 to R260) -/

/-- Passing time of line j of a write at the tap of column c (R258). -/
def BowBus.passes (w : BowBus) (j c : Nat) : Nat :=
  (w.lines.getD j (0, [])).1 + 2 * (2 + (if w.east then (149 - c) / 16 else c / 16))

/-- The next line that passes the tap of core c, and its write. -/
def State.bowNext (s : State) (c : Nat) : Option (BowBus × Nat) :=
  let x := s.spCore c
  (mget [] s.bow (c / 150)).findSome? fun w =>
    if w.hdr.col0 ≤ c % 150 ∧ c % 150 ≤ w.hdr.col1 then
      let j := match x.bow.find? (fun r => r.id == w.id) with
        | none => if x.bowDone.contains w.id then w.hdr.nlm1 + 1 else 0
        | some r => r.passed
      if j < w.lines.length then some (w, j) else none
    else none

/-- Lines that the tap of core c buffers (R211). -/
def State.bowBuffered (s : State) (c : Nat) : Nat :=
  let x := s.spCore c
  (mget [] x.reqs pBOW_IN).length + 8 * (x.rows.filter (fun r => r.agent == 2)).length + (x.bow.map (·.row.length / 64)).sum

/-- BOW_LINE_AT_TAP (R90, R211, R258 to R260): the next line of a Bow write passes the tap of a core in its column range. -/
def execBowLineAtTap (core : Core) (s : State) : Out :=
  match s.bowNext core with
  | none => .next s
  | some (w, j) =>
    let t := w.passes j (core.val % 150)
    let s := s.atTb t
    let row := core.val / 150
    let s := { s with bow := mupd [] s.bow row fun l =>
      (l.map fun (z : BowBus) => if z.id = w.id then { z with left := z.left - 1 } else z).filter (fun z => decide (z.left ≠ 0)) }
    let x := s.spCore core
    let r := (x.bow.find? (fun r => r.id == w.id)).getD { id := w.id, hdr := w.hdr }
    let others := x.bow.filter (fun z => z.id != w.id)
    let r := { r with passed := j + 1, lost := r.lost || (w.void && j == w.hdr.nlm1) }
    let line := w.hdr.line + j
    let data := (w.lines.getD j (0, zeros 64)).2
    let s := match (s.mxc core).loads.find? (fun l => l.begun && bit l.payload 58) with
      | some l =>
        let h := bits l.payload 75 59
        if h ≤ line ∧ line < h + loadLines l.payload then s.mxCapture core l.rel (line - h) data t else s
      | none => s
    let drop := fun (un : Bool) (s : State) =>
      let x := s.spCore core
      ((s.setSp core { x with bow := others ++ [{ r with lost := true, row := [] }] }).bowDrop core line un).bowCheck core w.id t
    if s.parked core || s.fget F.PWR_STATUS_STATE == 2 then .next (drop true s)
    else if !w.hdr.land then
      .next ((s.setSp core { x with bow := others ++ [r] }).bowCheck core w.id t)
    else if w.hdr.rowm then
      if !s.rowAvail core then .next (drop true (s.spBadAccess core 2))
      else if 16 ≤ s.bowBuffered core then .next (drop false s)
      else
        let bytes := r.row ++ data
        if line % 8 ≠ 7 ∨ bytes.length < 512 then
          .next ((s.setSp core { x with bow := others ++ [{ r with row := if line % 8 = 7 then [] else bytes }] }).bowCheck core w.id t)
        else
          .next (s.setSp core { x with
            bow := others ++ [{ r with row := [], left := r.left + 1 }]
            rows := x.rows ++ [{ agent := 2, row := line / 8, data := some bytes, bow := w.id }] })
    else if 16 ≤ s.bowBuffered core then .next (drop false s)
    else
      let s := s.setSp core { x with bow := others ++ [{ r with left := r.left + 1 }] }
      .next (s.present core pBOW_IN line (.bow w.id) (some ⟨fullMask, data, 0, false⟩) t)

end Sys2Proof.Machine
end

