-- ==== Sys2Proof/Machine/StackOps.lean ====
section
/-! DEFINITION. The memory stacks' operations (08): accesses, decoding, the coalescing store, Lauter operations, map-out. -/

namespace Sys2Proof.Machine
open Sys2Proof

/-- States of a stack (R282). -/
def hDISABLED : Nat := 0
def hENABLING : Nat := 1
def hENABLED : Nat := 2
def hSTOPPING : Nat := 3
def hMAPPED_OUT : Nat := 4
def hTRAINING : Nat := 5

def State.hState (s : State) (st : Nat) : Nat := s.fget F.HBMC_STATUS_STATE st
def accKey (ch a : Nat) : Nat := ch * 2 ^ 26 + a

/-- Bytes of an access as the stack holds them, without its errors. -/
def State.hbmBytes (s : State) (ch a : Nat) : List Byte := mgets 0 s.hbm (ch * 2 ^ 32 + 64 * a) 64

/-- Store an access in the stack with fresh check bytes (R272). -/
def State.hbmStore (s : State) (ch a : Nat) (data : List Byte) (poison : Bool) : State :=
  { s with
    hbm := mputs 0 s.hbm (ch * 2 ^ 32 + 64 * a) data
    hbmPoison := mput 0 s.hbmPoison (accKey ch a) (b2n poison)
    hbmErr := merase s.hbmErr (accKey ch a) }

def State.hbmPoisoned (s : State) (ch a : Nat) : Bool := mget 0 s.hbmPoison (accKey ch a) != 0

/-- Module-local address of an access. -/
def State.accAddr (s : State) (ch a : Nat) : Nat := s.stackAddr ch (64 * a)

/-- Error record of a stack (08, HBMC_ERR_INFO). -/
def State.hbmErrInfo (s : State) (ch a kind src sym : Nat) : State :=
  let s := s.wr .HBMC_ERR_INFO (BitVec.ofNat 64 (ch % 32 + src * 2 ^ 10 + kind * 2 ^ 12 + sym * 2 ^ 16)) (ch / 32)
  s.wr .HBMC_ERR_ADDR (BitVec.ofNat 64 (s.accAddr ch a)) (ch / 32)

/-- Number of the second of WT. -/
def State.second (s : State) : Nat := s.clk.wt / 1000000000

/-! ## Map-out (R287) -/

/-- Map-out of a stack begins, with its partner while G = 2. -/
def State.stackMapOut (s : State) (st reason ch : Nat) : State :=
  let one := fun (s : State) (st reason : Nat) =>
    if (s.stack st).mapout.isSome ∨ s.hState st = hMAPPED_OUT then s
    else
      let m := s.fget F.MOD_STACK_MAP_PRESENT
      let s := s.fset F.MOD_STACK_MAP_PRESENT (setBits m st st 0)
      let x := s.stack st
      (s.setStack st { x with mapout := some (reason, ch) }).fset F.HBMC_STATUS_STATE hSTOPPING st
  let s := one s st reason
  if s.ilvG = 1 then one s (Nat.xor st 1) 5 else s

/-- One more uncorrectable decode on a channel (R276, R287). -/
def State.hbmUe (s : State) (ch a src : Nat) : State :=
  let st := ch / 32
  let s := (s.count .HBMC_UNCORRECTABLE 1 st).count .HBMC_CH_UE 1 st (ch % 32)
  let s := s.hbmErrInfo ch a 2 src 0xFF
  let s := s.raiseLim 0x6002 kCHANNEL ch (s.accAddr ch a + src * 2 ^ 48)
  let x := s.chan ch
  let n := (if x.ue.1 = s.second then x.ue.2 else 0) + 1
  let s := s.setChan ch { x with ue := (s.second, n) }
  let thr := s.fget F.HBMC_MAPOUT_THR_UE st
  if thr ≠ 0 ∧ n = thr then s.stackMapOut st 2 (ch % 32) else s

/-- One correction on a channel (R274, R290). -/
def State.hbmCe (s : State) (ch a src syms : Nat) : State :=
  let st := ch / 32
  let s := (s.count .HBMC_CORRECTED 1 st).count .HBMC_CH_CE 1 st (ch % 32)
  let s := s.hbmErrInfo ch a 1 src syms
  let x := s.chan ch
  let cur := if x.ce.1 = s.second then x.ce.2.1 else 0
  let prev := if x.ce.1 = s.second then x.ce.2.2 else if x.ce.1 + 1 = s.second then x.ce.2.1 else 0
  let s := s.setChan ch { x with ce := (s.second, cur + 1, prev) }
  if cur = 0 then s.raise 0x6001 kCHANNEL ch (min prev 0xFFFF_FFFF) else s

/-! ## Decoding (R272 to R276) -/

/-- Does a request touch an access? -/
def HReq.touches (r : HReq) (a : Nat) : Bool := decide (r.first ≤ a ∧ 64 * a < 64 * r.first + r.off + r.pkt.lenm1 + 1)

/-- Accesses of a request. -/
def HReq.accs (r : HReq) : List Nat := (List.range ((r.off + r.pkt.lenm1) / 64 + 1)).map (r.first + ·)

/-- The bytes of a codeword with its errors (data positions 0–63). -/
def withErrs (data : List Byte) (syms : List (Nat × Nat)) : List Byte :=
  syms.foldl (fun d p => if p.1 < 64 then d.set p.1 ((d.getD p.1 0) ^^^ BitVec.ofNat 8 p.2) else d) data

/-- n fresh free bytes. -/
def State.freeBytes (s : State) : Nat → State × List Byte
  | 0 => (s, [])
  | n + 1 =>
    let (w, s) := s.free
    let (s, l) := s.freeBytes n
    (s, w.setWidth 8 :: l)

/-- An access is decoded (R273, R274, R276) in a read of SRC `src`: the data delivered and whether it is poisoned. A correctable
access is offered a write-back if no request accepted since touches it and a slot is free (R275). -/
def State.hbmDecode (s : State) (ch : Nat) (h : HAcc) (src : Nat) : State × List Byte × Bool :=
  let n := h.syms.length
  let offer := fun (s : State) =>
    let x := s.chan ch
    if x.queue.any (fun r => r.touches h.acc) ∨ 16 ≤ x.wb.length ∨ x.wb.contains h.acc then s
    else s.setChan ch { x with wb := x.wb ++ [h.acc] }
  if h.hit ∨ n = 0 then (s, h.data, h.poison)
  else if n ≤ 2 then (offer (s.hbmCe ch h.acc src n), h.data, h.poison)
  else if n ≤ 6 then (s.hbmUe ch h.acc src, withErrs h.data h.syms, true)
  else
    let (w, s) := s.free
    match w.toNat % 3 with
    | 0 => (s.hbmUe ch h.acc src, withErrs h.data h.syms, true)
    | 1 =>
      let (s, d) := s.freeBytes 64
      (s.hbmCe ch h.acc src (1 + w.toNat / 4 % 2), d, h.poison)
    | _ => (s, withErrs h.data h.syms, h.poison)

/-- The accesses of a request stand with the error symbols that the command names (R273). -/
def State.hbmUpset (s : State) (ch : Nat) (accs : List Nat) (ups : List Upset) : State :=
  ups.foldl (fun s u =>
    match accs[u.k]? with
    | none => s
    | some a =>
      if (s.chan ch).coal.any (fun e => e.acc == a) then s
      else { s with hbmErr := mput [] s.hbmErr (accKey ch a) (u.syms.filter (fun p => p.2 % 256 != 0)) }) s

/-- An access read from the stack. -/
def State.hbmRaw (s : State) (ch a : Nat) : HAcc :=
  { acc := a, data := s.hbmBytes ch a, syms := mget [] s.hbmErr (accKey ch a), poison := s.hbmPoisoned ch a }

/-! ## Coalescing store (R280, R281) -/

/-- A store entry fails its detection check (R280): its data is poisoned. -/
def State.coalCheck (s : State) (ch : Nat) (accs : List Nat) (ups : List Upset) : State :=
  ups.foldl (fun s u =>
    match accs[u.k]? with
    | none => s
    | some a =>
      let x := s.chan ch
      if u.syms ≠ [] ∧ x.coal.any (fun e => e.acc == a) then
        let s := s.setChan ch { x with coal := x.coal.map fun e =>
          if e.acc = a then { e with data := withErrs e.data u.syms, poison := true } else e }
        (s.hbmErrInfo ch a 4 0 0).raiseLim 0x6009 kCHANNEL ch (s.accAddr ch a)
      else s) s

/-- Change an entry and make it the most recently used. -/
def HChan.useCoal (x : HChan) (a : Nat) (f : Coal → Coal) : HChan :=
  match x.coal.find? (fun e => e.acc == a) with
  | none => x
  | some e => { x with coal := (x.coal.filter (fun z => z.acc != a)) ++ [f e] }

/-- An entry for access a: nothing if all 16 ways of its set are named by queued requests; else the least recently used free
way is evicted, written back if dirty, and the access is read and decoded into it (R280). -/
def State.coalAlloc (s : State) (ch a : Nat) : Option State :=
  let x := s.chan ch
  if x.coal.any (fun e => e.acc == a) then some s
  else
    let set_ := x.coal.filter (fun e => e.acc % 256 == a % 256)
    let s? : Option State :=
      if set_.length < 16 then some s
      else
        match set_.find? (fun e => !(x.queue.any fun r => r.touches e.acc)) with
        | none => none
        | some v =>
          let s := s.setChan ch { x with coal := x.coal.filter (fun z => z.acc != v.acc) }
          let s := s.count .HBMC_EVICTIONS 1 (ch / 32)
          some (if v.dirty then s.hbmStore ch v.acc v.data v.poison else s)
    s?.map fun s =>
      let (s, d, p) := s.hbmDecode ch (s.hbmRaw ch a) 2
      let x := s.chan ch
      s.setChan ch { x with coal := x.coal ++ [⟨a, d, false, p⟩] }

/-- Write back the dirty entries that a test selects; they stay, clean (R281). -/
def State.coalFlush (s : State) (ch : Nat) (p : Nat → Bool) : State :=
  let x := s.chan ch
  let s := (x.coal.filter (fun e => e.dirty && p e.acc)).foldl (fun s e => s.hbmStore ch e.acc e.data e.poison) s
  s.setChan ch { (s.chan ch) with coal := x.coal.map fun e => if p e.acc then { e with dirty := false } else e }

/-- Every byte of a stack as its requests would read it: from the store, else from the stack. -/
def State.accNow (s : State) (ch a : Nat) : List Byte × Bool :=
  match (s.chan ch).coal.find? (fun e => e.acc == a) with
  | some e => (e.data, e.poison)
  | none => (s.hbmBytes ch a, s.hbmPoisoned ch a || decide (3 ≤ (mget [] s.hbmErr (accKey ch a)).length))

/-- Internal reads and writes of stack bytes by the module's own firmware and engines, at a module-local address. -/
def State.memByte (s : State) (a : Nat) : Byte :=
  let x := s.ilvOf a
  (s.accNow x.chan (x.caddr / 64)).1.getD (x.caddr % 64) 0

def State.memGet (s : State) (a n : Nat) : List Byte := (List.range n).map fun i => s.memByte (a + i)
def State.memNat (s : State) (a n : Nat) : Nat := leNat (s.memGet a n)

/-- Does a byte of [a, a + n) lie in a poisoned access? -/
def State.memPoison (s : State) (a n : Nat) : Bool :=
  (List.range (n / 64 + 2)).any fun i =>
    let b := a / 64 * 64 + 64 * i
    decide (b < a + n) && (let x := s.ilvOf b
      (s.accNow x.chan (x.caddr / 64)).2)

/-- Replace bytes of one access, in the store or in the stack; `poison` as given. -/
def State.accPut (s : State) (ch a : Nat) (data : List Byte) (poison : Bool) : State :=
  let x := s.chan ch
  if x.coal.any (fun e => e.acc == a) then
    s.setChan ch (x.useCoal a fun e => { e with data := data, dirty := true, poison := poison })
  else s.hbmStore ch a data poison

/-- Write bytes at a module-local address; a whole access becomes clean, another keeps its poison (R277). -/
def State.memPut (s : State) (a : Nat) (data : List Byte) (poison : Bool := false) : State :=
  (cutLines a data).foldl (fun s l =>
    let x := s.ilvOf (64 * l.1)
    let ac := x.caddr / 64
    let (old, p) := s.accNow x.chan ac
    let new := (old.zip (l.2.2.zip (List.range 64))).map fun o => if bit l.2.1 o.2.2 then o.2.1 else o.1
    s.accPut x.chan ac new (poison || (p && l.2.1 != fullMask))) s

/-! ## Lauter operations (R278, R279) -/

/-- Lauter operation that a packet names, or none (R279). -/
def lauterOf (p : Packet) : Option Nat :=
  if p.typ = Packet.RED then some 0
  else
    match p.wop with
    | 1 => some 0 | 2 => some 1 | 5 => some 3
    | _ => none

def lauterSize (op : Nat) : Nat := if op = 0 then 8 else 4

/-- One Lauter operation on element codes. -/
def lauter1 (op old new : Nat) : Nat × Bool :=
  match op with
  | 0 => pairAdd old new
  | 1 => (fadd old new, false)
  | 2 => (fadd old new, false)
  | _ => (fp32.max old new, false)

/-- Apply a Lauter operation to stored bytes that begin at byte b (of the channel) with payload `data` (already in stored
element order; BF16 payloads widened by the caller's element size): bytes, overflow offsets, partial elements. -/
def lauterBytes (op : Nat) (b : Nat) (old data : List Byte) : List Byte × List Nat × Bool :=
  let n := lauterSize op
  let lo := (n - b % n) % n
  let cnt := (data.length - lo) / n
  let partial_ := lo ≠ 0 ∨ (data.length - lo) % n ≠ 0
  let r := (List.range cnt).foldl (fun acc i =>
    let k := lo + i * n
    let (v, ov) := lauter1 op (leNat ((old.drop k).take n)) (leNat ((data.drop k).take n))
    (acc.1 ++ leBytes n v, if ov then acc.2 ++ [k] else acc.2)) (old.take lo, [])
  (r.1 ++ old.drop (lo + cnt * n), r.2, decide partial_)

/-- Payload of a request in stored-element size: BF16 elements are widened to FP32 (R278). -/
def lauterPayload (op : Nat) (data : List Byte) : List Byte :=
  if op = 2 then (List.range (data.length / 2)).flatMap fun i => leBytes 4 (leNat ((data.drop (2 * i)).take 2) * 2 ^ 16)
  else data

/-- Part of a request's bytes that falls in an access: offset of the part in the payload, in the access, and its length. -/
def HReq.part (r : HReq) (n a : Nat) : Nat × Nat × Nat :=
  let b0 := 64 * r.first + r.off
  let lo := max b0 (64 * a)
  let hi := min (b0 + n) (64 * a + 64)
  (lo - b0, lo - 64 * a, hi - lo)

/-- Apply an accepted WRITE (R268, R277, R280): whole accesses, or read, merge and rewrite; in the store where the store holds
the access. -/
def State.hbmApplyWrite (s : State) (ch : Nat) (r : HReq) : State :=
  r.accs.foldl (fun s a =>
    let (i, o, n) := r.part (r.pkt.lenm1 + 1) a
    let new := (r.pkt.data.drop i).take n
    let put := fun (old : List Byte) => old.take o ++ new ++ old.drop (o + n)
    let x := s.chan ch
    match x.coal.find? (fun e => e.acc == a) with
    | some e =>
      s.setChan ch (x.useCoal a fun z => { z with
        data := put e.data, dirty := true, poison := r.pkt.poison || (e.poison && n != 64) })
    | none =>
      if n = 64 then s.hbmStore ch a new r.pkt.poison
      else
        let (s, d, p) := s.hbmDecode ch (s.hbmRaw ch a) 0
        s.hbmStore ch a (put d) (r.pkt.poison || p)) s

/-- Apply an accepted ACCUMULATE in the coalescing store (R277 to R280): nothing if an entry cannot be allocated. -/
def State.hbmApplyAcc (s : State) (ch : Nat) (r : HReq) : Option State :=
  let data := lauterPayload r.op r.pkt.data
  let r' : HReq := { r with pkt := { r.pkt with lenm1 := data.length - 1 } }
  r'.accs.foldl (fun s? a =>
    s?.bind fun s =>
      (s.coalAlloc ch a).map fun s =>
        let (i, o, n) := r'.part data.length a
        match (s.chan ch).coal.find? (fun e => e.acc == a) with
        | none => s
        | some e =>
          let (bytes, ovs, part) := lauterBytes r.op (64 * a + o) ((e.data.drop o).take n) ((data.drop i).take n)
          let s := s.setChan ch ((s.chan ch).useCoal a fun z => { z with
            data := e.data.take o ++ bytes ++ e.data.drop (o + n), dirty := true, poison := e.poison || r.pkt.poison })
          let s := ovs.foldl (fun s k => s.raiseLim 0x1001 kCHANNEL ch (s.accAddr ch a + o + k)) s
          if part then s.raiseLim 0x6004 kCHANNEL ch (4 + r.pkt.typ * 2 ^ 8) else s) (some s)

/-- A WRITE or ACCUMULATE leaves the queue applied; with POISON it raises HBM_POISON_STORED (R277). -/
def State.hbmApply (s : State) (ch : Nat) (r : HReq) : Option State :=
  let s? := if r.kind = 2 then some (s.hbmApplyWrite ch r) else s.hbmApplyAcc ch r
  s?.map fun s =>
    let x := s.chan ch
    let s := s.setChan ch { x with queue := x.queue.filter (fun q => q.id != r.id) }
    if r.pkt.poison then s.raiseLim 0x6005 kCHANNEL ch (s.accAddr ch r.first) else s

/-- The first queued request of a kind that no earlier queued request meets in an access (R270). -/
def HChan.nextOf (x : HChan) (kind : Nat) : Option HReq :=
  match x.queue.find? (fun r => r.kind == kind) with
  | none => none
  | some r =>
    if (x.queue.takeWhile (fun q => q.id != r.id)).any (fun q => r.accs.any q.touches) then none else some r

/-- Every queued WRITE and ACCUMULATE of a channel is applied, in order of acceptance, as far as entries can be allocated. -/
def State.hbmSettle (s : State) (ch : Nat) : State :=
  (s.chan ch).queue.foldl (fun s r => if r.kind = 1 then s else (s.hbmApply ch r).getD s) s

/-- A request is accepted into a controller's queue (R269): write-backs of its accesses are cancelled (R275). -/
def State.hbmQueue (s : State) (ch kind op : Nat) (p : Packet) (caddr : Nat) : State :=
  let x := s.chan ch
  let r : HReq := {
    id := x.nextId, kind := kind, op := op, pkt := p, acc := s.clk.cyc, first := caddr / 64, off := caddr % 64 }
  s.setChan ch { x with
    nextId := x.nextId + 1, queue := x.queue ++ [r], wb := x.wb.filter (fun a => !r.touches a) }

/-- Accesses queued at a controller (R269). -/
def HChan.load (x : HChan) : Nat := (x.queue.map fun r => r.accs.length).sum

/-- READ_CLEAR of one access (R268, R278): what it held and whether it was poisoned; it is left zero and clean. -/
def State.readClear (s : State) (ch a : Nat) (ups : List Upset) : State × List Byte × Bool :=
  let s := (s.hbmUpset ch [a] ups).coalCheck ch [a] ups
  match s.coalAlloc ch a with
  | none => (s, zeros 64, true)
  | some s =>
    let (d, p) := s.accNow ch a
    let s := s.setChan ch ((s.chan ch).useCoal a fun z => { z with data := zeros 64, dirty := true, poison := false })
    (if p then s.count .HBMC_POISON_RETURNED 1 (ch / 32) else s, d, p)

/-- A refusal of a request (R284, R290): counted, raised and answered; `src` is what DETAIL names (TYPE). -/
def State.hbmRefuse (s : State) (ch : Nat) (p : Packet) (reason : Nat) : State :=
  let s := s.count .HBMC_REFUSED 1 (ch / 32)
  let s := s.raiseLim 0x6004 kCHANNEL ch (reason + p.typ * 2 ^ 8)
  match packetRefusal p stREFUSED with
  | none => s
  | some a => s.rimSend { a with poison := p.typ == Packet.RD } s.clk.tb

end Sys2Proof.Machine
end

