-- ==== Sys2Proof/Machine/StreamOps.lean ====
section
/-! DEFINITION. The operations of weight streaming, saved activations and Racking (09). -/

namespace Sys2Proof.Machine
open Sys2Proof

/-! ## Grist streams (R291 to R305) -/

def gsDISABLED : Nat := 0
def gsENABLING : Nat := 1
def gsENABLED : Nat := 2
def gsSTOPPING : Nat := 3
def gsFAULT : Nat := 4

def State.gsState (s : State) (i : Nat) : Nat := s.fget F.STRM_GS_STATUS_STATE 0 i
def State.setGsState (s : State) (i st : Nat) : State := s.fset F.STRM_GS_STATUS_STATE st 0 i
def State.gsWd (s : State) (i : Nat) : Nat := s.fget F.STRM_GS_CTRL_WDM1 0 i + 1
def State.gsN (s : State) (i : Nat) : Nat := s.fget F.STRM_GS_NLAYERS_NM1 0 i + 1
def State.gsSl (s : State) (i : Nat) : Nat := 8 * s.fget F.STRM_GS_DST_SLOT8 0 i
def State.gsTract (s : State) (i : Nat) : Nat := s.fget F.STRM_GS_CTRL_TRACT 0 i
def State.gsTable (s : State) (i : Nat) : Nat := s.fget F.STRM_GS_LTAB_ADDR 0 i * 16

/-- Positions of a sequence, and the layer of one (R294). -/
def State.gsP (s : State) (i : Nat) : Nat := if s.fget F.STRM_GS_CTRL_ORDER 0 i = 2 then 2 * s.gsN i else s.gsN i
def State.gsLayer (s : State) (i p : Nat) : Nat :=
  let n := s.gsN i
  match s.fget F.STRM_GS_CTRL_ORDER 0 i with
  | 0 => p
  | 1 => n - 1 - p
  | _ => if p < n then p else 2 * n - 1 - p

/-- The stream enters FAULT with a reason and the address that failed (R298, R299, R334): it starts no further read; writes
that are not yet on the bus are dropped. -/
def State.gsFault (s : State) (i reason addr : Nat) : State :=
  let x := s.grist i
  let s := s.setGrist i { x with writes := x.writes.filter (fun w => w.bow.isSome) }
  let s := (s.setGsState i gsFAULT).fset F.STRM_GS_STATUS_FAULT_REASON reason 0 i
  s.raise 0x8011 kMODULE 0 (i + reason * 2 ^ 5 + addr % 2 ^ 48 * 2 ^ 16)

/-- Does the configuration of a stream pass the checks of enabling (R304)? -/
def State.gsConfigOk (s : State) (i : Nat) : Bool :=
  let line := s.fget F.STRM_GS_DST_LINE 0 i
  decide (s.fget F.STRM_GS_CTRL_CBASE 0 i + s.gsWd i ≤ 64) && decide (s.gsSl i ≠ 0)
    && decide (line + s.gsWd i * s.gsSl i ≤ 81920) && s.fget F.STRM_GS_CTRL_ORDER 0 i != 3
    && s.tstate (s.gsTract i) != tFREE && s.inStacks (s.gsTable i) (16 * s.gsN i)

/-- ENABLING and its check (R304). -/
def State.gsStart (s : State) (i : Nat) : State :=
  let s := s.setGsState i gsENABLING
  if s.gsConfigOk i then s.setGsState i gsENABLED
  else
    let s := (s.setGsState i gsDISABLED).fset F.STRM_GS_STATUS_FAULT_REASON 1 0 i
    s.raise 0x8011 kMODULE 0 (i + 1 * 2 ^ 5 + s.gsTable i % 2 ^ 48 * 2 ^ 16)

/-- A stop of a stream begins (R304): no further read starts. -/
def State.gsStop (s : State) (i : Nat) : State :=
  let x := s.grist i
  (s.setGrist i { x with active := false, writes := x.writes.filter (fun w => w.bow.isSome) }).setGsState i gsSTOPPING

/-- A write of STRM_GS_CTRL.ENABLE (R304). -/
def State.gsEnable (s : State) (i : Nat) (v : Bool) : State :=
  let s := s.fset F.STRM_GS_CTRL_ENABLE (b2n v) 0 i
  let st := s.gsState i
  if v then
    if st = gsDISABLED then s.gsStart i
    else if st = gsSTOPPING then s.fset F.STRM_GS_STATUS_ENABLE_PENDING 1 0 i
    else s
  else if st = gsENABLED then s.gsStop i
  else if st = gsSTOPPING then s.fset F.STRM_GS_STATUS_ENABLE_PENDING 0 0 i
  else if st = gsFAULT then
    (let x := s.grist i
     (s.setGrist i { x with active := false }).setGsState i gsDISABLED)
  else s

/-- The streams of a slot stop as on ENABLE = 0 when it returns to FREE (R304). -/
def State.gsTractFree (s : State) (t : Nat) : State :=
  (List.range 32).foldl (fun s i =>
    if s.gsTract i = t ∧ (s.gsState i = gsENABLED ∨ s.gsState i = gsFAULT ∨ s.gsState i = gsSTOPPING) then s.gsEnable i false
    else s) s

/-- Is a Bow write still on a bus, or still being written at a core (R295, R303)? -/
def State.bowLive (s : State) (id : Nat) : Bool :=
  s.bow.any (fun r => r.2.any fun b => b.id == id) || s.spc.any (fun c => c.2.bow.any fun w => w.id == id)

/-- Writes of a stream that are done leave its list (R295). -/
def State.gsSettle (s : State) (i : Nat) : State :=
  let x := s.grist i
  let live := fun (w : GsWrite) =>
    match w.bow with
    | none => true
    | some id => s.bowLive id
  s.setGrist i { x with writes := x.writes.filter live, old := x.old.filter s.bowLive }

/-- A sequence starts at position 0 (R295); positions still unreleased are abandoned (R303). -/
def State.gsSequence (s : State) (i : Nat) : State :=
  if s.gsState i ≠ gsENABLED then
    (let x := s.grist i
     s.setGrist i { x with active := false })
  else
    let s := s.gsSettle i
    let x := s.grist i
    let n := x.fetched - x.released
    let s := if n = 0 then s else s.raise 0x8012 kMODULE 0 (i + n % 256 * 2 ^ 8)
    let old := x.old ++ x.writes.filterMap (·.bow)
    (s.setGrist i { active := true, old := old, seq := x.seq + 1 }).fset F.STRM_GS_STATUS_NEXT_REL 0 0 i

/-- The streams of a slot whose sequences start at this release (R295). -/
def State.gsRelease (s : State) (t : Nat) : State :=
  (List.range 32).foldl (fun s i => if s.gsTract i = t then s.gsSequence i else s) s

/-- A piece entry (R293), checked (R299). -/
structure Piece where
  src : Nat
  nlm1 : Nat
  doff : Nat
  row0 : Nat
  row1 : Nat
  col0 : Nat
  col1 : Nat
  east : Bool
  deriving DecidableEq, Repr

def State.gsPiece (s : State) (i a : Nat) : Option Piece :=
  let f := fun (o n : Nat) => s.memNat (a + o) n
  let p : Piece := {
    src := f 0 8, nlm1 := f 8 2, doff := f 0xC 4, row0 := f 0x10 1, row1 := f 0x11 1, col0 := f 0x12 1, col1 := f 0x13 1
    east := bit (f 0x14 1) 0 }
  let t := s.gsTract i
  let r0 := s.fget F.TRACT_ORIGIN_ROW t
  let c0 := s.fget F.TRACT_ORIGIN_COL t
  let inT := decide (r0 ≤ p.row0 ∧ p.row0 ≤ p.row1 ∧ p.row1 < r0 + s.fget F.TRACT_SIZE_ROW t
    ∧ c0 ≤ p.col0 ∧ p.col0 ≤ p.col1 ∧ p.col1 < c0 + s.fget F.TRACT_SIZE_COL t)
  let l := gLocal p.src
  let srcOk := decide (p.src % 64 = 0) && bits p.src 53 46 == 0 &&
    (if s.isOwn (gMid p.src) then
       (s.inStacks l (64 * (p.nlm1 + 1)) || decide (hostWindow ≤ l ∧ l + 64 * (p.nlm1 + 1) ≤ 0x4000_0000_0000))
     else decide (gMid p.src < 1000 ∧ l + 64 * (p.nlm1 + 1) ≤ stackEnd))
  if p.nlm1 < 4096 && f 0xA 2 == 0 && decide (p.doff + p.nlm1 + 1 ≤ s.gsSl i) && inT && f 0x14 1 / 2 == 0 && f 0x15 11 == 0
      && srcOk then some p
  else none

/-- Injector endpoint of a band and end (R233). -/
def injector (fy : Nat) (east : Bool) : Nat := (if east then 0x8428 else 0x8420) + fy

/-- The reads of a write's lines (R297): byte offset and length from its source, cut at granules in the module's own stacks, at
4 KiB elsewhere. -/
def State.gsCuts (s : State) (src n : Nat) : List (Nat × Nat) :=
  let g := if s.isOwn (gMid src) ∧ gLocal src < stackEnd then min 512 (2 ^ s.ilvLog) else 4096
  let first := src / g
  let last := (src + n - 1) / g
  (List.range (last + 1 - first)).map fun k =>
    let lo := max src ((first + k) * g)
    let hi := min (src + n) ((first + k + 1) * g)
    (lo - src, hi - lo)

/-- Name of a Grist read in `Packet.op`: sequence, stream, position, piece, band and reading. -/
def State.gsOp (s : State) (i : Nat) (w : GsWrite) : Nat :=
  (((((s.grist i).seq * 32 + i) * 131072 + w.pos) * 1024 + w.piece) * 5 + w.fy) * 2 + b2n w.second

/-- What tells the writes of a stream apart: position, piece, band, reading. -/
def GsWrite.key (w : GsWrite) : Nat × Nat × Nat × Bool := (w.pos, w.piece, w.fy, w.second)

/-- The reads of a write are issued by its injector (R297). -/
def State.gsReads (s : State) (i : Nat) (w : GsWrite) : State :=
  let inj := injector w.fy w.east
  (s.gsCuts w.src (64 * (w.hdr.nlm1 + 1))).foldl (fun s c =>
    match s.destOf (w.src + c.1) c.2 (s.classProf 1) with
    | none =>
      let x := s.grist i
      let got := (List.range (c.2 / 64)).foldl (fun m k => mput (0, []) m (c.1 / 64 + k) (s.clk.tb, zeros 64))
      s.setGrist i { x with writes := x.writes.map fun z => if z.key = w.key then { z with bad := true, got := got z.got } else z }
    | some (dest, mid) =>
      s.rimSend { typ := Packet.RD, dest := dest, src := inj, addr := gLocal (w.src + c.1), lenm1 := c.2 - 1
                  mid := mid, rid := c.1 / 64, op := s.gsOp i w } s.clk.tb) s

/-- Order in which an injector drives writes (R296, R298): by position, second readings last, by piece. -/
def GsWrite.before (a b : GsWrite) : Bool :=
  decide (a.pos < b.pos) || (a.pos == b.pos && ((!a.second && b.second) || (a.second == b.second && decide (a.piece < b.piece))))

/-! ## Stream port (R300 to R316) -/

def State.stampOf (s : State) (c n : Nat) : Nat := mget 0 (s.stpc c).stamps n

/-- Is a stream-port bundle's counter at its target with a stamp old enough (R301)? Else the ns by which it was late. -/
def State.needTest (s : State) (c ctr target margin : Nat) : Option Nat :=
  if !reached (s.fget F.EP_ARRIVE_COUNT c ctr) target then some 0xFFFF_FFFF
  else
    let late := s.stampOf c ctr + margin - s.clk.wt
    if late = 0 then none else some (min late 0xFFFF_FFFF)

def State.stpReject (s : State) (c op reason : Nat) : State := s.rejectBundle c 0x8016 op reason

def State.stpOff (s : State) (c : Nat) : Bool := s.fget F.STP_STATUS_STATE c != eENABLED

/-- GNEED (R301, R316). -/
def State.gneed (s : State) (c q payload : Nat) : State :=
  let s := (s.popBundle c q payload).1
  let i := bits payload 75 71
  match lowestReason [(bits payload 32 0 != 0, 1), (s.slotOf c != some (s.gsTract i), 2), (s.stpOff c, 5)] with
  | some r => s.stpReject c 8 r
  | none =>
    let ctr := bits payload 70 65
    match s.needTest c ctr (bits payload 64 33) (s.fget F.STRM_GS_MARGIN_NS 0 i) with
    | none => s
    | some late =>
      let s := (s.latchRerun c 3).count .STP_GRIST_UNDERRUNS 1 c
      s.raiseLim 0x8010 kCORE c (i + ctr * 2 ^ 8 + late * 2 ^ 32)

/-- GREL (R302, R316). -/
def State.grel (s : State) (c q payload : Nat) : State :=
  let s := (s.popBundle c q payload).1
  let i := bits payload 75 71
  match lowestReason [(bits payload 70 0 != 0, 1), (s.slotOf c != some (s.gsTract i), 2), (s.stpOff c, 5)] with
  | some r => s.stpReject c 9 r
  | none =>
    let x := s.grist i
    if x.released < x.fetched then
      (s.setGrist i { x with released := x.released + 1 }).fset F.STRM_GS_STATUS_NEXT_REL ((x.released + 1) % 65536) 0 i
    else s

/-- ANEED (R311, R316). -/
def State.aneed (s : State) (c q payload : Nat) : State :=
  let s := (s.popBundle c q payload).1
  match lowestReason [(bits payload 75 71 != 0 || bits payload 32 0 != 0, 1), (s.stpOff c, 5)] with
  | some r => s.stpReject c 0xC r
  | none =>
    let ctr := bits payload 70 65
    match s.needTest c ctr (bits payload 64 33) (s.fget F.STP_PF_MARGIN_NS c) with
    | none => s
    | some late =>
      let s := (s.latchRerun c 6).count .STP_ACT_UNDERRUNS 1 c
      s.raiseLim 0x8013 kCORE c (ctr * 2 ^ 8 + late * 2 ^ 32)

/-- AREL (R311, R316). -/
def State.arel (s : State) (c q payload : Nat) : State :=
  let s := (s.popBundle c q payload).1
  match lowestReason [(bits payload 75 0 != 0, 1), (s.stpOff c, 5)] with
  | some r => s.stpReject c 0xD r
  | none =>
    let x := s.stpc c
    match x.recs.find? (fun r => !r.released && decide (x.rec0 ≤ r.k)) with
    | none => s
    | some r => s.setStp c { x with recs := x.recs.map fun z => if z.k = r.k then { z with released := true } else z }

/-- PFSTART (R309, R316). -/
def State.pfstart (s : State) (c q payload : Nat) : State :=
  let s := (s.popBundle c q payload).1
  match lowestReason [(bits payload 75 0 != 0, 1), (s.stpOff c, 5)] with
  | some r => s.stpReject c 0xB r
  | none =>
    if s.flag F.STP_STATUS_PF_ACTIVE c then s
    else
      let top := s.fget F.STP_SAVE_TOP_ADDR c
      let s := s.fset F.STP_PF_PTR_ADDR top c
      let x := s.stpc c
      let s := s.setStp c { x with recs := x.recs.filter (fun r => r.stage == 2), rec0 := x.nextRec }
      if top * 64 ≤ x.base then s.fset F.STP_STATUS_PF_DONE 1 c else s.fset F.STP_STATUS_PF_ACTIVE 1 c

/-- Fields of a SAVE (R315). -/
def svLine (p : Nat) : Nat := bits p 75 59
def svLines (p : Nat) : Nat := bits p 58 46 + 1
def svMode (p : Nat) : Nat := bits p 45 44
def svSfmt (p : Nat) : Nat := bits p 43 43
def svRfmt (p : Nat) : Nat := bits p 42 42

/-- SAVE (R308, R315, R316): its lines are presented on STR_OUT, one an NCLK. -/
def State.save (s : State) (c q payload : Nat) : State :=
  let (s, rel, _) := s.popBundle c q payload
  let bad := decide (81919 < svLine payload + svLines payload - 1)
    || (svMode payload == 0 && (svSfmt payload == 0 || svRfmt payload == 0))
    || ((svMode payload == 1 || svMode payload == 2) && svSfmt payload == 0 && svLines payload % 2 == 1)
  match lowestReason [(bits payload 34 0 != 0, 1), (bad, 3), (s.flag F.STP_STATUS_PF_ACTIVE c, 4), (s.stpOff c, 5)] with
  | some r => s.stpReject c 0xA r
  | none =>
    let x := s.stpc c
    let s := s.setStp c { x with nextId := x.nextId + 1, saves := x.saves ++ [{ id := x.nextId, payload := payload, wt := s.clk.wt }] }
    (List.range (svLines payload)).foldl
      (fun s k => s.present c pSTR_OUT (svLine payload + k) (.strTx x.nextId k) none (rel + 2 * k)) s

/-- A SAVE is complete (R315). -/
def State.saveDone (s : State) (c : Nat) (v : StpSave) : State :=
  let x := s.stpc c
  let s := s.setStp c { x with saves := x.saves.filter (fun z => z.id != v.id) }
  if bit v.payload 41 then s.arrive c (bits v.payload 40 35) else s

/-- The record of a SAVE whose lines are all read (R306, R307): bytes, and elements lost. -/
def saveRecord (v : StpSave) : List Byte × Nat :=
  let p := v.payload
  let lines := (List.range (svLines p)).flatMap fun k => mget [] v.got k
  let n := svLines p * (if svSfmt p = 0 then 16 else 32)
  let codes := (List.range n).map fun i => if svSfmt p = 0 then codeAt lines (4 * i) 4 else codeAt lines (2 * i) 2
  let vals := codes.map fun x => if svSfmt p = 0 then fp32.val x else bf16.val x
  let (packed, lost) := fullPack (svMode p) codes vals
  let pad := (64 - packed.length % 64) % 64
  let trailer := leBytes 2 0xF011 ++ leBytes 1 (svMode p + svRfmt p * 16) ++ leBytes 1 0 ++ leBytes 4 n ++ leBytes 4 packed.length
    ++ leBytes 2 (crc16 packed) ++ leBytes 2 0 ++ leBytes 8 v.wt ++ zeros 40
  (packed ++ zeros pad ++ trailer, lost)

/-- A SAVE's record is placed at the uncommitted top and written, or overflows the area (R308). -/
def State.savePlace (s : State) (c : Nat) (v : StpSave) : State :=
  let (rec, lost) := saveRecord v
  let s := if lost = 0 then s else s.nonfiniteLost c 5
  let x := s.stpc c
  let top := x.topNext.getD (s.fget F.STP_SAVE_TOP_ADDR c * 64)
  if x.limit < top + rec.length then
    let s := s.setStp c { x with saves := x.saves.map fun z => if z.id = v.id then { z with placed := true, got := [] } else z }
    (s.latchRerun c 6).raiseLim 0x8015 kCORE c top
  else
    let cuts := s.cutRun top (rec.length / 64)
    let s := s.setStp c { x with
      topNext := some (top + rec.length), bytesNext := x.bytesNext + rec.length
      saves := x.saves.map fun z => if z.id = v.id then { z with placed := true, left := cuts.length, got := [] } else z }
    let out := cuts.foldl (fun (acc : State × Nat) k =>
      let a := top + 64 * k.1
      let data := (rec.drop (64 * k.1)).take (64 * k.2)
      match acc.1.destOf (1023 * 2 ^ 54 + a) (64 * k.2) 0 with
      | none => (acc.1.unbackedCore c a, acc.2 + 1)
      | some (dest, _) =>
        (acc.1.coreSend c { typ := Packet.WR, dest := dest, src := c, addr := a, lenm1 := 64 * k.2 - 1, data := data
                            poison := v.bad, op := opSave v.id } acc.1.clk.tb, acc.2)) (s, 0)
    let s := out.1
    let x := s.stpc c
    match x.saves.find? (fun z => z.id == v.id) with
    | none => s
    | some z =>
      let z := { z with left := z.left - out.2 }
      s.setStp c { x with saves := x.saves.map fun y => if y.id = v.id then z else y }

/-- SAVEs whose lines have all been read are placed in their order (R308). -/
def State.savesPlace (s : State) (c : Nat) : State :=
  let ready := (s.stpc c).saves.takeWhile fun v => v.placed || decide (svLines v.payload ≤ v.got.length)
  (ready.filter (fun v => !v.placed)).foldl (fun s v => s.savePlace c v) s

/-- STR_OUT has read line k of a SAVE (R221). -/
def State.strTxLine (s : State) (c id k : Nat) (data : List Byte) (bad : Bool) : State :=
  let x := s.stpc c
  let s := s.setStp c { x with saves := x.saves.map fun v =>
    if v.id = id then { v with got := mput [] v.got k data, bad := v.bad || bad } else v }
  (if bad then s.latchRerun c 0 else s).savesPlace c

/-! ## Prefetcher (R309, R310) -/

def State.pfPd (s : State) (c : Nat) : Nat := bits (s.stpc c).pfCfg 2 0 + 1
def State.pfCbase (s : State) (c : Nat) : Nat := bits (s.stpc c).pfCfg 13 8
def State.pfLine (s : State) (c : Nat) : Nat := bits (s.stpc c).pfBuf 16 0
def State.pfSlot (s : State) (c : Nat) : Nat := 8 * bits (s.stpc c).pfBuf 30 17

def StpRec.nelem (r : StpRec) : Nat := leNat ((r.trailer.drop 4).take 4)
def StpRec.pbytes (r : StpRec) : Nat := leNat ((r.trailer.drop 8).take 4)
def StpRec.fmt (r : StpRec) : Nat := (r.trailer.getD 2 0).toNat
/-- Bytes of a record: packed data up to a 64 B boundary and the trailer (R306). -/
def StpRec.total (r : StpRec) : Nat := (r.pbytes + 63) / 64 * 64 + 64
def StpRec.unpacked (r : StpRec) : Nat := r.nelem * (if bit r.fmt 4 then 2 else 4)

def State.setRec (s : State) (c : Nat) (r : StpRec) : State :=
  let x := s.stpc c
  s.setStp c { x with recs := x.recs.map fun z => if z.k = r.k then r else z }

/-- The prefetcher reads stack bytes [a, a + n) in parts: `k` numbers the first. -/
def State.pfRead (s : State) (c : Nat) (r : StpRec) (a n : Nat) : State :=
  let cuts := s.cutRun (1023 * 2 ^ 54 + a) (n / 64)
  let s := s.setRec c { r with parts := cuts.length, got := [] }
  (cuts.zip (List.range cuts.length)).foldl (fun s k =>
    let b := a + 64 * k.1.1
    match s.destOf (1023 * 2 ^ 54 + b) (64 * k.1.2) 0 with
    | none =>
      let s := s.unbackedCore c b
      match (s.stpc c).recs.find? (fun z => z.k == r.k) with
      | none => s
      | some z => s.setRec c { z with got := mput [] z.got k.2 (zeros (64 * k.1.2)) }
    | some (dest, _) =>
      s.coreSend c { typ := Packet.RD, dest := dest, src := c, addr := b, lenm1 := 64 * k.1.2 - 1, rid := k.2
                     op := opPf r.k } s.clk.tb) s

/-- The address at which record k's trailer ends: below the records before it. -/
def State.pfTop (s : State) (c k : Nat) : Option Nat :=
  match (s.stpc c).recs.find? (fun r => r.k + 1 == k) with
  | some r => if r.stage = 0 then none else some (r.top - r.total)
  | none => some (s.fget F.STP_PF_PTR_ADDR c * 64)

/-- A record fails its first or second reading (R310). -/
def State.pfFail (s : State) (c : Nat) (r : StpRec) (reason : Nat) : State :=
  if !r.second then s.pfRead c { r with second := true, stage := 0, trailer := [], poison := false } (r.top - 64) 64
  else
    let x := s.stpc c
    let s := s.setStp c { x with recs := x.recs.filter (fun z => z.k != r.k) }
    (s.raise 0x8014 kCORE c (reason + (r.top - 64))).fset F.STP_STATUS_PF_ACTIVE 0 c

/-- All parts of a record's trailer or data have been read (R309, R310). -/
def State.pfGot (s : State) (c : Nat) (r : StpRec) : State :=
  let bytes := (List.range r.parts).flatMap fun i => mget [] r.got i
  if r.stage = 0 then
    let r := { r with trailer := bytes }
    if r.poison then s.pfFail c r 2
    else if leNat (bytes.take 2) ≠ 0xF011 ∨ r.top < (s.stpc c).base + r.total then s.pfFail c r 1
    else if 64 * s.pfSlot c < r.unpacked then s.pfFail c r 3
    else if r.pbytes = 0 then s.setRec c { r with stage := 3 }
    else s.pfRead c { r with stage := 1 } (r.top - r.total) (r.total - 64)
  else
    let packed := bytes.take r.pbytes
    if r.poison then s.pfFail c r 2
    else if crc16 packed ≠ leNat ((r.trailer.drop 0xC).take 2) then s.pfFail c r 1
    else
      let f := if bit r.fmt 4 then bf16 else fp32
      let codes := fullUnpack (r.fmt % 4) r.nelem f packed
      let data := codes.flatMap fun v => leBytes (f.width / 8) v
      let b := 64 * (s.pfLine c + (r.k - (s.stpc c).rec0) % s.pfPd c * s.pfSlot c)
      let ls := if data.isEmpty then [] else cutLines b data
      let s := s.setRec c { r with stage := if ls.isEmpty then 3 else 2, linesLeft := ls.length, got := [] }
      ls.foldl (fun s l => s.present c pSTR_IN l.1 (.strRx r.k) (some ⟨l.2.1, l.2.2, 0, false⟩) s.clk.tb) s

/-- A read of the prefetcher is answered. -/
def State.pfAnswer (s : State) (c : Nat) (p : Packet) : State :=
  match (s.stpc c).recs.find? (fun r => opPf r.k == p.op) with
  | none => s
  | some r =>
    let bad := p.poison || p.flags != stOK
    let r := { r with got := mput [] r.got p.rid p.data, poison := r.poison || bad }
    let s := s.setRec c r
    if r.got.length < r.parts then s else s.pfGot c r

/-- STR_IN has written a line of record k. -/
def State.strRxLine (s : State) (c k : Nat) : State :=
  match (s.stpc c).recs.find? (fun r => r.k == k) with
  | none => s
  | some r =>
    let x := s.stpc c
    if r.linesLeft ≤ 1 ∧ k < x.rec0 then s.setStp c { x with recs := x.recs.filter (fun z => z.k != k) }
    else s.setRec c { r with linesLeft := r.linesLeft - 1, stage := if r.linesLeft ≤ 1 then 3 else r.stage }

/-! ## Racking (R321 to R331) -/

def rkDISABLED : Nat := 0
def rkIDLE : Nat := 1
def rkOPEN : Nat := 2
def rkCLOSING : Nat := 3
def rkSTOPPING : Nat := 4

def State.rkState (s : State) : Nat := s.fget F.STRM_RK_STATUS_STATE
def State.rkSeq (s : State) : Nat := s.fget F.STRM_RK_STATUS_SEQ
def State.rkMap (s : State) : Nat := s.fget F.STRM_RK_MAP_BASE_ADDR * 4096

/-- Enabled ranges in ascending order: base and granules (R321). -/
def State.rkRanges (s : State) : List (Nat × Nat) :=
  ((List.range 64).filter fun r => s.flag F.STRM_RK_RBASE_EN 0 r).map fun r =>
    (s.fget F.STRM_RK_RBASE_ADDR 0 r * 4096, s.fget F.STRM_RK_RLEN_PAGES 0 r)

def State.rkGranules (s : State) : Nat := (s.rkRanges.map (·.2)).sum

/-- Entry number of the granule that holds a stack address (R324). -/
def State.rkEntry (s : State) (a : Nat) : Option Nat :=
  (s.rkRanges.foldl (fun (acc : Nat × Option Nat) r =>
    (acc.1 + r.2, if acc.2.isNone ∧ r.1 ≤ a ∧ a < r.1 + 4096 * r.2 then some (acc.1 + (a - r.1) / 4096) else acc.2)) (0, none)).2

/-- Address of the granule of an entry. -/
def State.rkAddr (s : State) (e : Nat) : Nat :=
  (s.rkRanges.foldl (fun (acc : Nat × Nat) r =>
    (acc.1 + r.2, if acc.1 ≤ e ∧ e < acc.1 + r.2 then r.1 + 4096 * (e - acc.1) else acc.2)) (0, 0)).2

def State.rkCseq (s : State) (e : Nat) : Nat := s.memNat (s.rkMap + 2 * e) 1
def State.rkWseq (s : State) (e : Nat) : Nat := s.memNat (s.rkMap + 2 * e + 1) 1
def State.rkPending (s : State) (e : Nat) : Bool := s.rkCseq e != s.rkSeq

/-- Entries of the granules that bytes [a, a + n) touch. -/
def State.rkTouched (s : State) (a n : Nat) : List Nat :=
  ((List.range ((a + n - 1) / 4096 + 1 - a / 4096)).filterMap fun i => s.rkEntry ((a / 4096 + i) * 4096))

/-- A controller accepts a WRITE or ACCUMULATE to stack bytes [a, a + n): granules are marked while the slot is open (R325). -/
def State.rackMark (s : State) (a n : Nat) : State :=
  if s.rack.phase ≠ 1 then s
  else
    (s.rkTouched a n).foldl (fun s e =>
      let q := s.rkSeq
      let s := s.memPut (s.rkMap + 2 * e + 1) (leBytes 1 q)
      let s := if s.rkCseq e = q then s.memPut (s.rkMap + 2 * e) (leBytes 1 0) else s
      { s with rack := { s.rack with marked := if s.rack.marked.contains e then s.rack.marked else s.rack.marked ++ [e] } }) s

/-- While a Racking is closing, does a write to stack bytes [a, a + n) wait for a pending granule (R326)? -/
def State.rackDefers (s : State) (a n : Nat) : List Nat :=
  if s.rack.phase = 2 then (s.rkTouched a n).filter s.rkPending else []

/-- Reason for which an arming fails (R331). -/
def State.rkConfigOk (s : State) : Bool :=
  let rs := s.rkRanges
  let meet := (List.range rs.length).any fun i => (List.range i).any fun j =>
    let a := rs.getD i (0, 0)
    let b := rs.getD j (0, 0)
    decide (a.1 < b.1 + 4096 * b.2 ∧ b.1 < a.1 + 4096 * a.2)
  rs.all (fun r => decide (r.2 ≠ 0) && s.inStacks r.1 (4096 * r.2)) && !meet
    && decide (4096 + 4096 * s.rkGranules ≤ s.fget F.STRM_RK_BANK_LEN_ADDR * 4096)
    && (s.flag F.STRM_RK_CTRL_TGT_CASK || s.flag F.STRM_RK_CTRL_TGT_HOST)
    && s.inStacks s.rkMap (2 * s.rkGranules)

/-- First byte of a target's bank (R321): global address in the cask, module-local host-window address at the host. -/
def State.rkBank (s : State) (host : Bool) : Nat :=
  let b := s.rkSeq % 2 * (s.fget F.STRM_RK_BANK_LEN_ADDR * 4096)
  if host then 1023 * 2 ^ 54 + s.fget F.STRM_RK_HOST_BASE_ADDR * 4096 + b
  else s.fget F.STRM_RK_CASK_MID_ID * 2 ^ 54 + s.fget F.STRM_RK_CASK_BASE_ADDR * 4096 + b

/-- Names of Racking writes in `Packet.op`: seal pages (entry 2^40), granules; bit 0 tells the host target. -/
def rkOp (host : Bool) (e : Nat) : Nat := 2 * e + b2n host
def rkSeal : Nat := 2 ^ 40

/-- Send a 4 KiB write of Racking to a target (R327). A cask that no port can reach is unreachable, a host address that does
not translate is refused by the host port: both are told by the answer. -/
def State.rkSend (s : State) (host : Bool) (g e : Nat) (data : List Byte) (poison : Bool) : State :=
  let s := s.count .STRM_RK_BYTES data.length
  let port := if host then 6 else s.brimPort (s.classProf 3) (gMid g)
  let s := { s with rack := { s.rack with sent := mupd [] s.rack.sent port (· ++ [(s.clk.wt, data.length)]) } }
  let dest := if host then destHost else destBrim port
  s.rimSend { typ := Packet.WR, dest := dest, src := destReg, addr := gLocal g, lenm1 := data.length - 1
              mid := if host then 1023 else gMid g, data := data, poison := poison, op := rkOp host e } s.clk.tb

/-- A seal page (R322). -/
def State.rkSealPage (s : State) (sealed_ : Bool) : List Byte :=
  let k := s.rack
  leBytes 4 (b2n sealed_) ++ leBytes 4 s.rkSeq ++ leBytes 8 (if sealed_ then k.closeStep else 0)
    ++ leBytes 8 (if sealed_ then k.closeWt else 0) ++ leBytes 8 (4096 * s.rkGranules) ++ leBytes 2 s.ownId
    ++ leBytes 2 s.rkRanges.length ++ leBytes 4 0 ++ leBytes 8 (if sealed_ then s.clk.wt else 0) ++ zeros 16 ++ zeros 4032

def RackTgt.done (t : RackTgt) : Bool := !t.sel || t.sealed_ || t.failed != 0

/-- The Racking ends once every target is sealed or has failed (R329, R331). -/
def State.rkEndTest (s : State) : State :=
  let k := s.rack
  if k.phase = 0 ∨ !k.cask.done ∨ !k.host.done then s
  else
    let q := s.rkSeq
    let seals := b2n k.cask.sealed_ + 2 * b2n k.host.sealed_
    let s := s.fset F.STRM_RK_STATUS_SEALED seals
    let s :=
      if seals ≠ 0 then (s.count .STRM_RK_DONE).raise 0x8017 kMODULE 0 (q + seals * 2 ^ 8)
      else
        let fails := b2n (k.cask.failed != 0) + 2 * b2n (k.host.failed != 0)
        let why := if k.cask.failed ≠ 0 then k.cask.failed else k.host.failed
        let s := (s.count .STRM_RK_FAILED).fset F.STRM_RK_STATUS_LAST_FAIL why
        let s := s.wr .STRM_RK_LAST_START (BitVec.ofNat 64 k.lastStart)
        s.raise 0x8018 kMODULE 0 (q + fails * 2 ^ 8 + why * 2 ^ 12)
    let st := if s.rkState = rkSTOPPING then (if s.flag F.STRM_RK_STATUS_ENABLE_PENDING then rkIDLE else rkDISABLED) else rkIDLE
    let s := (s.fset F.STRM_RK_STATUS_STATE st).fset F.STRM_RK_STATUS_ENABLE_PENDING 0
    { s with rack := { sent := k.sent, capHold := k.capHold } }

/-- A target fails with a reason (R329). -/
def State.rkFail (s : State) (host : Bool) (reason : Nat) : State :=
  let k := s.rack
  let f := fun (t : RackTgt) => if t.done then t else { t with failed := reason }
  let k := if host then { k with host := f k.host } else { k with cask := f k.cask }
  { s with rack := k }.rkEndTest

/-- A target all of whose copies are acknowledged is sealed, once nothing is left to be copied (R329). -/
def State.rkSealTest (s : State) : State :=
  if s.rack.phase ≠ 2 ∨ (List.range s.rkGranules).any s.rkPending then s
  else
    let go := fun (s : State) (host : Bool) =>
      let k := s.rack
      let t := if host then k.host else k.cask
      if t.done || t.sealing || t.out != [] then s
      else
        let t := { t with sealing := true, out := [rkSeal] }
        let s := { s with rack := if host then { k with host := t } else { k with cask := t } }
        s.rkSend host (s.rkBank host) rkSeal (s.rkSealPage true) false
    go (go s false) true

/-- The step boundary's test of Racking (R323, R325, R326; action 5 of R402). -/
def State.rackBoundary (s : State) : State :=
  let k := s.rack
  let s :=
    if k.phase = 1 then
      let s := { s with rack := { k with phase := 2, closeStep := (s.rd .RED_STEP_COUNT).toNat, closeWt := s.clk.wt } }
      let s := if s.rkState = rkOPEN then s.fset F.STRM_RK_STATUS_STATE rkCLOSING else s
      s.rkSealTest
    else s
  let due := s.flag F.STRM_RK_CTRL_ENABLE && decide (s.rack.phase = 0) && s.rkState == rkIDLE &&
    (decide ((s.rd .STRM_RK_LAST_START).toNat + s.fget F.STRM_RK_PERIOD_S * 1000000000 ≤ s.clk.wt)
      || s.flag F.STRM_RK_STATUS_HYD_REQ || s.flag F.STRM_RK_CTRL_NOW)
  if !due then s
  else if !s.rkConfigOk then
    let s := (s.count .STRM_RK_FAILED).fset F.STRM_RK_STATUS_LAST_FAIL 1
    s.raise 0x8018 kMODULE 0 (s.rkSeq + 1 * 2 ^ 12)
  else
    let last := (s.rd .STRM_RK_LAST_START).toNat
    let s := s.fset F.STRM_RK_STATUS_SEQ (if s.rkSeq = 255 then 1 else s.rkSeq + 1)
    let s := ((s.fset F.STRM_RK_STATUS_HYD_REQ 0).fset F.STRM_RK_CTRL_NOW 0).fset F.STRM_RK_STATUS_STATE rkOPEN
    let s := (s.wr .STRM_RK_LAST_START (BitVec.ofNat 64 s.clk.wt)).fset F.STRM_RK_STATUS_SEALED 0
    let c := s.flag F.STRM_RK_CTRL_TGT_CASK
    let h := s.flag F.STRM_RK_CTRL_TGT_HOST
    let s := { s with rack := {
      phase := 1, lastStart := last, cask := { sel := c, out := if c then [rkSeal] else [] }
      host := { sel := h, out := if h then [rkSeal] else [] }, sent := s.rack.sent, capHold := s.rack.capHold } }
    let s := if c then s.rkSend false (s.rkBank false) rkSeal (s.rkSealPage false) false else s
    if h then s.rkSend true (s.rkBank true) rkSeal (s.rkSealPage false) false else s

end Sys2Proof.Machine
end

