-- ==== Sys2Proof/Machine/RedOps.lean ====
section
/-! DEFINITION. The operations of gradient reduction (11): windows, contributions, verification, close-out. -/

namespace Sys2Proof.Machine
open Sys2Proof

/-! ## Windows (R376 to R379) -/

def wDISABLED : Nat := 0
def wCLEARING : Nat := 1
def wARMED : Nat := 2
def wOPEN : Nat := 3
def wCLOSING : Nat := 4
def wCLOSED : Nat := 5
def wSTOPPING : Nat := 6

def State.win (s : State) (w : Nat) : RedWin := mget {} s.red.wins w
def State.setWin (s : State) (w : Nat) (x : RedWin) : State := { s with red := { s.red with wins := mput {} s.red.wins w x } }
def State.winState (s : State) (w : Nat) : Nat := s.fget F.RED_WIN_STATUS_STATE 0 w
def State.setWinState (s : State) (w st : Nat) : State := s.fset F.RED_WIN_STATUS_STATE st 0 w

def State.winBase (s : State) (w : Nat) : Nat := s.fget F.RED_WIN_BASE_ADDR 0 w * 4096
def State.winCnt (s : State) (w : Nat) : Nat := s.fget F.RED_WIN_CNT_ADDR 0 w * 64
def State.winV (s : State) (w : Nat) : Nat := s.fget F.RED_WIN_VBASE_ADDR 0 w * 256
def State.winOut (s : State) (w : Nat) : Nat := s.fget F.RED_WIN_OUT_ADDR 0 w * 64
def State.winChunks (s : State) (w : Nat) : Nat := s.fget F.RED_WIN_SIZE_NCHUNKM1 0 w + 1
def State.winFp32 (s : State) (w : Nat) : Bool := s.flag F.RED_WIN_CTRL_OP 0 w
/-- Bytes of an output element (R391). -/
def State.winB (s : State) (w : Nat) : Nat :=
  match s.fget F.RED_WIN_CTRL_OFMT 0 w with
  | 1 => 2
  | 2 => 8
  | _ => 4

/-- RED_VFY in force (R405). -/
def State.vfyEn (s : State) : Bool := bit s.red.vfy 5
def State.vfyN (s : State) : Nat := 2 ^ bits s.red.vfy 4 0
def State.vfyTau (s : State) : Nat := bits s.red.vfy 11 6
def State.vfyProf (s : State) : Nat := bits s.red.vfy 15 12

/-- Verification slots that a window has when it is enabled now (R397). -/
def State.winSlots (s : State) (w : Nat) : Nat := if s.flag F.RED_WIN_CTRL_VFY_EN 0 w then s.winChunks w / s.vfyN + 1 else 0

/-- The regions of a window: first address and bytes (R376, R378). -/
def State.winRegions (s : State) (w slots : Nat) : List (Nat × Nat) :=
  [(s.winBase w, 256 * s.winChunks w), (s.winCnt w, 4 * (s.winChunks w + slots)), (s.winOut w, s.winChunks w * 32 * s.winB w)]
    ++ (if slots = 0 then [] else [(s.winV w, 256 * slots)])

def rangesMeet (a b : Nat × Nat) : Bool := decide (a.1 < b.1 + b.2 ∧ b.1 < a.1 + a.2)

/-- The reason for which a window cannot be enabled (R379, R407). -/
def State.winBad (s : State) (w : Nat) : Option Nat :=
  let rs := s.winRegions w (s.winSlots w)
  let others := (List.range 1024).flatMap fun v =>
    if v ≠ w ∧ s.winState v ≠ wDISABLED then s.winRegions v (s.win v).slots else []
  let own := (List.range rs.length).any fun i => (List.range i).any fun j => rangesMeet (rs.getD i (0, 0)) (rs.getD j (0, 0))
  if !rs.all (fun r => s.inStacks r.1 r.2) then some 1
  else if own || rs.any (fun r => others.any (rangesMeet r)) then some 2
  else if s.fget F.RED_WIN_CTRL_OFMT 0 w = 3 ∨ s.fget F.RED_WIN_DEADLINE_NS 0 w = 0 ∨ !fin32 (s.fget F.RED_WIN_K_K 0 w) then some 3
  else none

/-- A window begins to clear, or is rejected (R379). -/
def State.winStart (s : State) (w : Nat) : State :=
  match s.winBad w with
  | some r => ((s.setWinState w wDISABLED).fset F.RED_WIN_STATUS_REJECT r 0 w).raise 0x8007 kMODULE 0 (w + r * 2 ^ 16)
  | none => (s.setWin w { slots := s.winSlots w }).setWinState w wCLEARING

/-- A window begins to stop (R379). -/
def State.winStop (s : State) (w kind : Nat) : State :=
  let x := s.win w
  (s.setWin w { x with stop := kind }).setWinState w wSTOPPING

/-- A write of RED_WIN_CTRL.ENABLE (R379). -/
def State.winEnable (s : State) (w : Nat) (v : Bool) : State :=
  let s := s.fset F.RED_WIN_CTRL_ENABLE (b2n v) 0 w
  let st := s.winState w
  if v then
    if st = wDISABLED then s.winStart w
    else if st = wSTOPPING then s.fset F.RED_WIN_STATUS_ENABLE_PENDING 1 0 w
    else s
  else if st = wARMED ∨ st = wCLOSED then s.setWinState w wDISABLED
  else if st = wCLEARING then s.winStop w 1
  else if st = wOPEN then s.winStop w 2
  else if st = wCLOSING then s.winStop w 3
  else if st = wSTOPPING then s.fset F.RED_WIN_STATUS_ENABLE_PENDING 0 0 w
  else s

/-- A stop of a window has completed (R379). -/
def State.winStopped (s : State) (w : Nat) : State :=
  let x := s.win w
  let s := (s.setWin w { x with stop := 0, closing := false, taken := [] }).setWinState w wDISABLED
  if s.flag F.RED_WIN_STATUS_ENABLE_PENDING 0 w then (s.fset F.RED_WIN_STATUS_ENABLE_PENDING 0 0 w).winStart w else s

/-- Zeros with clear poison bits over stack bytes (R379). -/
def State.zeroFill (s : State) (r : Nat × Nat) : State :=
  let ch := fun (a : Nat) => (s.ilvOf a).chan
  let caddr := fun (a : Nat) => (s.ilvOf a).caddr / 64
  if r.2 = 0 then s
  else
    (cutLines r.1 (zeros r.2)).foldl (fun s l =>
      let a := 64 * l.1
      let (old, p) := s.accNow (ch a) (caddr a)
      let new := (old.zip (List.range 64)).map fun o => if bit l.2.1 o.2 then 0 else o.1
      s.accPut (ch a) (caddr a) new (p && l.2.1 != fullMask)) s

/-- Everything that the controllers have accepted is applied. -/
def State.hbmSettleAll (s : State) : State := s.chans.foldl (fun s c => s.hbmSettle c.1) s

/-- A count word is increased, saturating (R387). -/
def State.countAdd (s : State) (u : CntUpd) : State :=
  s.memPut u.addr (leBytes 4 (min (s.memNat u.addr 4 + u.n) 0xFFFF_FFFF))

/-- The count updates of a window that are still on their way arrive. -/
def State.countSettle (s : State) (w : Nat) : State :=
  let us := s.red.pend.filter (·.win == w)
  us.foldl State.countAdd { s with red := { s.red with pend := s.red.pend.filter (·.win != w) } }

/-! ## Verification (R396, R397) -/

/-- rot of a step and window (R396). -/
def State.vfyRot (s : State) (k w : Nat) : Nat := ctrHash (s.fget F.RED_VFY_KEY_KEY) (k % 2 ^ 32) w % s.vfyN

/-- Is the chunk at a span address sampled (R396)? -/
def State.vfySampled (s : State) (k w a : Nat) : Bool := s.vfyEn && (a / 256 + s.vfyRot k w) % s.vfyN == 0

/-- Verification slot of a chunk that the owner samples (R397). -/
def State.vfySlot (s : State) (w a : Nat) : Option Nat :=
  let x := s.win w
  let rot := s.vfyRot x.step w
  let j := (a / 256 + rot) / s.vfyN - (s.winBase w / 256 + rot) / s.vfyN
  if s.flag F.RED_WIN_CTRL_VFY_EN 0 w && s.vfySampled x.step w a && decide (j < x.slots) then some j else none

/-! ## Contributions (R380 to R389) -/

/-- A contribution at the owner: window, chunks covered, first chunk address, its elements as stored codes by chunk, its weight,
its verification flag, sender (1023 for local), whether it is malformed, poisoned, and how its step stands to the window's
(negative: older). -/
structure Contrib where
  win : Nat
  k : Nat
  addr : Nat
  elems : List (List Byte)
  n : Nat
  vfy : Bool
  sender : Nat
  bad : Bool
  poison : Bool
  age : Int
  deriving DecidableEq, Repr

/-- Statuses of R384. -/
def raLATE : Nat := 8
def raEARLY : Nat := 9
def raNO_WINDOW : Nat := 10
def raMALFORMED : Nat := 11
def raPOISONED : Nat := 12

/-- Does a contribution cover whole chunks of its window's span (R385 item 2)? -/
def State.inSpan (s : State) (w a k : Nat) : Bool :=
  let b := s.winBase w
  decide (a % 256 = 0 ∧ (k = 1 ∨ k = 2) ∧ b ≤ a ∧ a + 256 * k ≤ b + 256 * s.winChunks w)

/-- Addresses of the chunks that a contribution covers. -/
def Contrib.chunks (x : Contrib) : List Nat := (List.range x.k).map fun i => x.addr + 256 * i

/-- The outcome of a contribution accepted now (R385, R386). -/
def State.contribStatus (s : State) (x : Contrib) : Nat :=
  let st := s.winState x.win
  let w := s.win x.win
  if st ≠ wOPEN ∧ st ≠ wCLOSING ∧ st ≠ wCLOSED then raNO_WINDOW
  else if x.bad || !s.inSpan x.win x.addr x.k || (x.vfy && (x.chunks.filterMap (s.vfySlot x.win)).isEmpty) then raMALFORMED
  else if x.poison then raPOISONED
  else if 0 < x.age then raEARLY
  else if x.age < 0 then raLATE
  else if st ≠ wOPEN ∨ w.dln < s.clk.wt then raLATE
  else stOK

/-- One chunk's elements join the queue of their controller (R387). -/
def State.contribPut (s : State) (w a : Nat) (data : List Byte) (p : Packet) : State :=
  let x := s.ilvOf a
  s.hbmQueue x.chan 3 (if s.winFp32 w then 1 else 0) { p with data := data, lenm1 := data.length - 1, poison := false } x.caddr

/-- A contribution that is applied (R387, R397). -/
def State.contribApply (s : State) (x : Contrib) (p : Packet) : State :=
  let base := s.winBase x.win
  let cnt := s.winCnt x.win
  let pend := fun (s : State) (a : Nat) => { s with red := { s.red with pend := s.red.pend ++ [⟨x.win, a, x.n⟩] } }
  let s := (x.chunks.zip x.elems).foldl (fun s c =>
    let s := if x.vfy then s else pend (s.contribPut x.win c.1 c.2 p) (cnt + 4 * ((c.1 - base) / 256))
    if x.vfy || x.sender == 1023 then
      match s.vfySlot x.win c.1 with
      | none => s
      | some j => pend (s.contribPut x.win (s.winV x.win + 256 * j) c.2 p) (cnt + 4 * (s.winChunks x.win + j))
    else s) s
  if x.vfy then s else s.count .RED_WIN_APPLIED x.n 0 x.win

/-- A contribution that is not applied (R389). -/
def State.contribDrop (s : State) (x : Contrib) (status : Nat) : State :=
  let s := s.count .RED_BAD_CONTRIBS
  if status = raLATE then
    let s := s.count .RED_WIN_LATE x.n 0 x.win
    let w := s.win x.win
    let s := s.setWin x.win { w with lateSeen := true, late := min (w.late + x.n) 0xFFFF_FFFF }
    if w.lateSeen then s
    else s.raise 0x8001 kMODULE 0 (x.win + x.sender * 2 ^ 16 + min (s.clk.wt - w.dln) 0xFFFF_FFFF * 2 ^ 32)
  else s.raiseLim 0x8005 kMODULE 0 (status + x.sender * 2 ^ 16)

/-- Pieces of n bytes of a payload. -/
def chunked (n k : Nat) (d : List Byte) : List (List Byte) := (List.range k).map fun i => (d.drop (n * i)).take n

/-- PAIR64 elements converted RNE to FP32 (R64). -/
def pairsToFp32 (d : List Byte) : List Byte :=
  (List.range (d.length / 8)).flatMap fun i => leBytes 4 (rnVal (pairVal (leNat ((d.drop (8 * i)).take 8))))

/-- BF16 elements widened to FP32 (R278). -/
def bf16ToFp32 (d : List Byte) : List Byte :=
  (List.range (d.length / 2)).flatMap fun i => leBytes 4 (leNat ((d.drop (2 * i)).take 2) * 2 ^ 16)

/-- The RID's step at this module: RED_STEP_COUNT or the one before, by the entry's parity (R381). -/
def State.ridStep (s : State) (rid : Nat) : Int :=
  let n := (s.rd .RED_STEP_COUNT).toNat
  if n % 2 = s.fget F.RED_RID_PAR 0 rid then n else (n : Int) - 1

/-- A RED of the owner's own fabric as a contribution (R388). -/
def State.localContrib (s : State) (p : Packet) : Contrib :=
  let w := s.fget F.RED_RID_WIN 0 p.rid
  let n := p.data.length
  let parts := chunked 256 (n / 256) p.data
  {
    win := w, k := n / 256, addr := p.addr, elems := if s.winFp32 w then parts.map pairsToFp32 else parts, n := p.count
    vfy := false, sender := 1023, bad := n != 256 && n != 512, poison := p.poison
    age := s.ridStep p.rid - (s.win w).step }

/-- Does a local RED name a window that is not DISABLED (R388)? -/
def State.redCounts (s : State) (p : Packet) : Bool :=
  p.typ == Packet.RED && p.rid != 0 && s.flag F.RED_RID_VALID 0 p.rid && s.winState (s.fget F.RED_RID_WIN 0 p.rid) != wDISABLED

/-- A local RED is tested and applied or counted; it is answered OK (R388). -/
def State.localRed (s : State) (p : Packet) : State :=
  let x := s.localContrib p
  let st := s.contribStatus x
  let s := if st = stOK then s.contribApply x p else s.contribDrop x st
  s.rimSend (packetReply p Packet.WACK stOK) s.clk.tb

/-- The type of a packet that carries a RACC from a Brim port to a controller (R385). Its fields: `count` CONTRIB, `rid` WIN,
`flags` STEP16, `wop` WIRE, `arrive` VFY, `mid` the sender's id, `ctr` 1 where a reserved encoding is present. -/
def Packet.RACC : Nat := 12

/-- A RACC as a contribution (R385). -/
def State.raccContrib (s : State) (p : Packet) : Contrib :=
  let per := match p.wop with
    | 0 => 256
    | 1 => 128
    | _ => 64
  let n := p.data.length
  let d := (p.flags + 65536 - (s.win p.rid).step % 65536) % 65536
  let parts := chunked per (n / per) p.data
  {
    win := p.rid, k := n / per, addr := p.addr, elems := if p.wop = 2 then parts.map bf16ToFp32 else parts, n := p.count
    vfy := p.arrive, sender := p.mid
    bad := n % per != 0 || p.ctr != 0 || p.wop == 3 || (s.winFp32 p.rid == (p.wop == 0)), poison := p.poison
    age := if d = 0 then 0 else if d < 32768 then 1 else -1 }

/-- The answer to a RACC. -/
def raccReply (p : Packet) (status : Nat) : Packet :=
  { typ := Packet.WACK, dest := p.src, src := p.dest, addr := p.addr, flags := status, op := p.op }

/-! ## Close-out (R390 to R395, R398) -/

/-- The exact result of one element: K × s, divided by C where MEAN is 1 (R391), as a value with a fraction: NaN, ∞ or ±n ÷ d. -/
inductive RedVal where
  | nan
  | inf (neg : Bool)
  | fin (neg : Bool) (n d : Nat)

def redVal (k : Val) (v : Val) (mean : Bool) (c : Nat) : RedVal :=
  if mean && c == 0 then .fin false 0 1
  else
    match k.mulv v with
    | .nan => .nan
    | .inf neg => .inf neg
    | .fin neg m e => .fin neg (m * pow2Num e) (pow2Den e * (if mean then c else 1))

/-- A result rounded RNE to a format (R72). -/
def redRound (f : Fmt) : RedVal → Nat
  | .nan => f.qnan
  | .inf neg => f.signed neg (f.inf.getD f.maxCode)
  | .fin neg n d => (f.convFin .rne false neg n d 0).code

/-- A result in an output format (R391): its code. -/
def redOut (ofmt : Nat) (v : RedVal) : Nat :=
  match ofmt with
  | 1 => redRound bf16 v
  | 2 =>
    let hi := redRound fp32 v
    match v, v32 hi with
    | .fin neg n d, .fin hneg m e =>
      let a : Int := (if neg then -1 else 1) * (n : Int) * pow2Den e
      let b : Int := (if hneg then -1 else 1) * (m : Int) * pow2Num e * d
      let r := a - b
      mkPair hi (if r = 0 then 0 else (fp32.convFin .rne false (decide (r < 0)) r.natAbs (d * pow2Den e) 0).code)
    | _, _ => mkPair hi 0
  | _ => redRound fp32 v

/-- Is a written element non-finite (R393)? -/
def redNonfinite (ofmt code : Nat) : Bool :=
  match ofmt with
  | 1 => !(bf16.val code).isFin
  | 2 => !(v32 (pairHi code)).isFin
  | _ => !(v32 code).isFin

/-- Does an element mismatch (R398)? -/
def vfyMismatch (tau m v : Nat) : Bool :=
  match v32 m, v32 v with
  | .fin mn mm me, .fin vn vm ve =>
    let a := (Val.fin mn mm me).dy
    let b := (Val.fin vn vm ve).dy
    let d := a.add b.neg
    let abs := fun (x : Dy) => (⟨x.m.natAbs, x.e⟩ : Dy)
    ((abs a).add (abs b)).lt ⟨d.m.natAbs, d.e + tau⟩
  | .nan, .nan => false
  | .inf a, .inf b => a != b
  | _, _ => true

/-- Close-out reads and clears the access that holds stack byte a, unless it already has (R390); bytes that lie outside the
window's count array stay. -/
def State.winTake (s : State) (w a : Nat) (ups : List Upset) : State :=
  let ca := s.ilvOf a
  let ac := ca.caddr / 64
  let x := s.win w
  if x.taken.any (fun e => e.1 == accKey ca.chan ac) then s
  else
    let s := s.hbmSettle ca.chan
    let (s, d, p) := s.readClear ca.chan ac ups
    let s := s.setWin w { (s.win w) with taken := minsert x.taken (accKey ca.chan ac) (d, p) }
    let line := a / 64 * 64
    let cnt := s.winCnt w
    let fin := cnt + 4 * (s.winChunks w + x.slots)
    if cnt ≤ line ∧ line < fin ∧ fin < line + 64 then
      s.accPut ca.chan ac (zeros (fin - line) ++ d.drop (fin - line)) p
    else s

/-- What close-out has read at stack bytes [a, a + n), in one access. -/
def State.winTaken (s : State) (w a n : Nat) : List Byte × Bool :=
  let ca := s.ilvOf a
  let (d, p) := mget (zeros 64, false) (s.win w).taken (accKey ca.chan (ca.caddr / 64))
  ((d.drop (a % 64)).take n, p)

/-- Bytes of a chunk's elements (R377). -/
def State.chunkBytes (s : State) (w : Nat) : Nat := if s.winFp32 w then 128 else 256

/-- What close-out has read over n bytes from a 64 B aligned address. -/
def State.winTakenRun (s : State) (w a n : Nat) : List Byte × Bool :=
  (List.range (n / 64)).foldl (fun acc i =>
    let (d, p) := s.winTaken w (a + 64 * i) 64
    (acc.1 ++ d, acc.2 || p)) ([], false)

/-- The counts of a close-out (R395). -/
structure CloseRec where
  empty : Nat := 0
  short : Nat := 0
  nonfin : Nat := 0
  pois : Nat := 0
  mism : Nat := 0
  deriving DecidableEq, Repr

/-- Close-out of one chunk (R390 to R393, R398). -/
def State.closeChunk (s : State) (w c : Nat) (r : CloseRec) : State × CloseRec :=
  let a := s.winBase w + 256 * c
  let nb := s.chunkBytes w
  let cw := s.winCnt w + 4 * c
  let slot := s.vfySlot w a
  let addrs := (List.range (nb / 64)).map (a + 64 * ·) ++ [cw] ++ (match slot with
    | none => []
    | some j => (List.range (nb / 64)).map (s.winV w + 256 * j + 64 * ·) ++ [s.winCnt w + 4 * (s.winChunks w + j)])
  let s := addrs.foldl (fun s b => s.winTake w b []) s
  let (d, dp) := s.winTakenRun w a nb
  let (cb, cp) := s.winTaken w cw 4
  let cnt := if cp then 0 else leNat cb
  let fp := s.winFp32 w
  let sums := (List.range 32).map fun e => if fp then leNat ((d.drop (4 * e)).take 4) else leNat ((d.drop (8 * e)).take 8)
  let asVal := fun (x : Nat) => if fp then v32 x else pairVal x
  let k := v32 (s.fget F.RED_WIN_K_K 0 w)
  let ofmt := s.fget F.RED_WIN_CTRL_OFMT 0 w
  let mean := s.flag F.RED_WIN_CTRL_MEAN 0 w
  let outs := sums.map fun x => redOut ofmt (redVal k (asVal x) mean cnt)
  let b := s.winB w
  let s := s.memPut (s.winOut w + c * 32 * b) (outs.flatMap (leBytes b)) (dp || cp)
  let exp := s.fget F.RED_WIN_EXPECT_EXPECT 0 w
  let isEmpty := cnt == 0
  let isShort := decide (0 < cnt ∧ cnt < exp)
  let s := if isEmpty then s.count .RED_WIN_EMPTY 1 0 w else s
  let s := if isShort then s.count .RED_WIN_SHORT 1 0 w else s
  let r := { r with
    empty := r.empty + b2n isEmpty, short := r.short + b2n isShort
    nonfin := r.nonfin + outs.countP (redNonfinite ofmt), pois := r.pois + b2n (dp || cp) }
  match slot with
  | none => (s, r)
  | some j =>
    let (vd, _) := s.winTakenRun w (s.winV w + 256 * j) nb
    let vc := leNat (s.winTaken w (s.winCnt w + 4 * (s.winChunks w + j)) 4).1
    if cnt = 0 ∨ vc ≠ cnt then (s, r)
    else
      let s := s.count .RED_VFY_COMPARED
      let toF := fun (x : Nat) => if fp then x else rnVal (pairVal x)
      let vsums := (List.range 32).map fun e => if fp then leNat ((vd.drop (4 * e)).take 4) else leNat ((vd.drop (8 * e)).take 8)
      match (List.range 32).find? (fun e => vfyMismatch s.vfyTau (toF (sums.getD e 0)) (toF (vsums.getD e 0))) with
      | none => (s, r)
      | some e =>
        let s := s.count .RED_VFY_MISMATCHES
        let s := if r.mism = 0 then s.raise 0x8004 kMODULE 0 (w + e * 2 ^ 10 + c * 2 ^ 16) else s
        (s, { r with mism := r.mism + 1 })

/-- The close-out record (R395). -/
def State.closeRecord (s : State) (w : Nat) (r : CloseRec) : List Byte :=
  let x := s.win w
  let sat := fun (v : Nat) => min v 0xFFFF_FFFF
  leBytes 8 x.step ++ leBytes 4 (s.winChunks w) ++ leBytes 4 r.empty ++ leBytes 4 r.short ++ leBytes 4 x.late
    ++ leBytes 4 (sat r.nonfin) ++ leBytes 4 r.pois ++ leBytes 4 r.mism ++ leBytes 2 w ++ zeros 26

/-- Name of the close-out records' writes in `Packet.op`. -/
def opRecord : Nat := 2 ^ 60

/-- The record goes to line LINE of every core of the notified slot (R394). -/
def State.closeNotify (s : State) (w : Nat) (r : CloseRec) : State :=
  if !s.flag F.RED_WIN_NOTIFY_EN 0 w then s
  else
    let data := s.closeRecord w r
    (s.tractCores (s.fget F.RED_WIN_NOTIFY_TRACT 0 w)).foldl (fun s c =>
      s.rimSend { typ := Packet.WR, dest := c, src := destReg
                  addr := spWindow + c * slotBytes + 64 * s.fget F.RED_WIN_NOTIFY_LINE 0 w, lenm1 := 63, data := data
                  arrive := true, ctr := s.fget F.RED_WIN_NOTIFY_CTR 0 w, op := opRecord } s.clk.tb) s

/-- Close-out runs to its end (R390 to R394). -/
def State.closeOut (s : State) (w : Nat) : State :=
  let out := (List.range (s.winChunks w)).foldl (fun (acc : State × CloseRec) c => acc.1.closeChunk w c acc.2) (s, {})
  let s := out.1
  let r := out.2
  let m26 := 2 ^ 26 - 1
  let s := if r.empty = 0 ∧ r.short = 0 then s
    else s.raise 0x8002 kMODULE 0 (w + min r.empty m26 * 2 ^ 10 + min r.short m26 * 2 ^ 36)
  let s := if r.pois = 0 ∧ r.nonfin = 0 then s
    else s.raise 0x8003 kMODULE 0 (w + min r.pois m26 * 2 ^ 10 + min r.nonfin (2 ^ 28 - 1) * 2 ^ 36)
  let s := s.nonfinite r.nonfin
  let s := s.closeNotify w r
  let x := s.win w
  s.setWin w { x with taken := [], closing := false }

/-! ## The scale records' update (R80) -/

/-- Entry n of a record's history. -/
def State.hist (s : State) (rec n : Nat) : Nat :=
  let v := (s.rd .SCALE_HIST_W rec (n / 2)).toNat
  if n % 2 = 0 then bits v 15 0 else bits v 31 16

def State.setHist (s : State) (rec n h : Nat) : State :=
  let v := (s.rd .SCALE_HIST_W rec (n / 2)).toNat
  s.wr .SCALE_HIST_W (BitVec.ofNat 64 (if n % 2 = 0 then setBits v 15 0 h else setBits v 31 16 h)) rec (n / 2)

/-- The update of one record (R80). -/
def State.scaleUpdate (s : State) (rec : Nat) : State :=
  let head := s.fget F.SCALE_STATE_HEAD rec
  let s := s.setHist rec head (ruBf16 (s.fget F.SCALE_CUR_AMAX_AMAX rec))
  let s := (s.fset F.SCALE_STATE_HEAD ((head + 1) % 16) rec).fset F.SCALE_CUR_AMAX_AMAX 0 rec
  let m := (List.range 16).foldl (fun a n => max a (histEntry (s.hist rec n))) 0
  let s :=
    if m = 0 ∨ s.flag F.SCALE_CTRL_FROZEN rec then s
    else
      let e := scaleE0 m (fmtMaxOf (s.fget F.SCALE_CTRL_FMT rec)) - toSigned 8 (s.fget F.SCALE_CTRL_MARGIN rec)
      let s := if 126 < e ∨ e < -126 then s.raise 0x1004 kSCALE rec (ofSigned 64 e) else s
      s.fset F.SCALE_STATE_EXP (ofSigned 8 (min (max e (-126)) 126)) rec
  let sat := mget 0 s.red.satRise rec
  let nf := mget 0 s.red.nfRise rec
  let s := if s.flag F.SCALE_CTRL_SAT_EVT rec ∧ sat ≠ 0 then s.raise 0x1002 kSCALE rec sat else s
  if nf ≠ 0 then s.raise 0x1003 kSCALE rec nf else s

/-- Action 3 of R402: every enabled record. -/
def State.scaleUpdateAll (s : State) : State :=
  let s := (List.range 3072).foldl (fun s r => if s.flag F.SCALE_CTRL_ENABLE r then s.scaleUpdate r else s) s
  { s with red := { s.red with satRise := [], nfRise := [] } }

end Sys2Proof.Machine
end

