-- ==== Sys2Proof/Machine/MgOps.lean ====
section
/-! DEFINITION. Operations that management firmware performs for every unit: the lifetime log (R525, R526), MOD_STATUS.DEGRADED,
the effects of a map-out (R287, R425). -/

namespace Sys2Proof.Machine
open Sys2Proof

/-! ## Lifetime log (R525, R526) -/

/-- A commit to the store: the counters and histograms that the window shows, or a record alone. -/
def State.logStamp (s : State) : State :=
  let l := s.log
  let n := mget 0 l.stored 0 + 1
  let put := fun (m : SMap Nat) => mput 0 (mput 0 m 0 n) 8 s.clk.wt
  { s with log := { l with live := put l.live, shown := put l.shown, stored := put l.stored } }

/-- Counters and histograms are brought up to date in the window. -/
def State.logShow (s : State) : State := { s with log := { s.log with shown := s.log.live } }

/-- Counters and histograms are committed to the store. -/
def State.logCommit (s : State) : State :=
  let s := s.logShow
  { s with log := { s.log with stored := s.log.shown } }.logStamp

/-- A record is written into the ring and committed (R525, R526). -/
def State.logRecord (s : State) (kind data detail : Nat) : State :=
  let l := s.log
  let n := mget 0 l.live 0xF00
  let put := fun (m : SMap Nat) => mput 0 m 0xF00 ((n + 1) % 1024)
  let r : LogRec := ⟨kind, data % 2 ^ 32, s.clk.wt, detail % 2 ^ 64⟩
  { s with log := {
      live := put l.live, shown := put l.shown, stored := put l.stored, recs := mput LogRec.zero l.recs n r } }.logStamp

/-! ## MOD_STATUS.DEGRADED (01; R424) -/

/-- MOD_STATUS.DEGRADED: a stack is mapped out, a Brim port is FAILED or DEGRADED, or a segment has an unusable core. -/
def State.setDegraded (s : State) : State :=
  let lostSt := (List.range 24).any fun st => s.hState st == hMAPPED_OUT
  let ports := (List.range 6).any fun p => s.fget F.BRIM_STATUS_STATE p == 3 || s.fget F.BRIM_STATUS_STATE p == 5
  let bad := fun (seg : Nat) =>
    let a := s.fget F.MOD_SPARE_SKIP_SKIP_A 0 seg
    let b := s.fget F.MOD_SPARE_SKIP_SKIP_B 0 seg
    setBits (setBits (s.fget F.MOD_SPARE_FAIL_FAILED 0 seg) a a 0) b b 0 != 0
  s.fset F.MOD_STATUS_DEGRADED (b2n (lostSt || ports || (List.range 600).any bad))

/-! ## Loss of a stack's group (R425) -/

/-- Does a run of stack bytes meet the group of a stack? -/
def State.inGroupOf (s : State) (st a n : Nat) : Bool :=
  let gsz := (s.ilvG + 1) * stackBytes
  let g := st / (s.ilvG + 1)
  decide (a < (g + 1) * gsz ∧ g * gsz < a + n)

/-- What firmware does after a map-out (R425). -/
def State.groupLost (s : State) (st : Nat) : State :=
  let s := (List.range 1024).foldl (fun s w =>
    if s.winState w = wDISABLED ∨ !(s.winRegions w (s.win w).slots).any (fun r => s.inGroupOf st r.1 r.2) then s
    else
      let s := (s.setWinState w wSTOPPING).fset F.RED_WIN_STATUS_ENABLE_PENDING 0 0 w
      let s := (s.setWin w {}).setWinState w wDISABLED
      (s.fset F.RED_WIN_STATUS_REJECT 1 0 w).raise 0x8007 kMODULE 0 (w + 1 * 2 ^ 16)) s
  (List.range 32).foldl (fun s i =>
    if s.gsState i ≠ gsDISABLED ∧ s.inGroupOf st (s.gsTable i) (16 * s.gsN i) then s.gsFault i 1 (s.gsTable i) else s) s

end Sys2Proof.Machine
end

