-- ==== Sys2Proof/Machine/Reduction.lean ====
section
/-! DEFINITION. Meanings of the reduction's commands (11), of the controllers' acceptance (08) and of the end of a stack's stop;
step-boundary processing itself is in StepBound. -/

namespace Sys2Proof.Machine
open Sys2Proof

/-! ## Acceptance at a controller (R269, R284) -/

/-- The reason for which a controller refuses every request (R284, R290). -/
def State.chanReason (s : State) (ch : Nat) : Option Nat :=
  let st := ch / 32
  if s.hState st = hMAPPED_OUT ∨ (s.stack st).mapout.isSome then some 2
  else if s.hState st ≠ hENABLED then some 1 else none

/-- What a controller does with a request that has reached it (R252, R268, R269, R284, R325, R326, R388). -/
def State.chanAccept (s : State) (p : Packet) : State :=
  if p.dest < 0x8000 ∨ 0x8300 ≤ p.dest then s
  else
    let ch := p.dest - 0x8000
    let taken := s.take p (.rim p.dest)
    let kind := if p.typ = Packet.RD then 1 else if p.typ = Packet.WR ∧ p.wop = 0 then 2 else 3
    if !s.boot.hbmUp then taken.discard (edgeCore p.dest 0 0) p 2
    else
      match taken.chanReason ch with
      | some r => taken.hbmRefuse ch p r
      | none =>
        if kind = 3 ∧ (lauterOf p).isNone then taken.hbmRefuse ch p 3
        else
          let n := p.lenm1 + 1
          let ca := (s.ilvOf p.addr).caddr
          let waits := if kind = 1 then [] else taken.rackDefers p.addr n
          if 256 < (taken.chan ch).load + ((ca % 64 + p.lenm1) / 64 + 1) then s
          else if waits ≠ [] then
            { s with rack := { s.rack with first := s.rack.first ++ waits.filter (fun e => !(s.rack.first.contains e)) } }
          else
            let s := if kind = 1 then taken else taken.rackMark p.addr n
            if s.redCounts p then s.localRed p
            else
              let s := s.hbmQueue ch kind ((lauterOf p).getD 0) p ca
              if kind = 1 then s else s.rimSend (packetReply p Packet.WACK stOK) s.clk.tb

/-- What a controller does with a RACC that has reached it (R385 to R387, R389). -/
def State.raccAccept (s : State) (p : Packet) : State :=
  if p.dest < 0x8000 ∨ 0x8300 ≤ p.dest then s
  else
    let ch := p.dest - 0x8000
    let taken := s.take p (.rim p.dest)
    if !s.boot.hbmUp then taken.rimSend (raccReply p stREFUSED) taken.clk.tb
    else
      match taken.chanReason ch with
      | some r =>
        let s := taken.count .HBMC_REFUSED 1 (ch / 32)
        let s := s.raiseLim 0x6004 kCHANNEL ch (r + 0x0C * 2 ^ 8)
        s.rimSend (raccReply p stREFUSED) s.clk.tb
      | none =>
        let x := taken.raccContrib p
        let n := 256 * x.k
        let waits := if taken.contribStatus x = stOK then taken.rackDefers p.addr n else []
        if 256 < (taken.chan ch).load + 4 * max x.k 1 then s
        else if waits ≠ [] then
          { s with rack := { s.rack with first := s.rack.first ++ waits.filter (fun e => !(s.rack.first.contains e)) } }
        else
          let st := taken.contribStatus x
          let s :=
            if st = stOK then
              let s := taken.rackMark p.addr n
              (s.contribApply x p).monSample 3 x.win 0x3FF ((s.win x.win).dln - s.clk.wt)
            else taken.contribDrop x st
          s.rimSend (raccReply p st) s.clk.tb

/-- CHANNEL_REQUEST_ACCEPT (R269). -/
def execChannelRequestAccept (packet : Packet) (s : State) : Out := .next (s.chanAccept packet)

/-- RACC_ACCEPT (R385). -/
def execRaccAccept (packet : Packet) (s : State) : Out := .next (s.raccAccept packet)

/-- LOCAL_RED_ACCEPT (R388). -/
def execLocalRedAccept (packet : Packet) (s : State) : Out := .next (s.chanAccept packet)

/-- COUNT_UPDATE (R387): the oldest update on its way to a controller. -/
def execCountUpdate (chan : Chan) (s : State) : Out :=
  match s.red.pend.find? (fun u => (s.ilvOf u.addr).chan == chan.val) with
  | none => .next s
  | some u => .next ({ s with red := { s.red with pend := s.red.pend.erase u } }.countAdd u)

/-- HBM_READ_CLEAR (R268, R390): close-out of a window reads and clears one access of its elements, its counts or its
verification region. -/
def execHbmReadClear (chan : Chan) (access : Fin 41943040) (upsets : List Upset) (s : State) : Out :=
  let a := s.stackAddr chan (64 * access.val)
  let holds := fun (w : Nat) =>
    let x := s.win w
    x.closing && ((s.winRegions w x.slots).zip [true, true, false, true]).any fun r => r.2 && rangesMeet r.1 (a, 64)
  match (List.range 1024).find? holds with
  | none => .next s
  | some w => .next (s.winTake w a upsets)

/-! ## AMAX (R79) -/

/-- An amax report reaches the scale unit (R79, R410). -/
def State.amaxApply (s : State) (p : Packet) : State :=
  let s := s.take p (.rim destScale)
  let k := p.addr
  let a := leNat (p.data.take 4)
  let nf := leNat ((p.data.drop 4).take 4)
  let s := if a = 0 then s else s.fset F.SCALE_CUR_AMAX_AMAX (amaxCode (s.fget F.SCALE_CUR_AMAX_AMAX k) a) k
  let s := s.fset F.SCALE_NF_COUNT_COUNT (min (s.fget F.SCALE_NF_COUNT_COUNT k + nf) (2 ^ 64 - 1)) k
  let s := { s with red := { s.red with nfRise := if nf = 0 then s.red.nfRise else mupd 0 s.red.nfRise k (· + nf) } }
  (s.nonfinite nf).rimSend (packetReply p Packet.WACK stOK) s.clk.tb

/-! ## Windows (R379, R390, R394) -/

/-- RED_WIN_ENABLE_WRITE (R379). -/
def execRedWinEnableWrite (win : Win) (value : Bool) (s : State) : Out := .next (s.winEnable win value)

/-- The span and counts of a window, and its verification region, are filled with zeros (R379). -/
def State.winZero (s : State) (w : Nat) (verify : Bool) : State :=
  let x := s.win w
  let s := s.hbmSettleAll.countSettle w
  let s := s.zeroFill (s.winBase w, 256 * s.winChunks w)
  let s := s.zeroFill (s.winCnt w, 4 * (s.winChunks w + x.slots))
  if verify then s.zeroFill (s.winV w, 256 * x.slots) else s

/-- WINDOW_CLEARING_COMPLETE (R379). -/
def execWindowClearingComplete (win : Win) (s : State) : Out :=
  let st := s.winState win
  let x := s.win win
  if st = wCLEARING then .next ((s.winZero win true).setWinState win wARMED)
  else if st = wSTOPPING ∧ x.stop = 1 then .next ((s.winZero win true).winStopped win)
  else if st = wSTOPPING ∧ x.stop = 2 then .next ((s.winZero win false).winStopped win)
  else .next s

/-- WINDOW_DEADLINE (R379, R385): the first instant after DLN. -/
def execWindowDeadline (win : Win) (s : State) : Out :=
  if s.winState win ≠ wOPEN then .next s
  else
    let x := s.win win
    let s := s.atWt (x.dln + 1)
    .next ((s.setWin win { s.win win with closeAt := x.dln }).setWinState win wCLOSING)

/-- Has a window still to be closed out? -/
def State.closePending (s : State) (w : Nat) : Bool :=
  s.winState w == wCLOSING || (s.winState w == wSTOPPING && (s.win w).stop == 3)

/-- CLOSE_OUT_START (R390): 2,000 ns after DLN, or after the beginning of the processing that closed the window. -/
def execCloseOutStart (win : Win) (s : State) : Out :=
  if !s.closePending win || (s.win win).closing then .next s
  else
    let s := s.atWt ((s.win win).closeAt + 2000)
    let s := s.hbmSettleAll.countSettle win
    .next (s.setWin win { s.win win with closing := true })

/-- Close-out of a window ends (R390 to R395, R379). -/
def State.closeEnd (s : State) (w : Nat) : State :=
  if !s.closePending w || !(s.win w).closing then s
  else
    let s := s.closeOut w
    if s.winState w = wSTOPPING then s.winStopped w else s.setWinState w wCLOSED

/-! ## STEP_SYNC (R399, R401) -/

def State.stepP (s : State) : Nat := (s.rd .RED_STEP_PERIOD).toNat
def State.stepS (s : State) : Nat := (s.rd .RED_STEP_NEXT).toNat

/-- Are edges captured (R399, R401)? -/
def State.syncOn (s : State) : Bool := s.flag F.RED_CTRL_SYNC_EN && s.flag F.RED_CTRL_SCHED

/-- Both enables being 1 for the first time, the capture windows begin with that of the next boundary (R401). -/
def State.syncBegin (s : State) : State :=
  if s.syncOn then
    (if s.red.sync.isSome then s
     else
       { s with red := { s.red with
          sync := some ((s.rd .RED_STEP_COUNT).toNat, s.stepS, s.stepS - s.stepP / 2), delta := none, deltas := [] } })
  else { s with red := { s.red with sync := none, delta := none, deltas := [] } }

/-- An amount of correction applies to the boundary after number n: at once if n has been processed, else it is held. -/
def State.syncApply (s : State) (n : Nat) (d : Int) : State :=
  if n < (s.rd .RED_STEP_COUNT).toNat then
    s.wr .RED_STEP_NEXT (BitVec.ofInt 64 ((s.stepS : Int) + d))
  else { s with red := { s.red with deltas := s.red.deltas ++ [(n, d)] } }

/-- STEP_SYNC_EDGE (R401, R539): a filtered rising edge, stamped now. -/
def execStepSyncEdge (s : State) : Out :=
  match s.red.sync with
  | none => .next s
  | some (n, b, first) =>
    if !s.syncOn || decide (s.clk.wt < first) then .next s
    else
      let e : Int := (s.clk.wt : Int) - b
      let l : Int := min (s.stepP / 64) 50000
      if s.red.delta.isSome then .next ((s.count .RED_SYNC_EXTRA).raise 0x8009 kMODULE 0 (2 + ofSigned 56 e * 2 ^ 8))
      else
        let d := max (-l) (min l e)
        let big := decide (e.natAbs > l.natAbs)
        let s := s.fset F.RED_SYNC_ERR_ERR (ofSigned 32 (max (-2147483648) (min 2147483647 e)))
        let s := s.wr .RED_SYNC_LAST (BitVec.ofNat 64 s.clk.wt)
        let s := s.fset F.RED_STATUS_SYNC (if big then 2 else 1)
        let s := if big then s.raise 0x8009 kMODULE 0 (1 + ofSigned 56 e * 2 ^ 8) else s
        let s := { s with red := { s.red with delta := some d } }
        .next (s.syncApply n d)

/-- SYNC_WINDOW_END (R401): the capture window in progress closes, P − H − 1 ns after its boundary; the next begins 1 ns later. -/
def execSyncWindowEnd (s : State) : Out :=
  match s.red.sync with
  | none => .next s
  | some (n, b, _) =>
    let p := s.stepP
    let s := s.atWt (b + p - p / 2)
    let s := if s.red.delta.isNone then (s.fset F.RED_STATUS_SYNC 0).raise 0x8009 kMODULE 0 3 else s
    let b' : Int := (b : Int) + p + s.red.delta.getD 0
    .next { s with red := { s.red with sync := some (n + 1, b'.toNat, b + p - p / 2), delta := none } }

/-- STEP_OUT_END (R537). -/
def execStepOutEnd (s : State) : Out :=
  if s.pins.stepOut = 0 then .next s
  else
    let s := s.atWt s.pins.stepOut
    .next { s with pins := { s.pins with stepOut := 0 } }

/-! ## The end of a stack's stop (R282, R283, R287) -/

/-- A stack's stop ends once its queue is complete: the stores are written back (R282, R283, R287). -/
def State.hbmStopEnd (s : State) (st : Nat) : State :=
  let chs := (List.range 32).map (32 * st + ·)
  if s.hState st ≠ hSTOPPING then s
  else
    let s := chs.foldl (fun s ch => s.hbmSettle ch) s
    if chs.any (fun ch => (s.chan ch).queue ≠ [] ∨ (s.chan ch).decs ≠ []) then s
    else
      let s := chs.foldl (fun s ch => s.coalFlush ch (fun _ => true)) s
      let s := (s.fset F.HBMC_CTRL_FLUSH 0 st).fset F.HBMC_STATUS_FLUSHING 0 st
      let x := s.stack st
      match x.mapout with
      | some (reason, ch) =>
        let s := (s.setStack st { x with flush := [] }).fset F.HBMC_STATUS_ENABLE_PENDING 0 st
        let s := (s.fset F.HBMC_STATUS_STATE hMAPPED_OUT st).fset F.HBMC_STATUS_MAPOUT_REASON reason st
        let s := s.setDegraded
        let detail := st + reason * 2 ^ 8 + ch * 2 ^ 16
        let s := (s.life 0xEE8 1).logRecord 4 st detail
        ((s.raise 0x6006 kCHANNEL (32 * st) detail).groupLost st)
      | none =>
        let s := s.setStack st { x with flush := [] }
        if s.flag F.HBMC_STATUS_ENABLE_PENDING st then
          ((s.fset F.HBMC_STATUS_ENABLE_PENDING 0 st).fset F.HBMC_STATUS_STATE hENABLING st)
        else (s.fset F.HBMC_STATUS_STATE hDISABLED st)

/-- HBM_STOPPING_END (R282, R283, R287). -/
def execHbmStoppingEnd (stack : Stack) (s : State) : Out := .next (s.hbmStopEnd stack)

end Sys2Proof.Machine
end

