-- ==== Sys2Proof/Machine/BrimOps.lean ====
section
/-! DEFINITION. The operations of the Brim domain (10): packet headers and frames, port states, routing, tags, serving and
completing requests, replay, flows, time alignment. -/

namespace Sys2Proof.Machine
open Sys2Proof

/-! ## Packet header, frames (R341 to R349) -/

/-- The 32-byte header of a Brim packet as a number (R349). -/
def brimHeader (b : BrimPkt) : Nat :=
  b.wt % 2 ^ 64 + b.tspec % 2 ^ 51 * 2 ^ 64 + b.addr % 2 ^ 46 * 2 ^ 115 + b2n b.poison * 2 ^ 161 + b.ctr % 2 ^ 6 * 2 ^ 162
    + b2n b.arrive * 2 ^ 168 + b.wop % 2 ^ 3 * 2 ^ 169 + b.lenm1 % 2 ^ 13 * 2 ^ 172 + b.lseq % 2 ^ 10 * 2 ^ 185
    + b.hops % 2 ^ 4 * 2 ^ 195 + b.prof % 2 ^ 4 * 2 ^ 199 + b2n b.flowv * 2 ^ 203 + b.flow % 2 ^ 8 * 2 ^ 204
    + b.epoch % 2 ^ 2 * 2 ^ 212 + b.tag % 2 ^ 14 * 2 ^ 214 + b.smid % 2 ^ 10 * 2 ^ 228 + b.dmid % 2 ^ 10 * 2 ^ 238
    + b.status % 2 ^ 4 * 2 ^ 248 + b.typ % 2 ^ 4 * 2 ^ 252

/-- The packet whose header a number spells (R349), with its payload. -/
def brimOfHeader (h : Nat) (data : List Byte) : BrimPkt :=
  { typ := bits h 255 252, status := bits h 251 248, dmid := bits h 247 238, smid := bits h 237 228, tag := bits h 227 214
    epoch := bits h 213 212, flow := bits h 211 204, flowv := bit h 203, prof := bits h 202 199, hops := bits h 198 195
    lseq := bits h 194 185, lenm1 := bits h 184 172, wop := bits h 171 169, arrive := bit h 168, ctr := bits h 167 162
    poison := bit h 161, addr := bits h 160 115, tspec := bits h 114 64, wt := bits h 63 0, data := data }

/-- Does every field of a packet fit its place in the header? -/
def brimFits (b : BrimPkt) : Bool :=
  decide (b.typ < 2 ^ 4 ∧ b.status < 2 ^ 4 ∧ b.dmid < 2 ^ 10 ∧ b.smid < 2 ^ 10 ∧ b.tag < 2 ^ 14 ∧ b.epoch < 2 ^ 2 ∧
    b.flow < 2 ^ 8 ∧ b.prof < 2 ^ 4 ∧ b.hops < 2 ^ 4 ∧ b.lseq < 2 ^ 10 ∧ b.lenm1 < 2 ^ 13 ∧ b.wop < 2 ^ 3 ∧ b.ctr < 2 ^ 6 ∧
    b.addr < 2 ^ 46 ∧ b.tspec < 2 ^ 51 ∧ b.wt < 2 ^ 64)

/-- Bytes that a packet occupies in the bodies of DATA flits (R343). -/
def brimBody (b : BrimPkt) : Nat := upTo 16 (32 + b.data.length)

/-- A packet as it is laid into bodies (R343). -/
def brimBytes (b : BrimPkt) : List Byte :=
  leBytes 32 (brimHeader b) ++ b.data ++ zeros (brimBody b - (32 + b.data.length))

/-- Credits that a packet needs (R344). -/
def brimCredits (b : BrimPkt) : Nat := (brimBody b + 255) / 256

/-- Does a packet travel on the response channel (R344, R351)? -/
def brimResp (b : BrimPkt) : Bool := b.typ == Packet.RDR || b.typ == Packet.WACK || b.typ == Packet.REGR

/-- Is a TYPE assigned (R351)? -/
def brimTypeOk (t : Nat) : Bool := t == 1 || t == 2 || t == 6 || t == 7 || t == 8 || t == 9 || t == 11 || t == 12

/-- Is a packet of a header-only type (R349, R351)? An RD's LENM1 is the length of the read. -/
def brimHeaderOnly (b : BrimPkt) : Bool := b.typ == Packet.REGRD || b.typ == Packet.WACK

/-- One bit of the IEEE 802.3 frame check sequence. -/
def fcsBit (c : Nat) : Nat := if c % 2 = 1 then (c / 2) ^^^ 0xEDB8_8320 else c / 2

/-- CRC-32 as the IEEE 802.3 frame check sequence is computed (R342, R347). -/
def crc32 (d : List Byte) : Nat :=
  (d.foldl (fun c b => (List.range 8).foldl (fun c _ => fcsBit c) (c ^^^ b.toNat)) 0xFFFF_FFFF) ^^^ 0xFFFF_FFFF

/-- Address of interface i of port p of module m: octets 02-5A-00-00-00-00 plus 16m + 2p + i, as the example after R347 has them
(DEDUCED, log entry 22: the sum printed there has a base of more than 48 bits). -/
def brimMac (m p i : Nat) : Nat := 0x25A_0000_0000 + 16 * m + 2 * p + i

/-- Big-endian bytes, as Ethernet carries addresses. -/
def beBytes (n v : Nat) : List Byte := (leBytes n v).reverse

/-- The interface by which a packet goes out in Ethernet mode: 0 A, 1 B (R347). -/
def brimIface (b : BrimPkt) : Nat := b.tag % 2

/-- The frame that carries a packet from port p (R347), with its check sequence. -/
def State.brimFrame (s : State) (p : Nat) (b : BrimPkt) : List Byte :=
  let next := s.fget F.BRIM_ROUTE_NEXT 0 b.prof b.dmid
  let pcp := if brimResp b then s.fget F.BRIM_ETH_PCP_RSP p else s.fget F.BRIM_ETH_PCP_REQ p
  let f := beBytes 6 (brimMac next p (brimIface b)) ++ beBytes 6 (brimMac s.ownId p (brimIface b)) ++ beBytes 2 0x8100
    ++ beBytes 2 (pcp * 2 ^ 13) ++ beBytes 2 (s.fget F.BRIM_ETH_ETYPE p) ++ leBytes 32 (brimHeader b) ++ b.data
  let f := f ++ zeros (60 - f.length)
  f ++ leBytes 4 (crc32 f)

/-! ## Ports (R338 to R340) -/

def bDISABLED : Nat := 0
def bTRAINING : Nat := 1
def bUP : Nat := 2
def bDEGRADED : Nat := 3
def bSTOPPING : Nat := 4
def bFAILED : Nat := 5

def State.bp (s : State) (p : Nat) : BrimPort := mget {} s.brim.ports p
def State.setBp (s : State) (p : Nat) (x : BrimPort) : State := { s with brim := { s.brim with ports := mput {} s.brim.ports p x } }
def State.bState (s : State) (p : Nat) : Nat := s.fget F.BRIM_STATUS_STATE p
def State.setBState (s : State) (p st : Nat) : State := (s.fset F.BRIM_STATUS_STATE st p).setDegraded

/-- A port begins to train (R339, R374): its framing mode is that of BRIM_CFG; what is unacknowledged is resent afterwards. -/
def State.bTrain (s : State) (p : Nat) : State :=
  let x := s.bp p
  let s := s.setBp p { x with ether := s.flag F.BRIM_CFG_MODE p, peerGot := false, resend := x.replay.length, resends := 0 }
  let s := (s.fset F.BRIM_STATUS_GROUPS 0 p).fset F.BRIM_STATUS_TRAIN_FAILS 0 p
  (s.fset F.BRIM_PEER_VALID 0 p).setBState p bTRAINING

/-- A port leaves UP or DEGRADED (R375). -/
def State.bDown (s : State) (p reason : Nat) : State := s.raise 0x7002 kPORT p reason

/-- A port in UP or DEGRADED retrains (R339). -/
def State.bRetrain (s : State) (p reason : Nat) : State :=
  if !s.portUp p then s
  else
    let s := (s.count .BRIM_RETRAINS 1 p).raise 0x7003 kPORT p reason
    (s.bDown p reason).bTrain p

/-- A port has trained to UP (both groups) or DEGRADED (R339, R344, R361). -/
def State.bTrained (s : State) (p groups : Nat) : State :=
  let peer := s.fget F.BRIM_PEER_MID p + s.fget F.BRIM_PEER_PORT p * 2 ^ 10
  let s := s.fset F.BRIM_STATUS_GROUPS groups p
  let s :=
    if groups = 3 then
      ((s.fset F.BRIM_STATUS_TRAIN_FAILS 0 p).setBState p bUP).raise 0x7001 kPORT p (peer + s.fget F.BRIM_PEER_MODE p * 2 ^ 16)
    else (s.setBState p bDEGRADED).raise 0x7005 kPORT p groups
  let x := s.bp p
  let s := s.setBp p { x with lastPeer := some peer, groupAt := s.clk.wt, progress := s.clk.wt }
  match x.lastPeer with
  | some q => if q = peer then s else s.raise 0x700D kPORT p (q + peer * 2 ^ 16)
  | none => s

/-- Does a group of a port train, its signal locking (R339)? -/
def State.bGroupOk (s : State) (p : Nat) (lock : Bool) : Bool :=
  let x := s.bp p
  let mid := s.fget F.BRIM_PEER_MID p
  lock && x.peerGot && (s.flag F.BRIM_PEER_MODE p == x.ether) && (mid != s.ownId || s.ownId == 0x3FF)

/-- The link of a STOPPING port is lowered (R340). -/
def State.bLower (s : State) (p : Nat) : State :=
  let x := s.bp p
  let s := s.setBp p { x with
    replay := [], resend := 0, resends := 0, txq := [], lseqTx := 0, lseqRx := 1023, nak := false, credQ := 0, credS := 0
    oweQ := 0, oweS := 0, peerGot := false }
  let s := (s.fset F.BRIM_STATUS_GROUPS 0 p).setBState p bDISABLED
  if s.flag F.BRIM_STATUS_ENABLE_PENDING p then (s.fset F.BRIM_STATUS_ENABLE_PENDING 0 p).bTrain p else s

/-- A write of BRIM_CTRL.ENABLE (R340). -/
def State.bEnable (s : State) (p : Nat) (v : Bool) : State :=
  let s := s.fset F.BRIM_CTRL_ENABLE (b2n v) p
  let st := s.bState p
  if v then
    if st = bDISABLED then s.bTrain p
    else if st = bSTOPPING then s.fset F.BRIM_STATUS_ENABLE_PENDING 1 p
    else s
  else if st = bTRAINING ∨ st = bUP ∨ st = bDEGRADED then
    let s := if st = bTRAINING then s else s.bDown p 1
    (s.setBp p { s.bp p with stopAt := s.clk.wt }).setBState p bSTOPPING
  else if st = bSTOPPING then s.fset F.BRIM_STATUS_ENABLE_PENDING 0 p
  else if st = bFAILED then (s.fset F.BRIM_STATUS_TRAIN_FAILS 0 p).setBState p bDISABLED
  else s

/-! ## Counts by 10 ms (R375) -/

/-- One more in the present 10 ms: the counts, whether it is the first, and the number in the 10 ms before. -/
def tick10ms (wt : Nat) (c : Nat × Nat × Nat) : (Nat × Nat × Nat) × Bool × Nat :=
  let now := wt / 10000000
  let cur := if c.1 = now then c.2.1 else 0
  let prev := if c.1 = now then c.2.2 else if c.1 + 1 = now then c.2.1 else 0
  ((now, cur + 1, prev), cur == 0, min prev 0xFFFF_FFFF)

/-- A frame is discarded (R348). -/
def State.bFrameDrop (s : State) (p : Nat) : State :=
  let x := s.bp p
  let (c, first, prev) := tick10ms s.clk.wt x.dropIv
  let s := (s.setBp p { x with dropIv := c }).count .BRIM_DROPS 1 p
  if first then s.raise 0x700E kPORT p prev else s

/-- The transmitter resends everything from the oldest (R346): after eight resends without progress the port retrains. -/
def State.bResend (s : State) (p : Nat) : State :=
  let x := s.bp p
  if x.replay = [] then s
  else
    let (c, first, prev) := tick10ms s.clk.wt x.replayIv
    let n := x.resends + 1
    let s := s.setBp p { x with replayIv := c, resend := x.replay.length, resends := n, progress := s.clk.wt }
    let s := s.count .BRIM_REPLAYS 1 p
    let s := if first then s.raise 0x7006 kPORT p prev else s
    if 8 ≤ n then s.bRetrain p 2 else s

/-! ## Routing and transmission queues (R355 to R359) -/

/-- A drop (R358): counted and raised at the port at which the packet stands. -/
def State.bNoRoute (s : State) (p : Nat) (b : BrimPkt) (hop : Bool) : State :=
  (s.count .BRIM_DROPS 1 p).raiseLim 0x7009 kPORT p (b.dmid + b.prof * 2 ^ 10 + b2n hop * 2 ^ 16)

/-- The port by which a packet leaves, or whether it fails at the hop limit (R358). -/
def State.bChoose (s : State) (b : BrimPkt) : Except Bool Nat :=
  match (s.route b.prof b.dmid).bind (·.find? s.portUp) with
  | none => .error false
  | some q => if s.fget F.BRIM_CFG_HOP_LIMIT q < b.hops + 1 then .error true else .ok q

/-- A packet joins the transmission queue of port q (R358). -/
def State.bQueue (s : State) (q : Nat) (b : BrimPkt) (own : Bool) : State :=
  let x := s.bp q
  s.setBp q { x with txq := x.txq ++ [⟨{ b with hops := b.hops + 1 }, own⟩] }

/-- A packet that this module did not ask for as a requester is routed on: one in transit, or a response (R358). -/
def State.bForward (s : State) (p : Nat) (b : BrimPkt) (own : Bool) : State :=
  match s.bChoose b with
  | .error hop => s.bNoRoute p b hop
  | .ok q => s.bQueue q b own

/-- FLOWV and FLOW of this module's entry for d in a profile (R357, R359). -/
def State.bFlow (s : State) (prof d : Nat) : Bool × Nat := (s.flag F.BRIM_ROUTE_FLOWV 0 prof d, s.fget F.BRIM_ROUTE_FLOW 0 prof d)

/-! ## Requests of this module (R353, R359, R363 to R366) -/

/-- Profile class of a fabric request (R359): register access, cores, the Grist injectors, Racking; the host's are those of cores. -/
def brimClass (p : Packet) : Nat :=
  if p.typ = Packet.REGRD ∨ p.typ = Packet.REGWR then 4
  else if 0x8420 ≤ p.src ∧ p.src ≤ 0x842C then 1
  else if p.src = destReg then 3
  else 0

/-- The answer that a local requester gets for a STATUS of R352, in the form that its request took (R353). -/
def brimAnswer (p : Packet) (status : Nat) (data : List Byte) (poison : Bool) : Packet :=
  let st := if p.src = destReg then status else if status = 1 then 1 else if status = 0 then 0 else 2
  if p.typ = Packet.RD then
    packetReply p Packet.RDR st (if status = 0 then data else zeros (p.lenm1 + 1)) (poison || status == 3 || status == 4)
  else if p.typ = Packet.REGRD then packetReply p Packet.REGR st (if status = 0 then data else zeros 4)
  else if p.typ = Packet.REGWR then packetReply p Packet.REGR st
  else packetReply p Packet.WACK st

/-- A request is completed to its local requester (R353); a RACC's outcome is counted (R384). -/
def State.bDeliver (s : State) (r : BrimReq) (status : Nat) (data : List Byte) (poison : Bool) : State :=
  match r.req with
  | none => if status = 0 then s else s.count .RED_RACC_RETURNED
  | some p => s.rimSend (brimAnswer p status data poison) s.clk.tb

/-- The acceptance of a RED is answered (R240, R381). -/
def State.bAck (s : State) (r : BrimReq) : State :=
  match r.ack with
  | none => s
  | some a => s.rimSend a s.clk.tb

/-- A free tag in the order in which tags became free (R363). -/
def State.freeTag (s : State) : Option (Nat × State) :=
  let m := s.brim
  if m.fresh < 16384 then some (m.fresh, { s with brim := { m with fresh := m.fresh + 1 } })
  else
    match m.freed with
    | [] => none
    | t :: rest => some (t, { s with brim := { m with freed := rest } })

/-- A request for another module is queued (R356, R358, R363, R364, R381): it takes a tag, waits for one, or is completed
locally. -/
def State.bRequest (s : State) (r : BrimReq) : State :=
  if s.ownId = 0x3FF then
    let s := if s.brim.noId then s else { s with brim := { s.brim with noId := true } }.raise 0x700F kMODULE 0 0
    (s.bAck r).bDeliver r 2 [] false
  else
    let b := { r.pkt with smid := s.ownId }
    match s.bChoose b with
    | .error hop => ((s.bNoRoute r.port b hop).bAck r).bDeliver r 4 [] false
    | .ok q =>
      match s.freeTag with
      | none => { s with brim := { s.brim with wait := s.brim.wait ++ [r] } }
      | some (t, s) =>
        let e := (mget 0 s.brim.epochs t + 1) % 4
        let b := { b with tag := t, epoch := e, wt := s.clk.wt }
        let r' := { r with port := q, pkt := b, ack := none, tag := t, epoch := e, wt := s.clk.wt, rtb := s.fget F.BRIM_CFG_RTB q }
        let s := { s with brim := { s.brim with epochs := mput 0 s.brim.epochs t e, reqs := s.brim.reqs ++ [r'] } }
        let s := if b.typ = BrimPkt.RACC then s.count .RED_RACC_SENT else s
        (s.bQueue q b true).bAck r

/-- The last instant at which the response of a request is in time (R364). -/
def BrimReq.deadline (r : BrimReq) : Nat := r.wt + 1000 * r.rtb

/-- A request's tag is completed and cools (R365). -/
def State.bFreeTag (s : State) (r : BrimReq) : State :=
  { s with brim := { s.brim with
      reqs := s.brim.reqs.filter (fun x => x.tag != r.tag), cooling := s.brim.cooling ++ [(r.tag, s.clk.wt + 2000 * r.rtb)] } }

/-- A request has had no response in time (R364). -/
def State.bTimeout (s : State) (r : BrimReq) : State :=
  let s := (s.bFreeTag r).count .BRIM_TAG_TIMEOUTS
  let s := s.raiseLim 0x7007 kPORT r.port (r.tag + r.epoch * 2 ^ 14 + r.pkt.dmid * 2 ^ 16 + r.pkt.typ * 2 ^ 28)
  s.bDeliver r 3 [] false

/-- Is a fabric packet one that its port can send to another module (R351)? -/
def brimTakes (p : Packet) : Bool :=
  p.typ == Packet.WR || p.typ == Packet.RD || p.typ == Packet.REGRD || p.typ == Packet.REGWR

/-- The Brim packet that carries a fabric request to its module (R349, R351, R359). -/
def State.bOfFabric (s : State) (p : Packet) : BrimPkt :=
  let prof := s.classProf (brimClass p)
  let fl := s.bFlow prof p.mid
  { typ := p.typ, dmid := p.mid, smid := s.ownId, flowv := fl.1, flow := fl.2, prof := prof
    lenm1 := if p.typ = Packet.RD then p.lenm1 else if p.typ = Packet.REGRD then 0 else p.data.length - 1
    wop := if p.typ = Packet.WR then p.wop else 0, arrive := p.arrive, ctr := p.ctr, poison := p.poison, addr := p.addr
    data := p.data }

/-! ## Conversion of REDs (R381 to R383) -/

/-- TSPEC of a RACC (R383). -/
def raccSpec (win step16 contrib wire : Nat) (vfy : Bool) : Nat :=
  win % 2 ^ 10 * 2 ^ 41 + step16 % 2 ^ 16 * 2 ^ 25 + contrib % 2 ^ 16 * 2 ^ 9 + wire % 4 * 2 ^ 7 + b2n vfy * 2 ^ 6

/-- PAIR64 elements in a wire format (R381): as they stand, or rounded once RNE to FP32 or BF16. -/
def pairsToWire (wire : Nat) (d : List Byte) : List Byte :=
  match wire with
  | 0 => d
  | 1 => pairsToFp32 d
  | _ => (List.range (d.length / 8)).flatMap fun i =>
      leBytes 2 (redRound bf16 (redVal (v32 0x3F80_0000) (pairVal (leNat ((d.drop (8 * i)).take 8))) false 0))

/-- The reason for which a RED for another module is discarded (R381). -/
def State.redBad (s : State) (p : Packet) : Option Nat :=
  if p.rid = 0 ∨ !s.flag F.RED_RID_VALID 0 p.rid then some 1
  else if (p.data.length ≠ 256 ∧ p.data.length ≠ 512) ∨ p.addr % 256 ≠ 0 then some 2
  else none

/-- The RACCs that a RED becomes (R381, R382): the main one, and a duplicate when a chunk of it is sampled. -/
def State.redRaccs (s : State) (p : Packet) : List BrimPkt :=
  let w := s.fget F.RED_RID_WIN 0 p.rid
  let wire := s.fget F.RED_RID_WIRE 0 p.rid
  let k := (s.ridStep p.rid).toNat
  let data := pairsToWire wire p.data
  let prof := s.classProf 2
  let fl := s.bFlow prof p.mid
  let main : BrimPkt := {
    typ := BrimPkt.RACC, dmid := p.mid, smid := s.ownId, flowv := fl.1, flow := fl.2, prof := prof, lenm1 := data.length - 1
    poison := p.poison, addr := p.addr, tspec := raccSpec w k p.count wire false, data := data }
  let dup := { main with flowv := false, prof := s.vfyProf, tspec := raccSpec w k p.count wire true }
  let sampled := (List.range (p.data.length / 256)).any fun i => s.vfySampled k w (p.addr + 256 * i)
  if sampled then [main, dup] else [main]

/-! ## Requests of other modules (R353, R385) -/

/-- A response to a request that this module serves (R353, R359). -/
def State.bRespond (s : State) (p : Nat) (b : BrimPkt) (typ status : Nat) (data : List Byte) (poison : Bool) : State :=
  let fl := s.bFlow b.prof b.smid
  s.bForward p
    { typ := typ, status := status, dmid := b.smid, smid := s.ownId, tag := b.tag, epoch := b.epoch, flow := fl.2, flowv := fl.1
      prof := b.prof, lenm1 := if data.isEmpty then 0 else data.length - 1, poison := poison, wt := b.wt, data := data } true

/-- The response to a request that the port itself refuses or finds unbacked (R352, R353). -/
def State.bDeny (s : State) (p : Nat) (b : BrimPkt) (status : Nat) : State :=
  if b.typ = Packet.RD then s.bRespond p b Packet.RDR status (zeros (b.lenm1 + 1)) false
  else if b.typ = Packet.REGRD then s.bRespond p b Packet.REGR status (zeros 4) false
  else s.bRespond p b Packet.WACK status [] false

/-- A request is issued onto the ring as a fabric request (R353). -/
def State.bIssue (s : State) (p : Nat) (b : BrimPkt) (q : Packet) : State :=
  let x := s.bp p
  let s := s.setBp p { x with serve := x.serve ++ [⟨x.nextServe, b⟩], nextServe := x.nextServe + 1 }
  s.rimSend { q with src := destBrim p, op := x.nextServe } s.clk.tb

/-- A request whose DMID is this module is served (R353). -/
def State.bServe (s : State) (p : Nat) (b : BrimPkt) : State :=
  let reg := b.typ == Packet.REGRD || b.typ == Packet.REGWR
  let n := if b.typ = Packet.RD then b.lenm1 + 1 else if reg then 4 else b.data.length
  match s.destOf (1023 * 2 ^ 54 + b.addr) n 0 with
  | none => (s.raiseLim 0x5001 kMODULE 0 b.addr).bDeny p b 1
  | some (dest, _) =>
    let isReg := decide (regWindow ≤ b.addr ∧ b.addr < hostWindow)
    if dest = destHost ∨ (reg && !s.flag F.BRIM_CFG_REMOTE_REG p) ∨ reg ≠ isReg then s.bDeny p b 2
    else
      s.bIssue p b {
        typ := b.typ, dest := dest, src := destBrim p, addr := b.addr, lenm1 := n - 1, wop := b.wop, arrive := b.arrive
        ctr := b.ctr, poison := b.poison, data := b.data }

/-- A RACC whose DMID is this module goes to the controller of its ADDR, or of its verification slot (R385). -/
def State.bServeRacc (s : State) (p : Nat) (b : BrimPkt) : State :=
  let w := bits b.tspec 50 41
  let vfy := bit b.tspec 6
  let a := match (if vfy then s.vfySlot w b.addr else none) with
    | some j => s.winV w + 256 * j
    | none => b.addr
  match s.region a 256 with
  | .stack x =>
    s.bIssue p b {
      typ := Packet.RACC, dest := destChan x.chan, src := destBrim p, count := bits b.tspec 24 9, addr := b.addr
      lenm1 := b.data.length - 1, wop := bits b.tspec 8 7, arrive := vfy
      ctr := b2n (bits b.tspec 5 0 != 0 || bits b.tspec 24 9 == 0 || b.wop != 0 || b.arrive || b.ctr != 0), poison := b.poison
      mid := b.smid, rid := w, flags := bits b.tspec 40 25, data := b.data }
  | _ => (s.raiseLim 0x5001 kMODULE 0 b.addr).bDeny p b 1

/-- The fabric's answer to a request that this port serves has come (R353): the response goes back to the requester. -/
def State.bServed (s : State) (p : Nat) (a : Packet) : State :=
  let x := s.bp p
  match x.serve.find? (fun r => r.id == a.op) with
  | none => s
  | some r =>
    let s := s.setBp p { x with serve := x.serve.filter (fun z => z.id != a.op) }
    let typ := if r.pkt.typ = Packet.RD then Packet.RDR else if r.pkt.typ = Packet.REGRD then Packet.REGR else Packet.WACK
    let data := if typ = Packet.WACK then [] else a.data
    s.bRespond p r.pkt typ a.flags data (a.poison && typ == Packet.RDR)

/-! ## Reception (R337, R343 to R350, R356) -/

/-- A received packet waits for the module, or is discarded (R350, R356). -/
def State.bArrive (s : State) (p : Nat) (b : BrimPkt) : State :=
  let s := s.count .BRIM_RX_BYTES (32 + b.data.length) p
  let x := s.bp p
  let back := fun (x : BrimPort) =>
    if x.ether then x
    else if brimResp b then { x with oweS := x.oweS + brimCredits b } else { x with oweQ := x.oweQ + brimCredits b }
  if s.ownId = 0x3FF then s.setBp p (back x)
  else if 1000 ≤ b.dmid ∨ b.smid = s.ownId ∨ !brimTypeOk b.typ ∨ (brimHeaderOnly b ∧ b.lenm1 ≠ 0) then
    (s.setBp p (back x)).count .BRIM_DROPS 1 p
  else s.setBp p { x with rxq := x.rxq ++ [b] }

/-- A packet of a DATA flit whole at the receiver (R346). -/
def State.bAccept (s : State) (p : Nat) (b : BrimPkt) : State :=
  let x := s.bp p
  let exp := (x.lseqRx + 1) % 1024
  let behind := (exp + 1024 - b.lseq) % 1024
  if b.lseq = exp then (s.setBp p { x with lseqRx := exp }).bArrive p b
  else if 1 ≤ behind ∧ behind ≤ 64 then s
  else s.setBp p { x with nak := true }

/-- The ACK, NAK and credits of a good flit (R342, R344, R346). -/
def State.bFlitHeader (s : State) (p : Nat) (f : BrimFlit) : State :=
  let x := s.bp p
  let pos := x.replay.findIdx? (fun b => b.lseq == f.ack)
  let gone := match pos with
    | some i => i + 1
    | none => 0
  let x := { x with
    replay := x.replay.drop gone, resend := min x.resend (x.replay.length - gone)
    resends := if gone = 0 then x.resends else 0, progress := if gone = 0 then x.progress else s.clk.wt
    credQ := x.credQ + f.crq, credS := x.credS + f.crs }
  let s := s.setBp p x
  if f.nak then s.bResend p else s

/-- Does a port receive native flits now (R338, R340)? -/
def State.bListens (s : State) (p : Nat) (ether : Bool) : Bool :=
  (s.bp p).ether == ether && (s.portUp p || s.bState p == bSTOPPING)

/-- A native flit is received (R337, R346); `body` where it carries packets. -/
def State.bFlit (s : State) (p : Nat) (f : BrimFlit) (body : Bool) : State :=
  if !s.bListens p false then s
  else
    let s := if f.corr = 0 then s else s.count .BRIM_FEC_CORR f.corr p
    let s := if f.uncorr = 0 then s else s.count .BRIM_FEC_UNCORR f.uncorr p
    if !f.crc ∨ f.uncorr ≠ 0 then s.setBp p { s.bp p with nak := true }
    else
      let s := s.bFlitHeader p f
      if body then f.pkts.foldl (fun s b => s.bAccept p b) s else s

/-- A received packet is taken from the receive buffer, whose credits go back (R344). -/
def State.bTake (s : State) (p : Nat) (b : BrimPkt) : State :=
  let x := s.bp p
  if !x.rxq.contains b then s
  else
    let x := { x with rxq := x.rxq.erase b }
    s.setBp p (if x.ether then x
      else if brimResp b then { x with oweS := x.oweS + brimCredits b } else { x with oweQ := x.oweQ + brimCredits b })

/-- A received request of one of the types (R353, R358): served here, or forwarded. -/
def State.bReceive (s : State) (p : Nat) (b : BrimPkt) (serve : State → State) : State :=
  if s.ownId = 0x3FF then s
  else
    let s := s.bTake p b
    if b.dmid = s.ownId then serve s else s.bForward p b false

/-- A response for this module (R353, R364, R366). -/
def State.bResponse (s : State) (p : Nat) (b : BrimPkt) : State :=
  let stale := fun (s : State) =>
    (s.count .BRIM_STALE).raiseLim 0x7008 kMODULE 0 (b.tag + b.epoch * 2 ^ 14 + b.smid * 2 ^ 16)
  s.bReceive p b fun s =>
    match s.brim.reqs.find? (fun r => r.tag == b.tag && r.epoch == b.epoch) with
    | none => stale s
    | some r =>
      if r.deadline < s.clk.wt then stale (s.bTimeout r)
      else ((s.bFreeTag r).monSample 2 r.port 7 (s.clk.wt - r.wt)).bDeliver r b.status b.data b.poison

/-! ## Transmission (R344, R346 to R348, R367, R368) -/

/-- Tokens of a flow's bucket now, in thirds of a byte (R367). -/
def State.bTokens (s : State) (p k : Nat) : Nat :=
  let (t, w) := mget (0, 0) (s.bp p).tokens k
  min (3072 * s.fget F.BRIM_FLOW_BURST p k) (t + s.fget F.BRIM_FLOW_RATE p k * (s.clk.wt - w))

/-- Does a reserved packet conform at a port now (R367)? -/
def State.bConforms (s : State) (p : Nat) (b : BrimPkt) : Bool :=
  s.flag F.BRIM_FLOW_EN p b.flow && decide (3 * (32 + b.data.length) ≤ s.bTokens p b.flow)

/-- Is the priority of a packet paused at its interface now (R348)? -/
def State.bPaused (s : State) (p : Nat) (b : BrimPkt) : Bool :=
  let x := s.bp p
  let pcp := if brimResp b then s.fget F.BRIM_ETH_PCP_RSP p else s.fget F.BRIM_ETH_PCP_REQ p
  x.ether && decide (s.clk.wt < mget 0 x.pause (8 * brimIface b + pcp))

/-- Has the port the credits for a packet (R344)? -/
def BrimPort.affords (x : BrimPort) (b : BrimPkt) : Bool :=
  x.ether || decide (brimCredits b ≤ (if brimResp b then x.credS else x.credQ))

/-- The reserved packets of a channel that stand before the first that conforms are demoted (R367). -/
def State.bDemote (s : State) (p : Nat) (resp : Bool) : List BrimTx → List BrimTx × Nat
  | [] => ([], 0)
  | x :: l =>
    if x.pkt.flowv && brimResp x.pkt == resp && !s.bPaused p x.pkt then
      if s.bConforms p x.pkt || !(s.bp p).affords x.pkt then (x :: l, 0)
      else
        let r := s.bDemote p resp l
        ({ x with pkt := { x.pkt with flowv := false } } :: r.1, r.2 + 1)
    else
      let r := s.bDemote p resp l
      (x :: r.1, r.2)

/-- The next packet of best effort (R368): responses before requests, and within a channel this module's own and those in
transit by their weights in bytes. -/
def State.bBest (s : State) (p : Nat) : Option BrimTx :=
  let x := s.bp p
  let q := x.txq.filter fun t => !t.pkt.flowv && !s.bPaused p t.pkt
  let ch := if q.any (fun t => brimResp t.pkt && x.affords t.pkt) then true else false
  let q := q.filter fun t => brimResp t.pkt == ch
  let k := if ch then 2 else 0
  match q.find? (·.own), q.find? (fun t => !t.own) with
  | none, t => t
  | t, none => t
  | some o, some t =>
    if mget 0 x.sent (k + 1) * s.fget F.BRIM_ARB_WT_TRANSIT p ≤ mget 0 x.sent k * s.fget F.BRIM_ARB_WT_LOCAL p then some o else some t

/-- The next packet in the order of R368, reserved ones before best effort, if the port may send it now. -/
def State.bNext (s : State) (p : Nat) : Option BrimTx :=
  let x := s.bp p
  let resv := fun (resp : Bool) => x.txq.find? fun t => t.pkt.flowv && brimResp t.pkt == resp && !s.bPaused p t.pkt
  let first := fun (o : Option BrimTx) => o.filter fun t => x.affords t.pkt
  (first (resv true)).orElse fun _ => (first (resv false)).orElse fun _ => first (s.bBest p)

/-- What a best-effort packet adds to the bytes sent by channel and origin; they count afresh when one of the two has nothing
waiting (R368). -/
def State.bSentCount (s : State) (p : Nat) (t : BrimTx) : State :=
  let x := s.bp p
  let k := if brimResp t.pkt then 2 else 0
  let same := x.txq.filter fun z => !z.pkt.flowv && brimResp z.pkt == brimResp t.pkt
  let both := same.any (·.own) && same.any (fun z => !z.own)
  let n := 32 + t.pkt.data.length
  let m := mupd 0 x.sent (k + b2n t.own) (· + n)
  s.setBp p { x with sent := if both then m else mput 0 (mput 0 x.sent k 0) (k + 1) 0 }

/-- The ACK, NAK and credit fields of a flit sent now (R342): what the port owed. -/
def BrimPort.flitSent (x : BrimPort) : BrimPort :=
  if x.ether then x else { x with nak := false, oweQ := x.oweQ - min 127 x.oweQ, oweS := x.oweS - min 127 x.oweS }

/-- A port begins to send a packet from its queue. -/
def State.bSend (s : State) (p : Nat) (t : BrimTx) : State :=
  let b := t.pkt
  let s := if b.flowv then
      s.setBp p { s.bp p with
        tokens := mput (0, 0) (s.bp p).tokens b.flow (s.bTokens p b.flow - 3 * (32 + b.data.length), s.clk.wt) }
    else s.bSentCount p t
  let x := s.bp p
  let x := { x with txq := x.txq.erase t }
  let x :=
    if x.ether then { x with tx := some b }
    else
      let b := { b with lseq := x.lseqTx }
      { x with
        tx := some b, lseqTx := (x.lseqTx + 1) % 1024, replay := x.replay ++ [b]
        progress := if x.replay = [] then s.clk.wt else x.progress
        credQ := if brimResp b then x.credQ else x.credQ - brimCredits b
        credS := if brimResp b then x.credS - brimCredits b else x.credS }
  (s.setBp p x.flitSent).count .BRIM_TX_BYTES (32 + b.data.length) p

/-- A port begins to send what comes next (R368); with nothing to send it sends an IDLE flit (R341). -/
def State.bTransmit (s : State) (p : Nat) : State :=
  let x := s.bp p
  if !(s.portUp p || s.bState p == bSTOPPING) then s
  else if x.resend ≠ 0 ∧ !x.ether then
    match x.replay[x.replay.length - x.resend]? with
    | none => s.setBp p { x with resend := 0 }
    | some b =>
      (s.setBp p { x with resend := x.resend - 1, tx := some b }.flitSent).count .BRIM_TX_BYTES (32 + b.data.length) p
  else if 64 ≤ x.replay.length then s.setBp p x.flitSent
  else
    let (q1, n1) := s.bDemote p true x.txq
    let (q2, n2) := s.bDemote p false q1
    let s := s.setBp p { x with txq := q2 }
    let s := if n1 + n2 = 0 then s else s.count .BRIM_DEMOTED (n1 + n2) p
    match s.bNext p with
    | none => s.setBp p (s.bp p).flitSent
    | some t => s.bSend p t

/-! ## Flows (R367, R369) -/

/-- RATEs of the enabled contexts of a port, context k left out. -/
def State.bRates (s : State) (p k : Nat) : Nat :=
  ((List.range 256).filterMap fun i =>
    if i ≠ k ∧ s.flag F.BRIM_FLOW_EN p i then some (s.fget F.BRIM_FLOW_RATE p i) else none).sum

/-- A write of BRIM_FLOW[k] with legal encodings (R367, R369). -/
def State.bFlowWrite (s : State) (p k : Nat) (en : Bool) (rate burst : Nat) : State :=
  let was := s.flag F.BRIM_FLOW_EN p k
  let others := s.bRates p k
  let old := s.fget F.BRIM_FLOW_RATE p k
  if en && (!was || rate != old) && decide (900 < others + rate) then
    s.raise 0x700A kPORT p (k + rate * 2 ^ 8 + ((others + if was then old else 0) % 1024) * 2 ^ 20)
  else
    let t := if was then s.bTokens p k else 3072 * burst
    let x := s.bp p
    let s := s.setBp p { x with tokens := mput (0, 0) x.tokens k (if en then (t, s.clk.wt) else (0, 0)) }
    ((s.fset F.BRIM_FLOW_EN (b2n en) p k).fset F.BRIM_FLOW_RATE rate p k).fset F.BRIM_FLOW_BURST burst p k

/-! ## Time alignment (R371, R372) -/

def State.setTime (s : State) (x : BrimTime) : State := { s with brim := { s.brim with time := x } }

def tiFREE : Nat := 0
def tiLOCKING : Nat := 1
def tiLOCKED : Nat := 2
def tiHOLDOVER : Nat := 3

/-- Rate correction chosen for an offset: a free value within ±200 ppm (R372; log entry 13). -/
def State.newRate (s : State) : State :=
  let (f, s) := s.free
  { s with clk := { s.clk with corr := (f.toNat % 1717987 : Nat) - 858993 } }

/-- An exchange has completed with twice its offset (R371, R372). -/
def State.timeDone (s : State) (ofs2 : Int) : State :=
  let ofs := ofs2 / 2
  let s := s.fset F.BRIM_TIME_OFS_OFS (ofSigned 32 ofs)
  let x := s.brim.time
  let st := s.fget F.BRIM_TIME_STATE
  let near := decide (ofs2.natAbs ≤ 4)
  let x := { x with busy := false, missed := 0, good := if near then x.good + 1 else 0 }
  let s := s.setTime x
  if s.flag F.BRIM_TIME_ROOT then s
  else
    let st := if st = tiFREE ∧ s.bState (s.fget F.BRIM_TIME_UP_PORT) = bUP then tiLOCKING else st
    let s := s.fset F.BRIM_TIME_STATE st
    let busy := (List.range 16).any fun t => s.tstate t == tRUNNING || s.tstate t == tSTOPPING || s.tstate t == tSUSPENDED
    if st = tiFREE then s
    else if st = tiLOCKING ∧ 2000 < ofs2.natAbs ∧ !busy ∧ !x.stepped then
      { s.setTime { x with stepped := true, good := 0 } with
        clk := { s.clk with wt := ((s.clk.wt : Int) + ofs).toNat, wtFrac := 0 } }
    else if (st = tiLOCKING ∨ st = tiHOLDOVER) ∧ 4 ≤ x.good then
      (s.newRate.fset F.BRIM_TIME_STATE tiLOCKED).raise 0x700B kMODULE 0 (ofSigned 64 ofs)
    else if st = tiLOCKED ∧ 40 < ofs2.natAbs then
      ((s.setTime { x with good := 0 }).fset F.BRIM_TIME_STATE tiHOLDOVER).raise 0x700C kMODULE 0 1
    else s.newRate

/-- The exchange completes once its four stamps are there (R371). -/
def State.timeTest (s : State) : State :=
  let x := s.brim.time
  match x.t1, x.t2, x.t3, x.t4 with
  | some t1, some t2, some t3, some t4 =>
    if x.busy then s.timeDone (((t2 : Int) - t1) - ((t4 : Int) - t3)) else s
  | _, _, _, _ => s

/-- BRIM_TIME.ROOT as a write leaves it (R372): the root is always LOCKED. -/
def State.timeRoot (s : State) (was : Bool) : State :=
  if s.flag F.BRIM_TIME_ROOT then s.fset F.BRIM_TIME_STATE tiLOCKED
  else if was then s.fset F.BRIM_TIME_STATE tiFREE
  else s

end Sys2Proof.Machine
end

