-- ==== Sys2Proof/Machine/EpruInstr.lean ====
section
/-! DEFINITION. Meanings of the Epru's instructions (05, R160) but for CSRR and CSRW. -/

namespace Sys2Proof.Machine
open Sys2Proof

def m64 : Nat := 2 ^ 64

/-- Shift of a 64-bit number right arithmetically. -/
def sra64 (a n : Nat) : Nat := ofSigned 64 (toSigned 64 a / (2 ^ n : Nat))

/-- FP32 comparisons (R160): false with a NaN; -0 equals +0. -/
def flt32 (a b : Nat) : Bool := (v32 (a % 2 ^ 32)).lt (v32 (b % 2 ^ 32))
def feq32 (a b : Nat) : Bool := (v32 (a % 2 ^ 32)).eqv (v32 (b % 2 ^ 32))

/-- ADD (R160). -/
def execAdd (core : Core) (rd ra rb : RegNo) (s : State) : Out :=
  .next (s.epAlu core rd [ra, rb] 1 fun s =>
    let a := s.g core ra
    let b := s.g core rb
    a + b)

/-- SUB (R160). -/
def execSub (core : Core) (rd ra rb : RegNo) (s : State) : Out :=
  .next (s.epAlu core rd [ra, rb] 1 fun s =>
    let a := s.g core ra
    let b := s.g core rb
    a + m64 - b)

/-- AND (R160). -/
def execAnd (core : Core) (rd ra rb : RegNo) (s : State) : Out :=
  .next (s.epAlu core rd [ra, rb] 1 fun s =>
    let a := s.g core ra
    let b := s.g core rb
    Nat.land a b)

/-- OR (R160). -/
def execOr (core : Core) (rd ra rb : RegNo) (s : State) : Out :=
  .next (s.epAlu core rd [ra, rb] 1 fun s =>
    let a := s.g core ra
    let b := s.g core rb
    Nat.lor a b)

/-- XOR (R160). -/
def execXor (core : Core) (rd ra rb : RegNo) (s : State) : Out :=
  .next (s.epAlu core rd [ra, rb] 1 fun s =>
    let a := s.g core ra
    let b := s.g core rb
    Nat.xor a b)

/-- SLL (R160). -/
def execSll (core : Core) (rd ra rb : RegNo) (s : State) : Out :=
  .next (s.epAlu core rd [ra, rb] 1 fun s =>
    let a := s.g core ra
    let b := s.g core rb
    a * 2 ^ (b % 64))

/-- SRL (R160). -/
def execSrl (core : Core) (rd ra rb : RegNo) (s : State) : Out :=
  .next (s.epAlu core rd [ra, rb] 1 fun s =>
    let a := s.g core ra
    let b := s.g core rb
    a / 2 ^ (b % 64))

/-- SRA (R160). -/
def execSra (core : Core) (rd ra rb : RegNo) (s : State) : Out :=
  .next (s.epAlu core rd [ra, rb] 1 fun s =>
    let a := s.g core ra
    let b := s.g core rb
    sra64 a (b % 64))

/-- MUL (R160). -/
def execMul (core : Core) (rd ra rb : RegNo) (s : State) : Out :=
  .next (s.epAlu core rd [ra, rb] 3 fun s =>
    let a := s.g core ra
    let b := s.g core rb
    a * b)

/-- MULHU (R160). -/
def execMulhu (core : Core) (rd ra rb : RegNo) (s : State) : Out :=
  .next (s.epAlu core rd [ra, rb] 3 fun s =>
    let a := s.g core ra
    let b := s.g core rb
    a * b / m64)

/-- SLT (R160). -/
def execSlt (core : Core) (rd ra rb : RegNo) (s : State) : Out :=
  .next (s.epAlu core rd [ra, rb] 1 fun s =>
    let a := s.g core ra
    let b := s.g core rb
    b2n (decide (toSigned 64 a < toSigned 64 b)))

/-- SLTU (R160). -/
def execSltu (core : Core) (rd ra rb : RegNo) (s : State) : Out :=
  .next (s.epAlu core rd [ra, rb] 1 fun s =>
    let a := s.g core ra
    let b := s.g core rb
    b2n (decide (a < b)))

/-- SEQ (R160). -/
def execSeq (core : Core) (rd ra rb : RegNo) (s : State) : Out :=
  .next (s.epAlu core rd [ra, rb] 1 fun s =>
    let a := s.g core ra
    let b := s.g core rb
    b2n (a == b))

/-- FLT (R160). -/
def execFlt (core : Core) (rd ra rb : RegNo) (s : State) : Out :=
  .next (s.epAlu core rd [ra, rb] 1 fun s =>
    let a := s.g core ra
    let b := s.g core rb
    b2n (flt32 a b))

/-- FLE (R160). -/
def execFle (core : Core) (rd ra rb : RegNo) (s : State) : Out :=
  .next (s.epAlu core rd [ra, rb] 1 fun s =>
    let a := s.g core ra
    let b := s.g core rb
    b2n (flt32 a b || feq32 a b))

/-- FEQ (R160). -/
def execFeq (core : Core) (rd ra rb : RegNo) (s : State) : Out :=
  .next (s.epAlu core rd [ra, rb] 1 fun s =>
    let a := s.g core ra
    let b := s.g core rb
    b2n (feq32 a b))

/-- ADDI (R160). -/
def execAddi (core : Core) (rd ra : RegNo) (imm : BitVec 16) (s : State) : Out :=
  .next (s.epAlu core rd [ra] 1 fun s => s.g core ra + sext16 imm.toNat)

/-- ANDI (R160). -/
def execAndi (core : Core) (rd ra : RegNo) (imm : BitVec 16) (s : State) : Out :=
  .next (s.epAlu core rd [ra] 1 fun s => Nat.land (s.g core ra) imm.toNat)

/-- ORI (R160). -/
def execOri (core : Core) (rd ra : RegNo) (imm : BitVec 16) (s : State) : Out :=
  .next (s.epAlu core rd [ra] 1 fun s => Nat.lor (s.g core ra) imm.toNat)

/-- XORI (R160). -/
def execXori (core : Core) (rd ra : RegNo) (imm : BitVec 16) (s : State) : Out :=
  .next (s.epAlu core rd [ra] 1 fun s => Nat.xor (s.g core ra) imm.toNat)

/-- SHI_SLL (R160). -/
def execShiSll (core : Core) (rd ra : RegNo) (amount : BitVec 6) (s : State) : Out :=
  .next (s.epAlu core rd [ra] 1 fun s => s.g core ra * 2 ^ amount.toNat)

/-- SHI_SRL (R160). -/
def execShiSrl (core : Core) (rd ra : RegNo) (amount : BitVec 6) (s : State) : Out :=
  .next (s.epAlu core rd [ra] 1 fun s => s.g core ra / 2 ^ amount.toNat)

/-- SHI_SRA (R160). -/
def execShiSra (core : Core) (rd ra : RegNo) (amount : BitVec 6) (s : State) : Out :=
  .next (s.epAlu core rd [ra] 1 fun s => sra64 (s.g core ra) amount.toNat)

/-- LUI (R160): IMM × 2^16, sign-extended from bit 31. -/
def execLui (core : Core) (rd : RegNo) (imm : BitVec 16) (s : State) : Out :=
  .next (s.epAlu core rd [] 1 fun _ => ofSigned 64 (toSigned 32 (imm.toNat * 2 ^ 16)))

/-! ## Loads and stores (R162, R210) -/

/-- Byte address of a load or store. -/
def State.epAddr (s : State) (core ra imm : Nat) : Nat := (s.g core ra + sext16 imm) % m64

/-- Bytes [a, a + n) of the scratchpad as the Epru's loads see them: buffered stores over what the lines hold. -/
def State.epLoad (s : State) (c a n : Nat) : Nat :=
  let mem := s.spBytes c a n
  let over_ := fun (l : List Byte) (st : EpStore) =>
    (l.zip (List.range n)).map fun p =>
      if st.byte ≤ a + p.2 ∧ a + p.2 < st.byte + st.size then (leBytes st.size st.value).getD (a + p.2 - st.byte) 0 else p.1
  leNat ((s.core c).stores.foldl over_ mem)

/-- A tag blocks an access of a port at a bank: since when is kept (R187). -/
def State.tagBlock (s : State) (c port line : Nat) : State :=
  let x := s.spCore c
  let k := port * 32 + line % 32
  if mget 0 x.blocked k ≠ 0 then s else s.setSp c { x with blocked := mput 0 x.blocked k (s.clk.wt + 1) }

def State.tagUnblock (s : State) (c port line : Nat) : State :=
  let x := s.spCore c
  s.setSp c { x with blocked := merase x.blocked (port * 32 + line % 32) }

/-- LD and LW of n bytes: an address that breaks R162 is an exception; a line whose tag blocks leaves the Epru waiting, and
the instruction is met again (R186). -/
def State.epLd (s : State) (core rd ra imm n : Nat) : State :=
  let s := match (s.core core).wait with
    | .tag _ => s.setEpState core epRUN
    | _ => s
  match s.epBegin core [ra] with
  | none => s
  | some t =>
    let a := t.epAddr core ra imm
    if 0x4F_FFFF < a ∨ a % n ≠ 0 then t.epException core
    else
      match t.tagAccess core (a / 64) pEPRU none with
      | none =>
        let u := (s.atTb t.clk.tb).tagBlock core pEPRU (a / 64)
        let e := u.core core
        (u.setCore core { e with wait := .tag (a / 64) }).setEpState core epWAIT_TAG
      | some t =>
        let t := t.tagUnblock core pEPRU (a / 64)
        let e := t.core core
        let t := t.setCore core { e with wait := .none }
        let (t, _, _) := t.spRead core (a / 64) pEPRU
        (t.setG core rd (t.epLoad core a n) (t.clk.tb + 4 * t.loadTime core)).epDone core 1

/-- LD (R160, R210). -/
def execLd (core : Core) (rd ra : RegNo) (imm : BitVec 16) (s : State) : Out := .next (s.epLd core rd ra imm.toNat 8)

/-- LW (R160, R210). -/
def execLw (core : Core) (rd ra : RegNo) (imm : BitVec 16) (s : State) : Out := .next (s.epLd core rd ra imm.toNat 4)

/-- The oldest buffered store is written in its slot (R210), unless its tag blocks. -/
def State.epStoreOut (s : State) (c : Nat) : Option State :=
  match (s.core c).stores with
  | [] => none
  | st :: rest =>
    let line := st.byte / 64
    match s.slotFor c pEPRU (line % 32) (max st.tb s.clk.tb) with
    | none => none
    | some t =>
      let s := s.atTb t
      match s.tagAccess c line pEPRU (some 0) with
      | none => none
      | some s =>
        let s := s.tagUnblock c pEPRU line
        let e := s.core c
        let x := s.spCore c
        let s := (s.setCore c { e with stores := rest }).setSp c { x with last := mput (0, 0) x.last pEPRU (t, 1) }
        let off := st.byte % 64
        some (s.spWrite c line pEPRU
          ⟨(2 ^ st.size - 1) * 2 ^ off, zeros off ++ leBytes st.size st.value ++ zeros (64 - off - st.size), 0, false⟩)

/-- SD and SW of n bytes into the store buffer; with all 8 entries taken the oldest store is written first, and the wait
counts (R210). -/
def State.epSt (s : State) (core rd ra imm n : Nat) : State :=
  match s.epBegin core [ra, rd] with
  | none => s
  | some t =>
    let a := t.epAddr core ra imm
    if 0x4F_FFFF < a ∨ a % n ≠ 0 then t.epException core
    else
      let place := fun (u : State) =>
        let e := u.core core
        (u.setCore core { e with stores := e.stores ++ [⟨a, n, u.g core rd % 2 ^ (8 * n), u.clk.tb⟩] }).epDone core 1
      if (t.core core).stores.length < 8 then place t
      else
        match t.epStoreOut core with
        | none => (s.atTb t.clk.tb).tagBlock core pEPRU ((((t.core core).stores.head?).map (·.byte / 64)).getD 0)
        | some u =>
          let v := u.atTb (upTo 4 u.clk.tb)
          place (v.count .EP_WAIT_CCLK ((v.clk.tb - t.clk.tb) / 4) core)

/-- SD (R160, R210). -/
def execSd (core : Core) (rd ra : RegNo) (imm : BitVec 16) (s : State) : Out := .next (s.epSt core rd ra imm.toNat 8)

/-- SW (R160, R210). -/
def execSw (core : Core) (rd ra : RegNo) (imm : BitVec 16) (s : State) : Out := .next (s.epSt core rd ra imm.toNat 4)

/-- EPRU_STORE_WRITE (R210); a store whose tag blocks stays in the buffer (R186). -/
def execEpruStoreWrite (core : Core) (s : State) : Out :=
  match s.epStoreOut core with
  | some s => .next s
  | none =>
    match (s.core core).stores with
    | [] => .next s
    | st :: _ => .next (if (s.tagAccess core (st.byte / 64) pEPRU (some 0)).isNone then s.tagBlock core pEPRU (st.byte / 64) else s)

/-! ## Register space (R162) -/

/-- RLD and RST: the REGRD or REGWR leaves for its endpoint and the Epru waits. -/
def State.epReg (s : State) (core rd ra imm : Nat) (write : Bool) : State :=
  match s.epBegin core (if write then [ra, rd] else [ra]) with
  | none => s
  | some s =>
    let a := s.epAddr core ra imm
    if 0x800_0000 ≤ a ∨ a % 4 ≠ 0 then s.epException core
    else
      let e := s.core core
      let s := (s.setCore core { e with wait := if write then .rst else .rld rd }).setEpState core epWAIT_REG
      s.inject core
        { typ := if write then Packet.REGWR else Packet.REGRD, dest := (regCore a).getD destReg, src := core
          addr := regWindow + a, lenm1 := 3, data := if write then leBytes 4 (s.g core rd) else [] } s.clk.tb

/-- RLD (R162). -/
def execRld (core : Core) (rd ra : RegNo) (imm : BitVec 16) (s : State) : Out := .next (s.epReg core rd ra imm.toNat false)

/-- RST (R162). -/
def execRst (core : Core) (rd ra : RegNo) (imm : BitVec 16) (s : State) : Out := .next (s.epReg core rd ra imm.toNat true)

/-! ## Branches and jumps -/

/-- A branch (R160): 2 CCLK when taken, 1 when not. -/
def State.epBranch (s : State) (core ra rb off : Nat) (p : Nat → Nat → Bool) : State :=
  match s.epBegin core [ra, rb] with
  | none => s
  | some s =>
    if p (s.g core ra) (s.g core rb) then s.epGoto core ((s.pc core : Int) + toSigned 16 off) 2 else s.epDone core 1

/-- BEQ (R160). -/
def execBeq (core : Core) (ra rb : RegNo) (off : BitVec 16) (s : State) : Out :=
  .next (s.epBranch core ra rb off.toNat (fun a b => a == b))

/-- BNE (R160). -/
def execBne (core : Core) (ra rb : RegNo) (off : BitVec 16) (s : State) : Out :=
  .next (s.epBranch core ra rb off.toNat (fun a b => a != b))

/-- BLT (R160). -/
def execBlt (core : Core) (ra rb : RegNo) (off : BitVec 16) (s : State) : Out :=
  .next (s.epBranch core ra rb off.toNat (fun a b => decide (toSigned 64 a < toSigned 64 b)))

/-- BGE (R160). -/
def execBge (core : Core) (ra rb : RegNo) (off : BitVec 16) (s : State) : Out :=
  .next (s.epBranch core ra rb off.toNat (fun a b => decide (toSigned 64 b ≤ toSigned 64 a)))

/-- BLTU (R160). -/
def execBltu (core : Core) (ra rb : RegNo) (off : BitVec 16) (s : State) : Out :=
  .next (s.epBranch core ra rb off.toNat (fun a b => decide (a < b)))

/-- BGEU (R160). -/
def execBgeu (core : Core) (ra rb : RegNo) (off : BitVec 16) (s : State) : Out :=
  .next (s.epBranch core ra rb off.toNat (fun a b => decide (b ≤ a)))

/-- A jump to pc that saves PC + 1 in rd (R160); a target beyond 16,383 is an exception and saves nothing (R164). -/
def State.epJump (s : State) (core rd : Nat) (pc : Int) : State :=
  if pc < 0 ∨ 16383 < pc then s.epException core
  else (s.setG core rd (s.pc core + 1) (s.clk.tb + 8)).epGoto core pc 2

/-- JAL (R160). -/
def execJal (core : Core) (rd : RegNo) (off : BitVec 21) (s : State) : Out :=
  match s.epBegin core [] with
  | none => .next s
  | some s => .next (s.epJump core rd ((s.pc core : Int) + sext21 off.toNat))

/-- JR (R160). -/
def execJr (core : Core) (rd ra : RegNo) (imm : BitVec 16) (s : State) : Out :=
  match s.epBegin core [ra] with
  | none => .next s
  | some s => .next (s.epJump core rd (toSigned 64 (s.epAddr core ra imm.toNat)))

/-! ## RDT (R160) -/

/-- RDT_TB (R160). -/
def execRdtTb (core : Core) (rd : RegNo) (s : State) : Out :=
  .next (s.epAlu core rd [] 1 fun s =>
    s.clk.tb)

/-- RDT_WT (R160). -/
def execRdtWt (core : Core) (rd : RegNo) (s : State) : Out :=
  .next (s.epAlu core rd [] 1 fun s =>
    s.clk.wt)

/-- RDT_SEG_BASE (R160). -/
def execRdtSegBase (core : Core) (rd : RegNo) (s : State) : Out :=
  .next (s.epAlu core rd [] 1 fun s =>
    if (s.slotOf core).isSome then (s.core core).segBase else 0)

/-- RDT_CORE_INDEX (R160). -/
def execRdtCoreIndex (core : Core) (rd : RegNo) (s : State) : Out :=
  .next (s.epAlu core rd [] 1 fun _ => core.val)

/-- RDT_TRACT_SLOT (R160). -/
def execRdtTractSlot (core : Core) (rd : RegNo) (s : State) : Out :=
  .next (s.epAlu core rd [] 1 fun s =>
    (s.slotOf core).getD (m64 - 1))

/-- RDT_SEGMENT_NUMBER (R160). -/
def execRdtSegmentNumber (core : Core) (rd : RegNo) (s : State) : Out :=
  .next (s.epAlu core rd [] 1 fun s =>
    match s.slotOf core with
    | some t => (s.rd .TRACT_SEG t).toNat
    | none => 0)

/-- RDT_RERUN_COUNT (R160). -/
def execRdtRerunCount (core : Core) (rd : RegNo) (s : State) : Out :=
  .next (s.epAlu core rd [] 1 fun s =>
    match s.slotOf core with
    | some t => s.fget F.TRACT_RERUN_COUNT t
    | none => 0)

/-! ## Bundles (R166, R169) -/

/-- ISSUE (R160, R166). -/
def execIssue (core : Core) (rd ra rb : RegNo) (s : State) : Out :=
  match s.epBegin core [rd, ra, rb] with
  | none => .next s
  | some s => .next (s.epWriteAll core (s.g core rd) s.clk.tb [s.g core ra + s.g core rb * m64])

/-- BISS (R160, R164, R166): RB bundles of 16 B from scratchpad byte RA. -/
def execBiss (core : Core) (rd ra rb : RegNo) (s : State) : Out :=
  match s.epBegin core [rd, ra, rb] with
  | none => .next s
  | some s =>
    let n := s.g core rb
    let a := s.g core ra
    if n = 0 ∨ 64 < n ∨ a % 16 ≠ 0 ∨ 0x50_0000 < a + 16 * n then .next (s.epException core)
    else
      let s := (List.range ((a + 16 * n - 1) / 64 + 1 - a / 64)).foldl
        (fun s i => (s.spRead core (a / 64 + i) pEPRU).1) s
      .next (s.epWriteAll core (s.g core rd) s.clk.tb ((List.range n).map fun k => s.epLoad core (a + 16 * k) 16))

/-- ISSUE_QUEUE_WAIT_END (R169): the first CCLK edge strictly after the release of an entry. -/
def execIssueQueueWaitEnd (core : Core) (s : State) : Out :=
  let e := s.core core
  match e.wait with
  | .queue (b :: rest) add =>
    let q := bQ b
    let l := e.queue q
    let t0 := if l.length < queueCap q then mget 0 e.relAt q
      else (l.map (·.rel)).foldl min ((l.headD ⟨0, 0, 0⟩).rel)
    let t := upTo 4 (max e.next (t0 + 1))
    let s := s.atTb t
    .next (s.epWriteAll core add t (b :: rest))
  | _ => .next s

/-! ## Arrival counters (R172 to R175) -/

/-- WAITC (R164, R175). -/
def execWaitc (core : Core) (ra : RegNo) (imm : BitVec 16) (s : State) : Out :=
  match s.epBegin core [ra] with
  | none => .next s
  | some s =>
    let n := imm.toNat
    if 64 ≤ n then .next (s.epException core)
    else if reached (s.fget F.EP_ARRIVE_COUNT core n) (s.g core ra) then .next (s.epDone core 1)
    else
      let e := s.core core
      .next ((s.setCore core { e with wait := .ctr n (s.g core ra), sat := none, next := s.clk.tb + 4 }).setEpState core epWAIT_CTR)

/-- WAITC_SATISFIED (R175): the first CCLK edge at or after the satisfying increment plus 4 ACLK. -/
def execWaitcSatisfied (core : Core) (s : State) : Out :=
  let e := s.core core
  match e.wait, e.sat with
  | .ctr _ _, some t =>
    let s := s.atTb (upTo 4 (t + 4))
    let e := s.core core
    let s := (s.setCore core { e with wait := .none, sat := none }).setEpState core epRUN
    let s := s.epDone core 0
    let e := s.core core
    .next (s.setCore core { e with next := max e.next (upTo 4 (t + 4)) })
  | _, _ => .next s

/-- SETC (R164, R172). -/
def execSetc (core : Core) (ra : RegNo) (imm : BitVec 16) (s : State) : Out :=
  match s.epBegin core [ra] with
  | none => .next s
  | some s =>
    if 64 ≤ imm.toNat then .next (s.epException core)
    else .next ((s.setArrive core imm.toNat (s.g core ra)).epDone core 1)

/-- RDC (R160, R164). -/
def execRdc (core : Core) (rd : RegNo) (imm : BitVec 16) (s : State) : Out :=
  match s.epBegin core [] with
  | none => .next s
  | some s =>
    if 64 ≤ imm.toNat then .next (s.epException core)
    else .next ((s.setG core rd (s.fget F.EP_ARRIVE_COUNT core imm.toNat) (s.clk.tb + 4)).epDone core 1)

/-- Copy scratchpad lines into the instruction store, word by word (R160, R192). -/
def State.ifill (s : State) (c line lines byte : Nat) : State :=
  let e := s.core c
  let ws := (List.range (16 * lines)).map fun i => (byte / 4 + i, leNat (s.spBytes c (64 * line + 4 * i) 4))
  s.setCore c { e with istore := ws.foldl (fun m w => mput 0 m w.1 w.2) e.istore }

/-- IFILL (R160, R162). -/
def execIfill (core : Core) (ra rb : RegNo) (fn : BitVec 10) (s : State) : Out :=
  match s.epBegin core [ra, rb] with
  | none => .next s
  | some s =>
    let n := fn.toNat + 1
    let a := s.g core ra
    let d := s.g core rb
    if a % 64 ≠ 0 ∨ d % 64 ≠ 0 ∨ 0x1_0000 < d + 64 * n ∨ 0x50_0000 < a + 64 * n then .next (s.epException core)
    else
      let s := (List.range n).foldl (fun s i => (s.spRead core (a / 64 + i) pEPRU).1) s
      .next ((s.ifill core (a / 64) n d).epDone core (4 + (n + 1) / 2))

/-! ## Barriers, reruns, faults -/

/-- BAR of a KIND (R164, R177): the Epru waits for the release. -/
def State.epBar (s : State) (core kind : Nat) : State :=
  match s.epBegin core [] with
  | none => s
  | some s =>
    if (s.slotOf core).isNone then s.epException core
    else
      let s := s.epDone core 1
      if s.epState core ≠ epRUN then s
      else
        let e := s.core core
        (s.setCore core { e with wait := .bar kind }).setEpState core epWAIT_BAR

/-- BAR_SEG (R177). -/
def execBarSeg (core : Core) (s : State) : Out := .next (s.epBar core 0)

/-- BAR_STEP (R177, R180). -/
def execBarStep (core : Core) (s : State) : Out := .next (s.epBar core 1)

/-- REQR (R181): the program cause is kept nowhere that the spec names. -/
def execReqr (core : Core) (cause : BitVec 8) (s : State) : Out :=
  let _ := cause
  match s.epBegin core [] with
  | none => .next s
  | some s => if (s.slotOf core).isNone then .next (s.epException core) else .next ((s.latchRerun core 5).epDone core 1)

/-- TFAULT (R194). -/
def execTfault (core : Core) (code : BitVec 8) (s : State) : Out :=
  match s.epBegin core [] with
  | none => .next s
  | some s => if (s.slotOf core).isNone then .next (s.epException core) else .next (s.tractFault core 0x0B code.toNat)

/-- EPRU_RESERVED_INSTRUCTION (R164). -/
def execEpruReservedInstruction (core : Core) (s : State) : Out :=
  if s.epState core ≠ epRUN then .next s
  else .next ((s.atTb (upTo 4 (max s.clk.tb (s.core core).next))).epException core)

end Sys2Proof.Machine
end

