-- ==== Sys2Proof/Machine/Health.lean ====
section
/-! DEFINITION. Health monitoring (12): the loss-spike detector, the Hydrometer, the declaration of failed cores; and the
monitors' own commands (15). -/

namespace Sys2Proof.Machine
open Sys2Proof

/-! ## Losses and non-finite values (R410, R411) -/

/-- M + d × 2^-ALOG, rounded once (R411). -/
def lossFold (m x alog : Nat) : Nat :=
  let d := fsub x m
  match v32 d with
  | .fin neg n e => rnVal ((v32 m).addv (.fin neg n (e - alog)))
  | v => rnVal ((v32 m).addv v)

/-- Is a loss x above F × M, with M above 0 (R411)? -/
def lossAbove (m x factor : Nat) : Bool :=
  (v32 0).lt (v32 m) && ((v32 m).dy.mul ⟨factor, -4⟩).lt (v32 x).dy

/-- HLTH_LOSS_CFG in force (R427). -/
def State.lossCfg (s : State) : Nat :=
  match s.hlth.heldUntil with
  | some k => if s.clk.wt / 10000000 ≤ k then s.hlth.heldLoss else (s.rd .HLTH_LOSS_CFG).toNat
  | none => (s.rd .HLTH_LOSS_CFG).toNat

/-- A write of HLTH_LOSS (R410, R411). -/
def State.lossWrite (s : State) (x : Nat) : State :=
  let s := s.fset F.HLTH_LOSS_VALUE x
  let m := s.fget F.HLTH_LOSS_AVG_AVG
  let n := s.fget F.HLTH_LOSS_N_N + 1
  let fin := fin32 x
  let s := if fin then s else s.nonfinite 1
  if n = 1 then (if fin then (s.fset F.HLTH_LOSS_AVG_AVG x).fset F.HLTH_LOSS_N_N 1 else s)
  else
    let s := s.fset F.HLTH_LOSS_N_N (min n 65535)
    let spike := decide (bits s.lossCfg 23 16 < n) && (!fin || lossAbove m x (bits s.lossCfg 15 8))
    let m2 := lossFold m x (bits s.lossCfg 3 0)
    let s := if fin && fin32 m2 then s.fset F.HLTH_LOSS_AVG_AVG m2 else s
    if spike then
      let s := { s with hlth := { s.hlth with spike := mput 0 s.hlth.spike (s.clk.wt / 10000000) 1 } }
      (s.raise 0xA014 kMODULE 0 (x + m * 2 ^ 32)).count .HLTH_SPIKES
    else s

/-- A write of 1 to HLTH_LOSS_CFG.CLEAR (R411). -/
def State.lossClear (s : State) : State := (s.fset F.HLTH_LOSS_N_N 0).fset F.HLTH_LOSS_AVG_AVG 0

/-- HLTH_LOSS_WRITE (R411). -/
def execHlthLossWrite (loss : BitVec 32) (s : State) : Out := .next (s.lossWrite loss.toNat)

/-- HLTH_LOSS_CLEAR (R411). -/
def execHlthLossClear (s : State) : Out := .next s.lossClear

/-- HLTH_NF_ADD_WRITE (R410). -/
def execHlthNfAddWrite (count : BitVec 32) (s : State) : Out := .next (s.nonfinite count.toNat)

/-! ## The Hydrometer (R412 to R414) -/

/-- Bit length of a number. -/
def bitLen (n : Nat) : Nat := if n = 0 then 0 else Nat.log2 n + 1

/-- HLTH_CFG in force for interval k (R427). -/
def State.hlthCfg (s : State) (k : Nat) : Nat :=
  match s.hlth.heldUntil with
  | some h => if k ≤ h then s.hlth.heldCfg else (s.rd .HLTH_CFG).toNat
  | none => (s.rd .HLTH_CFG).toNat

/-- I of interval k (R412). -/
def State.hydInput (s : State) (k : Nat) : Nat :=
  let c := s.hlthCfg k
  min 255 (mget 0 s.hlth.acc k + bitLen (mget 0 s.hlth.nf k) * bits c 23 16 + (if mget 0 s.hlth.spike k = 0 then 0 else bits c 31 24))

/-- RISK after an interval (R413). -/
def hydRisk (risk dshift i : Nat) : Nat := min 255 (risk - (risk + 2 ^ dshift - 1) / 2 ^ dshift + i)

/-- HYD_REQ is set (R414). -/
def State.hydReq (s : State) : State :=
  let s := { s with hlth := { s.hlth with withheld := false } }
  if s.flag F.STRM_RK_STATUS_HYD_REQ then s else (s.fset F.STRM_RK_STATUS_HYD_REQ 1).count .HLTH_HYD_REQS

/-- The interval to be updated is done with: its sums are dropped, and words held back for it by a preset load end (R427). -/
def Hlth.done (h : Hlth) : Hlth :=
  let k := h.doneIv
  let fin := match h.heldUntil with
    | some u => decide (u ≤ k)
    | none => true
  let h := if fin then { h with heldUntil := none, heldW := [], heldCfg := 0, heldLoss := 0, heldStrikes := 0 } else h
  { h with doneIv := k + 1, acc := merase h.acc k, nf := merase h.nf k, spike := merase h.spike k }

/-- Has the hold-off passed since the last Racking (R414)? -/
def State.heldOff (s : State) : Bool :=
  decide ((s.rd .STRM_RK_LAST_START).toNat + s.fget F.HLTH_HOLDOFF_S * 10 ^ 9 ≤ s.clk.wt)

/-- RISK is tested against the threshold (R414). -/
def State.hydTest (s : State) (risk thr : Nat) : State :=
  let was := s.flag F.HLTH_STATUS_ABOVE
  let s := (s.fset F.HLTH_STATUS_RISK risk).fset F.HLTH_STATUS_ABOVE (b2n (decide (thr < risk)))
  if risk ≤ thr then { s with hlth := { s.hlth with withheld := false } }
  else if !was then
    let s := s.raise 0xA015 kMODULE 0 (risk + thr * 2 ^ 8 + b2n s.heldOff * 2 ^ 16)
    if s.heldOff then s.hydReq else { s with hlth := { s.hlth with withheld := true } }
  else if s.hlth.withheld && s.heldOff then s.hydReq
  else s

/-- HYDROMETER_UPDATE (R413, R414): at the end of the next interval to be updated. -/
def execHydrometerUpdate (s : State) : Out :=
  let k := s.hlth.doneIv
  let s := s.atWt ((k + 1) * 10 ^ 7)
  let c := s.hlthCfg k
  let i := s.hydInput k
  let s := { s with hlth := s.hlth.done }
  if !s.flag F.HLTH_CTRL_EN then .next (s.fset F.HLTH_STATUS_RISK 0)
  else .next (s.hydTest (hydRisk (s.fget F.HLTH_STATUS_RISK) (bits c 10 8) i) (bits c 7 0))

/-! ## Declaring a core failed (R415, R416) -/

/-- Segment of a physical position, and the position in it (R29). -/
def segOfPos (pos : Nat) : Nat := pos / 160 * 5 + pos % 160 / 32
def posIn (pos : Nat) : Nat := pos % 160 % 32
/-- Physical position of position p of segment s (R29). -/
def posOf (seg p : Nat) : Nat := seg / 5 * 160 + 32 * (seg % 5) + p

/-- Is a position marked failed (R31, R33)? -/
def State.posFailed (s : State) (pos : Nat) : Bool :=
  let seg := segOfPos pos
  let p := posIn pos
  bit (s.fget F.MOD_SPARE_FAIL_FAILED 0 seg) p
    || (p == s.fget F.MOD_SPARE_SKIP_SKIP_A 0 seg && s.flag F.MOD_SPARE_SKIP_A_FAILED 0 seg)
    || (p == s.fget F.MOD_SPARE_SKIP_SKIP_B 0 seg && s.flag F.MOD_SPARE_SKIP_B_FAILED 0 seg)

/-- Healthy spares of a segment (R31). -/
def State.spares (s : State) (seg : Nat) : List Nat :=
  (if s.flag F.MOD_SPARE_SKIP_A_FAILED 0 seg then [] else [s.fget F.MOD_SPARE_SKIP_SKIP_A 0 seg])
    ++ (if s.flag F.MOD_SPARE_SKIP_B_FAILED 0 seg then [] else [s.fget F.MOD_SPARE_SKIP_SKIP_B 0 seg])

/-- The healthy spare nearest to position p, the lower one of two equally near (R32). -/
def State.nearSpare (s : State) (seg p : Nat) : Option Nat :=
  let d := fun (q : Nat) => if p ≤ q then q - p else p - q
  (s.spares seg).foldl (fun a q => match a with
    | none => some q
    | some b => if d q < d b ∨ (d q = d b ∧ q < b) then some q else some b) none

/-- Bit p of MOD_SPARE_FAIL[seg] is set. -/
def State.markFailed (s : State) (seg p : Nat) : State :=
  s.fset F.MOD_SPARE_FAIL_FAILED (setBits (s.fget F.MOD_SPARE_FAIL_FAILED 0 seg) p p 1) 0 seg

/-- MOD_SPARE_GEN rises as a change of the map begins or ends (R34). -/
def State.spareGen (s : State) : State := s.fset F.MOD_SPARE_GEN_GEN ((s.fget F.MOD_SPARE_GEN_GEN + 1) % 2 ^ 32)

/-- A healthy spare is marked failed (R415). -/
def State.spareFailed (s : State) (seg p : Nat) : State :=
  let s := if p = s.fget F.MOD_SPARE_SKIP_SKIP_A 0 seg then s.fset F.MOD_SPARE_SKIP_A_FAILED 1 0 seg
    else s.fset F.MOD_SPARE_SKIP_B_FAILED 1 0 seg
  (s.markFailed seg p).fset F.MOD_SPARES_LEFT_COUNT (s.fget F.MOD_SPARES_LEFT_COUNT - 1)

/-- Source of an event about a physical position: its logical core, or the position (R428). -/
def State.posSource (s : State) (pos : Nat) : Nat × Nat :=
  match s.logical pos with
  | some c => (kCORE, c)
  | none => (kPHYS, pos)

/-- CORE_FAILED, and the declaration's record in the lifetime log (R415, R428). -/
def State.coreFailed (s : State) (pos crit : Nat) : State :=
  let detail := crit + pos * 2 ^ 16 + segOfPos pos * 2 ^ 32
  let src := s.posSource pos
  (s.raise 0xA010 src.1 src.2 detail).logRecord 1 pos detail

/-- Slots that a failure in a segment halts (R416). -/
def State.slotsOfSeg (s : State) (seg : Nat) : List Nat :=
  let row := seg / 5
  let c0 := 30 * (seg % 5)
  (List.range 16).filter fun t =>
    let st := s.tstate t
    (st == tRUNNING || st == tSTOPPING || st == tSTOPPED || st == tSUSPENDED) &&
      (List.range 30).any fun j => s.inRect t (row * 150 + c0 + j)

/-- A slot is halted (R194, R416). -/
def State.slotHalt (s : State) (t : Nat) : State :=
  let s := s.slotStop t tHALTED
  s.setTract t { s.tract t with kept := false, keptStep := false }

/-- HLTH_STATUS.RECOVERY for the change that is handled now (R417 to R419). -/
def State.recovery (s : State) : State :=
  s.fset F.HLTH_STATUS_RECOVERY (match s.hlth.changes with
    | [] => 0
    | c :: _ => if (s.spares (segOfPos c.pos)).isEmpty then 2 else 1)

/-- A physical position is declared failed (R415, R416). -/
def State.declare (s : State) (pos crit : Nat) : State :=
  let seg := segOfPos pos
  if s.posFailed pos || s.hlth.changes.any (·.pos == pos) then s
  else if (s.logical pos).isNone then
    (s.coreFailed pos crit).spareGen.spareFailed seg (posIn pos) |>.spareGen
  else
    let s := s.coreFailed pos crit
    let ts := s.slotsOfSeg seg
    let s := ts.foldl State.slotHalt s
    let mask := (ts.map (2 ^ ·)).sum
    let s := { s with hlth := { s.hlth with changes := s.hlth.changes ++ [Change.mk pos mask] } }
    s.recovery

/-- CORE_PULSE_LAPSE (R415, criterion 0x1). -/
def execCorePulseLapse (pos : Pos) (s : State) : Out :=
  if !s.boot.coresUp || s.parkedField (fieldOfPos pos) || decide (2 ≤ s.fget F.PWR_STATUS_STATE) then .next s
  else .next (s.critMet pos 1)

/-- A write of HLTH_CORE_FAIL (R415, criterion 0x6). -/
def State.coreFailWrite (s : State) (phys : Bool) (index : Nat) : State :=
  if !s.flag F.MOD_CTRL_EXPERT || s.flag F.MOD_CTRL_LOCK then s
  else if phys then (if index < 19200 then s.critMet index 6 else s)
  else if index < 18000 then s.critMet (s.phys index) 6
  else s

/-- HLTH_CORE_FAIL_WRITE (R415). -/
def execHlthCoreFailWrite (phys : Bool) (index : Fin 32768) (s : State) : Out := .next (s.coreFailWrite phys index)

/-- CORE_FAILURE_DECLARATION (R415): the criterion met first that is not yet declared. -/
def execCoreFailureDeclaration (s : State) : Out :=
  match s.hlth.crit with
  | [] => .next s
  | (pos, crit) :: rest => .next ({ s with hlth := { s.hlth with crit := rest } }.declare pos crit)

/-! ## Monitors (R527, R528) -/

/-- MON_CLEAR_WRITE (R528). -/
def execMonClearWrite (mon : Mon) (s : State) : Out := .next (s.monClear mon)

/-- SRC and SEL of a monitor are written (R528): a change of either clears it. -/
def State.monSelect (s : State) (m src sel : Nat) : State :=
  if s.fget F.MON_CTRL_SRC 0 m = src ∧ s.fget F.MON_CTRL_SEL 0 m = sel then s
  else ((s.fset F.MON_CTRL_SRC src 0 m).fset F.MON_CTRL_SEL sel 0 m).monClear m

/-- MON_SOURCE_CHANGE (R528). -/
def execMonSourceChange (mon : Mon) (src : Fin 7) (sel : Fin 1024) (s : State) : Out := .next (s.monSelect mon src sel)

end Sys2Proof.Machine
end

