-- ==== Sys2Proof/Machine/ResetOps.lean ====
section
/-! DEFINITION. The reset classes as operations (R436 to R439), the skim level's request (R433), the output pins (R449, R537). -/

namespace Sys2Proof.Machine
open Sys2Proof

/-! ## Registers at a reset (R20, R437) -/

/-- Does a field keep its value when its block is reset: Loaded and Stored fields, RWN fields, and RWS fields unless the reset is
cold (R19, R20, R466)? -/
def FieldDef.kept (f : FieldDef) (cold : Bool) : Bool := f.keep != .none || f.acc == .RWN || (f.acc == .RWS && !cold)

/-- Block of a register. -/
def RegRef.blk (r : RegRef) : Block := r.id.defn.blk

/-- Value of a register after its block's reset. -/
def regReset (r : RegRef) (cold : Bool) (v : Word64) : Word64 :=
  BitVec.ofNat 64 ((r.id.defn.fields.filter (fun f => f.kept cold)).foldl
    (fun a f => setBits a f.hi f.lo (bits v.toNat f.hi f.lo)) (r.id.init r.j).toNat)

/-- Registers that p selects take their Reset values; their holding registers are emptied. -/
def State.resetRegs (s : State) (cold : Bool) (p : RegRef → Bool) : State :=
  let out := fun (a : Nat) =>
    match regAt a with
    | none => true
    | some r => !p r
  { s with
    regs := s.regs.filterMap fun e =>
      match regAt e.1 with
      | none => some e
      | some r =>
        if p r then (let v := regReset r cold e.2; if v = r.id.init r.j then none else some (e.1, v)) else some e
    wHold := s.wHold.filter fun e => out e.1
    rHold := s.rHold.filter fun e => out e.1 }

/-- Blocks that a class resets whole (R437): 1 cold, 2 warm, 3 compute. -/
def resetsBlock (cls : Nat) (b : Block) : Bool :=
  match b with
  | .MGMT => cls == 1
  | .HBMC | .RED | .STRM | .SCALE | .TRACT | .EP | .MX | .VX | .SP | .STP => decide (cls ≤ 3)
  | _ => decide (cls ≤ 2)

/-- Registers of a core that a core reset resets (R437). -/
def coreBlock (b : Block) : Bool :=
  match b with
  | .EP | .MX | .VX | .SP | .STP => true
  | _ => false

/-! ## Skim level (R433, R480) -/

/-- The greatest of the requested level, the floor and the ramp level (R433, R480). -/
def State.levelWant (s : State) : Nat :=
  max (s.fget F.CLK_SKIM_REQ) (max (s.fget F.CLK_SKIM_FLOOR) (s.fget F.PWR_STATUS_RAMP))

/-- A change of level is requested now: it replaces a request made less than 100 ns (360 undivided periods) ago (R433). -/
def State.levelRequest (s : State) : State :=
  let w := s.levelWant
  let old := s.clk.pendLevel.filter fun p => decide (p.2 + 360 ≤ s.clk.cyc)
  let last := match old.getLast? with
    | some p => p.1
    | none => s.level
  { s with clk := { s.clk with pendLevel := if last = w then old else old ++ [(w, s.clk.cyc)] } }

/-! ## Output pins (R449, R537) -/

/-- MOD_READY is high. -/
def State.pinReady (s : State) : Bool :=
  match s.pins.frozen with
  | some p => p.1
  | none => s.flag F.MOD_STATUS_READY

/-- ALERT_N is low. -/
def State.pinAlert (s : State) : Bool :=
  match s.pins.frozen with
  | some p => p.2.1
  | none =>
    s.flag F.MOD_STATUS_DEGRADED || s.flag F.PWR_STATUS_CAP || (List.range 25).any fun f => s.flag F.FLD_STATUS_WARN f

/-- STEP_OUT is high. -/
def State.pinStepOut (s : State) : Bool :=
  match s.pins.frozen with
  | some p => p.2.2
  | none => decide (s.clk.wt < s.pins.stepOut)

/-- THERMTRIP_N is low. -/
def State.pinTrip (s : State) : Bool := s.pins.trip

/-- The outputs follow their sources again (R537). -/
def State.pinsResume (s : State) : State := { s with pins := { s.pins with frozen := none } }

/-! ## Core and tract resets (R438, R439) -/

/-- A core's Epru, queues, engines, Underback and stream port are reset; the instruction store, the scratchpad, the router and the
Bow tap are not (R439). Numbers that name packets still in flight go on. -/
def State.coreClear (s : State) (c : Nat) : State :=
  let e := s.core c
  let x := s.stpc c
  let s := s.spEngineClear c
  let s := { s with mx := merase s.mx c, vx := merase s.vx c }
  let s := s.setCore c { istore := e.istore }
  let s := s.setStp c { nextId := x.nextId, nextRec := x.nextRec, rec0 := x.nextRec }
  let y := s.spCore c
  s.setSp c { y with planWait := false, bist := false }

/-- A core reset (R439). -/
def State.coreReset (s : State) (c : Nat) : State :=
  (s.coreClear c).resetRegs false fun (r : RegRef) => coreBlock r.blk && r.i == c

/-- RST_CAUSE records a reset (R444). -/
def State.setCause (s : State) (cls src : Nat) : State :=
  (s.fset F.RST_CAUSE_CLASS cls).fset F.RST_CAUSE_SOURCE src

/-- A tract reset (R438): the slot stops, its cores are reset, and it returns to FREE. A slot that is FREE has no rectangle. -/
def State.tractReset (s : State) (t : Nat) : State :=
  let cores := if s.tstate t = tFREE then [] else s.tractCores t
  let s := s.slotStop t tSTOPPED
  let s := cores.foldl State.coreClear s
  let s := s.resetRegs false fun (r : RegRef) => coreBlock r.blk && cores.contains r.i
  let s := s.gsTractFree t
  let s := s.resetRegs false fun (r : RegRef) => r.blk == .TRACT && r.i == t
  let s := { s with host := { s.host with jobs := { s.host.jobs with slots := merase s.host.jobs.slots t } } }
  s.setTract t {}

/-! ## Module-wide resets (R436, R437, R449) -/

/-- Outputs hold their state from the beginning of a reset (R449). -/
def State.pinsHold (s : State) : State :=
  { s with pins := { s.pins with frozen := some (s.pinReady, s.pinAlert, s.pinStepOut) } }

/-- Registers of the spare map (R463). -/
def mapReg (a : Nat) : Bool :=
  match regAt a with
  | none => false
  | some r => r.id == .MOD_SPARE_SKIP || r.id == .MOD_SPARE_FAIL || r.id == .MOD_SPARES_LEFT

/-- A reset before a map commit ends leaves the stored map unchanged (R463). -/
def State.mapRevert (s : State) : State :=
  if !s.boot.mapDue then s
  else
    let regs := s.boot.mapSaved.foldl (fun m e => minsert m e.1 e.2) (s.regs.filter fun e => !mapReg e.1)
    let s := { s with regs := regs, boot := { s.boot with mapDue := false, mapSaved := [] } }
    if s.fget F.MOD_SPARE_GEN_GEN % 2 = 1 then s.spareGen else s

/-- Accepted requests are applied and every coalescing store is written back (R285). -/
def State.storesBack (s : State) : State :=
  (s.chans.map (·.1)).foldl (fun s ch => s.coalFlush ch (fun _ => true)) s.hbmSettleAll

/-- After the reset of the HBMC block: stacks mapped out stay so until a cold reset (R288), and HBMC_ILV takes effect (R267).
`was` is the state before. -/
def State.stacksReset (s was : State) : State :=
  let s := (List.range 24).foldl (fun s st =>
    if bit (s.fget F.MOD_STACK_MAP_PRESENT) st then s
    else
      let why := match (was.stack st).mapout with
        | some m => if was.hState st = hMAPPED_OUT then was.fget F.HBMC_STATUS_MAPOUT_REASON st else m.1
        | none => was.fget F.HBMC_STATUS_MAPOUT_REASON st
      (s.fset F.HBMC_STATUS_STATE hMAPPED_OUT st).fset F.HBMC_STATUS_MAPOUT_REASON why st) s
  (s.fset F.HBMC_ILV_CUR_GROUP (s.fget F.HBMC_ILV_GROUP)).fset F.HBMC_ILV_CUR_GLOG (s.fget F.HBMC_ILV_GLOG)

/-- RESTRICTED lasts until a start-up commits NORMAL (R452). -/
def State.restrictedKept (s was : State) : State := s.fset F.MOD_STATUS_RESTRICTED (was.fget F.MOD_STATUS_RESTRICTED)

/-- Changes of the spare map that are to be handled again after READY (R422). -/
def Hlth.again (h : Hlth) : List Change := h.changes.map fun c => { c with slots := 0 }

/-- A cold reset (R436, R437): everything but the lifetime store, the flash devices, the fuses and the reset inputs. -/
def State.coldReset (s : State) : State :=
  let was := s
  let b := s.boot
  let s := s.resetRegs true fun (r : RegRef) => resetsBlock 1 r.blk
  let s := { s with
    clk := {}, ring := [], evtSeen := [], spTag := [], spc := [], fbc := [], flights := [], rimDown := [], bow := []
    bowBus := [], ep := [], tracts := [], mx := [], vx := [], stp := [], hbm := [], hbmPoison := [], hbmErr := []
    chans := [], stk := [], gs := [], rack := {}, red := {}, hlth := { changes := s.hlth.again }, host := {}, brim := {}
    boot := { pwrLow := b.pwrLow, uvlo := b.uvlo, modRst := b.modRst, perst := b.perst, flash := b.flash }
    pins := { frozen := some (false, false, false) }, pwr := {}
    log := { s.log with live := s.log.stored, shown := s.log.stored }, mgmt := { otp := s.mgmt.otp, jtag := s.mgmt.jtag, idcode := s.mgmt.idcode } }
  let (w, s) := s.free
  ((s.wr .SEC_DBG_NONCE w).fset F.MOD_STACK_MAP_PRESENT (2 ^ 24 - 1)).restrictedKept was

/-- A warm reset (R436, R437): kept are Shefikan with its boot SRAM, the time unit, the lifetime store and the stacks. -/
def State.warmReset (s : State) : State :=
  let s := s.storesBack
  let was := s
  let b := s.boot
  let m := s.mgmt
  let s := s.resetRegs false fun (r : RegRef) => resetsBlock 2 r.blk && r.id != .HBMC_ILV
  let s := { s with
    clk := { s.clk with run := false, pendLevel := [] }, ring := [], evtSeen := [], spc := [], fbc := [], flights := []
    rimDown := [], bow := [], bowBus := [], ep := [], tracts := [], mx := [], vx := [], stp := [], chans := []
    stk := [], gs := [], rack := {}, red := {}
    hlth := { changes := s.hlth.again, crit := s.hlth.crit, doneIv := s.hlth.doneIv, strikes := s.hlth.strikes }
    host := {}
    brim := { ports := s.brim.ports.map fun (p : Nat × BrimPort) => (p.1, { lastPeer := p.2.lastPeer }) }
    boot := { pwrLow := b.pwrLow, uvlo := b.uvlo, modRst := b.modRst, perst := b.perst, flash := b.flash, sram := b.sram
              digests := b.digests, hostUp := !b.perst }
    pwr := {}, mgmt := { m with rwn := [] } }
  let s := (s.fset F.SEC_STATUS_DEBUG 0).fset F.SEC_STATUS_RWN_BUSY 0
  (s.restrictedKept was).stacksReset was

/-- The module leaves a lower power state for the start-up of a compute reset, whose phases bring the core domains up again. -/
def State.toBoil (s : State) : State :=
  let s := { s with clk := { s.clk with run := true }, pwr := { s.pwr with move := none, auto := false, wakeSlots := [] } }
  let s := (s.fset F.PWR_STATUS_STATE 0).fset F.PWR_STATUS_MOVING 0
  let s := (s.fset F.PWR_STATUS_WAITING 0).fset F.PWR_STATUS_WAKE_PENDING 0
  ((s.fset F.PWR_STATUS_CORES_READY 1).fset F.PWR_CTRL_TARGET 0)

/-- A compute reset (R436, R437): the transit and Brim domains and the host port keep running; merge entries are closed (R261). -/
def State.computeReset (s : State) : State :=
  let s := s.storesBack
  let was := s
  let m := s.mgmt
  let s := s.resetRegs false fun (r : RegRef) => resetsBlock 3 r.blk && r.id != .HBMC_ILV
  let s := s.fset F.MOD_STATUS_READY 0
  let s := { s with
    spc := [], rimDown := [], ep := [], tracts := [], mx := [], vx := []
    fbc := s.fbc.map fun (p : Nat × FbCore) => (p.1, { p.2 with
      ops := [], tx := [], rx := [], held := [], wrOut := 0, merge := p.2.merge.map fun (e : MergeEntry) => { e with closed := true } })
    stp := s.stp.map fun (p : Nat × Stp) => (p.1, { nextId := p.2.nextId, nextRec := p.2.nextRec, rec0 := p.2.nextRec })
    chans := [], stk := [], gs := [], rack := {}, red := {}, hlth := { s.hlth with changes := s.hlth.again }
    host := { s.host with fetches := [], held := [] }
    boot := { s.boot with hbmUp := true, coresUp := false, bypass := [], releases := [], kar := [], karFail := [] }
    pwr := { s.pwr with idleAt := s.clk.wt }, mgmt := { m with rwn := [] } }
  let s := s.resetRegs false fun (r : RegRef) => r.id == .FB_STATUS
  let s := s.fset F.SEC_STATUS_RWN_BUSY 0
  let s := (s.fset F.CLK_SKIM_REQ 0).levelRequest
  (if s.fget F.PWR_STATUS_STATE ≠ 0 then s.toBoil else s).stacksReset was

/-- A cold, warm or compute reset (R436, R437, R440, R444): one that arrives during a reset or start-up of those classes acts in
the broader of the two classes, and of two in one PCLK of one class the lower source is recorded. -/
def State.moduleReset (s : State) (cls src : Nat) : State :=
  let cur := s.fget F.RST_CAUSE_CLASS
  let curSrc := s.fget F.RST_CAUSE_SOURCE
  let starting := !s.flag F.MOD_STATUS_READY
  let same := decide (s.clk.wt * 9 / 20 = s.boot.start * 9 / 20)
  let k := if starting && decide (cur < cls) then (cur, curSrc)
    else if starting && cur == cls && same then (cls, min src curSrc)
    else (cls, src)
  let s := s.mapRevert
  let s :=
    if k.1 = 1 then s.coldReset
    else
      let s := s.logCommit.pinsHold
      if k.1 = 2 then s.warmReset else s.computeReset
  let s := (s.setCause k.1 k.2).fset F.RST_STATUS_ACTIVE k.1
  let s := s.fset F.RST_BOOT_STAGE (if k.1 = 1 then 0 else if k.1 = 2 then 2 else 4)
  { s with boot := { s.boot with start := s.clk.wt } }

end Sys2Proof.Machine
end

