-- ==== Sys2Proof/Machine/BootOps.lean ====
section
/-! DEFINITION. Start-up's operations (13): the Wekai image and its proof, the trim load, the known-answer run, the spare map found
in start-up, the reset commands. -/

namespace Sys2Proof.Machine
open Sys2Proof

/-! ## The Wekai image (R454 to R458) -/

/-- n bytes of a flash device from an offset; a byte never written reads as erased flash does. -/
def State.flashBytes (s : State) (dev off n : Nat) : List Byte := mgets 0xFF s.boot.flash (dev * 2 ^ 26 + off) n
def State.flashNat (s : State) (dev off n : Nat) : Nat := leNat (s.flashBytes dev off n)
def State.flashZero (s : State) (dev off n : Nat) : Bool := (s.flashBytes dev off n).all (· == 0)

/-- A section entry of an image (R456). -/
structure Section where
  typ : Nat
  flags : Nat
  off : Nat
  len : Nat
  rsv : Nat
  hash : List Byte

/-- Section entry i of an image (R455, R456). -/
def State.sectionAt (s : State) (dev i : Nat) : Section :=
  let b := 0x760 + 96 * i
  { typ := s.flashNat dev b 4, flags := s.flashNat dev (b + 4) 4, off := s.flashNat dev (b + 8) 8
    len := s.flashNat dev (b + 16) 8, rsv := s.flashNat dev (b + 24) 8, hash := s.flashBytes dev (b + 32) 64 }

def State.sections (s : State) (dev : Nat) : List Section := (List.range (s.flashNat dev 6 2)).map (s.sectionAt dev)

/-- Check 2: MAGIC, FMTVER, NSECT and IMAGE_LEN are valid, reserved header fields are 0, and so are unused entries (R455, R457). -/
def State.imageHeaderOk (s : State) (dev : Nat) : Bool :=
  let n := s.flashNat dev 6 2
  let len := s.flashNat dev 8 8
  s.flashNat dev 0 4 == 0x494B_4557 && s.flashNat dev 4 2 == 1 && decide (4 ≤ n ∧ n ≤ 16)
    && decide (len % 4096 = 0 ∧ len ≤ 2 ^ 26) && s.flashZero dev 0x14 4 && s.flashZero dev 0x20 32 && s.flashZero dev 0x741 31
    && s.flashZero dev 0xD60 3488 && s.flashZero dev (0x760 + 96 * n) (96 * (16 - n))

/-- Is a digest that of an image-key slot that is not revoked (R457, R517)? -/
def State.keySlot (s : State) (digest : List Byte) : Option Nat :=
  (List.range 4).find? fun k => !bit (s.fget F.SEC_STATUS_REVOKED) k && mget [] s.mgmt.otp k == digest

/-- Is the length of a section as its type asks (R456)? -/
def Section.lenOk (x : Section) : Bool :=
  match x.typ with
  | 1 => decide (x.len ≤ 2 ^ 23)
  | 2 => decide (x.len ≤ 2 ^ 20 ∧ x.len % 512 = 0)
  | 3 => decide (x.len ≤ 2 ^ 21 ∧ x.len % 512 = 0)
  | 4 => x.len == 64
  | 5 => true
  | 6 => true
  | _ => false

/-- Check 6: the section set meets R456. -/
def State.sectionsOk (s : State) (dev : Nat) : Bool :=
  let xs := s.sections dev
  let len := s.flashNat dev 8 8
  let num := fun (t : Nat) => (xs.filter fun x => x.typ == t).length
  let apart := fun (i : Nat) =>
    let a := xs.getD i ⟨0, 0, 0, 0, 0, []⟩
    (List.range i).all fun j =>
      let b := xs.getD j ⟨0, 0, 0, 0, 0, []⟩
      decide (a.off + a.len ≤ b.off ∨ b.off + b.len ≤ a.off)
  let opts := fun (x : Section) =>
    x.typ != 4 || (decide (s.flashNat dev (x.off + 2) 2 ≤ 500) && s.flashZero dev (x.off + 4) 60)
  xs.all (fun x => x.lenOk && x.flags == 0 && x.rsv == 0
      && decide (x.off % 4096 = 0 ∧ 0x2000 ≤ x.off ∧ 1 ≤ x.len ∧ x.off + x.len ≤ len) && opts x)
    && (List.range 4).all (fun t => num (t + 1) == 1) && (List.range 2).all (fun t => decide (num (t + 5) ≤ 1))
    && (List.range xs.length).all apart

/-- The proof of an image (R457): the key slot that proves it, or the reason and section index of the first check that fails. -/
def State.proveImage (s : State) (dev : Nat) (dead : Bool) : Except (Nat × Nat) Nat :=
  if dead then .error (1, 0)
  else if !s.imageHeaderOk dev then .error (2, 0)
  else
    let pub := s.flashBytes dev 0x40 1793
    match s.keySlot (Config.shake256 pub) with
    | none => .error (3, 0)
    | some k =>
      if !Config.falconOk pub (s.flashBytes dev 0 0x1B00) (s.flashBytes dev 0x1B00 1280) then .error (4, 0)
      else if s.flashNat dev 0x10 4 < s.fget F.SEC_SVN_FLOOR_FLOOR then .error (5, 0)
      else if !s.sectionsOk dev then .error (7, 0)
      else
        let xs := s.sections dev
        match (List.range xs.length).find? (fun i =>
            let x := xs.getD i ⟨0, 0, 0, 0, 0, []⟩
            Config.shake256 (s.flashBytes dev x.off x.len) != x.hash) with
        | some i => .error (6, i)
        | none => .ok k

/-- A proven image is booted: its sections stand in boot SRAM (R458). -/
def State.bootImage (s : State) (dev slot : Nat) : State :=
  let xs := s.sections dev
  let sram := xs.foldl (fun m x => mput [] m x.typ (s.flashBytes dev x.off x.len)) []
  let digests := xs.foldl (fun m x => mput [] m x.typ x.hash) []
  let svn := s.flashNat dev 0x10 4
  let build := s.flashNat dev 0x18 8
  let s := { s with boot := { s.boot with sram := sram, digests := digests }, mgmt := { s.mgmt with slot := slot } }
  ((s.fset F.RST_BOOT_SLOT dev).fset F.RST_IMAGE_SVN_SVN svn).fset F.RST_IMAGE_BUILD_BUILD_ID build

/-- The next phase begins (R459). -/
def State.setStage (s : State) (n : Nat) : State := s.fset F.RST_BOOT_STAGE n

/-- Start-up stops in BOOT_FAIL (R452, R458). -/
def State.bootStop (s : State) (why : Nat) : State := ((s.raise 0xA009 kMODULE 0 why).setStage 9).pinsResume

/-- P1: the image of the preferred device is proven, or that of the other (R458). -/
def State.phaseImage (s : State) (deadA deadB : Bool) : State :=
  let d := s.fget F.RST_BOOT_PREFER
  let dead := fun (n : Nat) => if n = 0 then deadA else deadB
  let reject := fun (s : State) (n : Nat) (e : Nat × Nat) =>
    s.raise 0xA007 kMODULE 0 (n + e.1 * 2 ^ 8 + (if e.1 = 6 then e.2 * 2 ^ 12 else 0))
  match s.proveImage d (dead d) with
  | .ok k => (s.bootImage d k).setStage 2
  | .error e =>
    let s := reject s d e
    let o := 1 - d
    match s.proveImage o (dead o) with
    | .ok k => ((s.bootImage o k).raise 0xA008 kMODULE 0 o).setStage 2
    | .error e => (reject s o e).bootStop 1

/-- Byte of the OPTIONS section in boot SRAM (R456). -/
def State.option (s : State) (i n : Nat) : Nat := leNat (((mget [] s.boot.sram 4).drop i).take n)

/-! ## The trim load (R450 to R453) -/

/-- NORMAL or SAFE trims are committed (R451, R452). -/
def State.trimCommit (s : State) (safe : Bool) : State :=
  let s := (s.fset F.RST_TRIM_SET (b2n safe)).fset F.MOD_STATUS_RESTRICTED (b2n safe)
  let s := s.fset F.CLK_SKIM_FLOOR (if safe then 8 else 0)
  if safe then s.raise 0xA006 kMODULE 0 0 else s.fset F.RST_TRIM_FAILS 0

/-- Attempts of a load, with the verdicts of their checks (R451, R452); an attempt with no verdict passes. -/
def State.trimLoad (s : State) (oks : List Bool) : Nat → State
  | 0 => s
  | n + 1 =>
    let f := s.fget F.RST_TRIM_FAILS
    let ok := oks.headD true
    if f = 3 then (if ok then (s.trimCommit true).setStage 3 else s.bootStop 2)
    else
      let s := s.fset F.RST_TRIM_FAILS (f + 1)
      if ok then (s.trimCommit false).setStage 3 else (s.raise 0xA005 kMODULE 0 (f + 2 ^ 4)).trimLoad oks.tail n

/-- P2: a load that finds FAILS above 0 was interrupted (R451). -/
def State.phaseTrims (s : State) (oks : List Bool) : State :=
  let f := s.fget F.RST_TRIM_FAILS
  let s := if 0 < f then s.raise 0xA005 kMODULE 0 f else s
  s.trimLoad oks 4

/-! ## SYNC, stacks, cores (R431, R460, R461, R286) -/

/-- The ramp starts, or starts again (R481). -/
def State.rampStart (s : State) : State :=
  ({ s with pwr := { s.pwr with rampAt := some s.clk.wt } }.fset F.PWR_STATUS_RAMP 8).levelRequest

/-- P3: SYNC, with the level in force from it on; the transit and Brim domains and the controllers are released; at cold and warm
start-ups the ports take their framing mode and those of BRIM_AUTO are enabled (R431, R447, R459, R460). -/
def State.phaseSync (s : State) : State :=
  let s := { s with clk := { s.clk with cyc := 0, tb := 0, run := true, pendLevel := [] } }
  let s := s.fset F.CLK_SKIM_LEVEL s.levelWant
  let s := { s with boot := { s.boot with transitUp := true, hbmUp := true, p3End := s.clk.wt } }
  let s := (List.range 6).foldl (fun s p => s.fset F.BRIM_CFG_MODE (b2n (bit (s.option 1 1) p)) p) s
  ((List.range 6).foldl (fun s p => if bit (s.option 0 1) p then s.bEnable p true else s) s).setStage 4

/-- Has the module cooled so far that phase P4 may begin (R489)? -/
def State.cooled (s : State) : Bool :=
  (List.range 25).all (fun f => decide (toSigned 12 (s.fget F.FLD_TEMP_TEMP f) ≤ 360))
    && (List.range 24).all (fun st => decide (s.fget F.HBMC_TEMP_TEMP st ≤ 85))

/-- One stack at the end of its training (R286, R287): `fails` attempts have failed. -/
def State.stackTrained (s : State) (st fails : Nat) : State :=
  if s.hState st ≠ hTRAINING then s
  else
    let s := (List.range fails).foldl (fun s k => s.raise 0x6007 kCHANNEL (32 * st) (k + 1)) s
    if fails = 3 then s.stackMapOut st 1 0
    else s.fset F.HBMC_STATUS_STATE (if s.flag F.HBMC_CTRL_ENABLE st then hENABLED else hDISABLED) st

/-- P4: the stacks are trained; those that fail three attempts, with their partners, are mapped out (R286, R287). -/
def State.phaseStacks (s : State) (fails : List (Stack × Fin 4)) : State :=
  let n := fun (st : Nat) => ((fails.find? fun f => f.1.val == st).map fun f => f.2.val).getD 0
  let s := (List.range 24).foldl (fun s st => s.stackTrained st (n st)) s
  let s := (List.range 24).foldl (fun s st => s.hbmStopEnd st) s
  { s with boot := { s.boot with cool := false } }.setStage 5

/-- A position fails the known-answer run or its BIST (R461, R462). -/
def State.karFail (s : State) (pos code crit : Nat) : State :=
  let src := s.posSource pos
  let s := s.raise 0xA00A src.1 src.2 code
  { s with boot := { s.boot with kar := mput 0 s.boot.kar pos (1 + code), karFail := s.boot.karFail ++ [(pos, crit)] } }

/-- EPRU_FW and KAR at a position's scratchpad (R461). -/
def State.firmwareAt (s : State) (pos : Nat) : State :=
  let sp := mputs 0 s.sp (pos * slotBytes) (mget [] s.boot.sram 2)
  { s with sp := mputs 0 sp (pos * slotBytes + 0x10_0000) (mget [] s.boot.sram 3) }

/-- P5: the core domains are released, the ramp starts, and the injectors carry the firmware to every position; each core copies it
into its instruction store and begins at PC 0 (R461). -/
def State.phaseCores (s : State) (undelivered : List Pos) : State :=
  let s := { s with boot := { s.boot with coresUp := true, karStart := s.clk.wt } }.rampStart
  let lost := fun (p : Nat) => undelivered.any fun q => q.val == p
  let s := (List.range 19200).foldl (fun s p => if lost p then s else s.firmwareAt p) s
  let s := (List.range 18000).foldl (fun s c => if lost (s.phys c) then s else (s.ifill c 0 1024 0).setEpState c epRUN) s
  (undelivered.foldl (fun s p => if s.posFailed p then s else s.karFail p 6 5) s).setStage 6

/-! ## The known-answer run (R462) -/

/-- How long a core may take to report (R462). -/
def State.karLimit (s : State) : Nat := if s.flag F.MOD_STATUS_RESTRICTED then 600000000 else 300000000

/-- Does position p still run? -/
def State.karOpen (s : State) (p : Nat) : Bool :=
  s.fget F.RST_BOOT_STAGE == 6 && !s.posFailed p && mget 0 s.boot.kar p == 0

/-- EXPECT of the image's KAR section (R456). -/
def State.karExpect (s : State) : Nat := leNat ((mget [] s.boot.sram 3).take 8)

/-! ## The spare map (R29 to R34, R463) -/

/-- Spare q of a segment takes the place of position p, which enters the skip set marked failed (R32). -/
def State.spareSwap (s : State) (seg p q : Nat) : State :=
  let a := s.fget F.MOD_SPARE_SKIP_SKIP_A 0 seg
  let b := s.fget F.MOD_SPARE_SKIP_SKIP_B 0 seg
  let fa := s.fget F.MOD_SPARE_SKIP_A_FAILED 0 seg
  let fb := s.fget F.MOD_SPARE_SKIP_B_FAILED 0 seg
  let other := if q = a then (b, fb) else (a, fa)
  let lo := if p < other.1 then (p, 1) else other
  let hi := if p < other.1 then other else (p, 1)
  let s := s.wr .MOD_SPARE_SKIP (BitVec.ofNat 64 (lo.1 + hi.1 * 2 ^ 5 + lo.2 * 2 ^ 10 + hi.2 * 2 ^ 11)) 0 seg
  s.fset F.MOD_SPARES_LEFT_COUNT (s.fget F.MOD_SPARES_LEFT_COUNT - 1)

/-- Every failing position of a start-up is marked (R463). -/
def State.bootMark (s : State) : State :=
  s.boot.karFail.foldl (fun s f =>
    let seg := segOfPos f.1
    let s := s.coreFailed f.1 f.2
    if (s.logical f.1).isNone then s.spareFailed seg (posIn f.1) else s.markFailed seg (posIn f.1)) s

/-- One failing position that is not skipped: a spare takes its place, or it stays unusable (R32, R33, R463). -/
def State.bootReplace (s : State) (pos : Nat) : State :=
  let seg := segOfPos pos
  match s.logical pos with
  | none => s
  | some c =>
    match s.nearSpare seg (posIn pos) with
    | none => s.logRecord 3 pos (seg + posIn pos * 2 ^ 10)
    | some q =>
      let detail := seg + posIn pos * 2 ^ 10 + q * 2 ^ 16
      let s := (s.spareSwap seg (posIn pos) q).raise 0xA011 kCORE c detail
      (s.logRecord 2 pos detail).count .HLTH_SUBSTITUTIONS

/-- A number put into a rising list. -/
def insNat (n : Nat) : List Nat → List Nat
  | [] => [n]
  | m :: l => if n ≤ m then n :: m :: l else m :: insNat n l

/-- Positions in ascending segment order, then ascending position (R463). -/
def inMapOrder (l : List Nat) : List Nat :=
  ((l.map fun p => segOfPos p * 32 + posIn p).foldr insNat []).map fun k => posOf (k / 32) (k % 32)

/-- The map that a start-up finds (R463): MOD_SPARE_GEN is odd until it is committed. -/
def State.bootMap (s : State) : State :=
  if s.boot.karFail.isEmpty then s
  else
    let s := { s with boot := { s.boot with mapDue := true, mapSaved := s.regs.filter fun e => mapReg e.1 } }
    let s := if s.fget F.MOD_SPARE_GEN_GEN % 2 = 0 then s.spareGen else s
    let fails := (s.boot.karFail.map (·.1)).filter fun p => (s.logical p).isSome
    let s := s.bootMark
    ((inMapOrder fails).foldl State.bootReplace s).setDegraded

/-- P6: scratchpads that failed BIST and cores that have not reported fail; every line is zero; the spare map is applied (R462,
R463). -/
def State.phaseRun (s : State) (bistBad : List Pos) : State :=
  let s := bistBad.foldl (fun s p =>
    if s.karOpen p then
      (let src := s.posSource p
       (s.raise 0x2005 src.1 src.2 0).karFail p 4 2)
    else s) s
  let s := (List.range 19200).foldl (fun s p => if s.karOpen p then s.karFail p 5 5 else s) s
  let s := { s with sp := [], spCode := [] }
  let s := (List.range 18000).foldl (fun s c => s.setEpState c epIDLE) s
  s.bootMap.setStage 7

/-! ## Reset commands (R442) -/

/-- RST_REJECTED (R442, R467). -/
def State.rstReject (s : State) (reason src : Nat) : State := s.raise 0xA00B kMODULE 0 (reason + src * 2 ^ 4)

/-- Source of a reset command (R440). -/
def cmdSource : CmdPath → Nat
  | .bar0 => 4
  | .mctp => 5
  | .brim _ => 8

/-- Is a class allowed for a path (R442)? -/
def State.cmdAllowed (s : State) (path : CmdPath) (cls : Nat) : Bool :=
  match path with
  | .bar0 => decide (2 ≤ cls ∧ cls ≤ 5)
  | .mctp => decide (1 ≤ cls ∧ cls ≤ 5)
  | .brim p => decide (2 ≤ cls ∧ cls ≤ 3) && s.flag F.RST_CTRL_REMOTE_EN && s.flag F.BRIM_CFG_REMOTE_REG p

/-- A core-class command on a logical core, or on a position (R439, R442): the core, if the position has one. -/
def State.cmdCore (s : State) (phys : Bool) (target : Nat) : Option Nat :=
  if phys then s.logical target else some target

/-- Why a write of RST_CMD is ignored (R439, R442, R444): the reason of RST_REJECTED. -/
def State.rstBad (s : State) (path : CmdPath) (key cls : Nat) (phys : Bool) (target : Nat) : Option Nat :=
  if key ≠ 0xA5 then some 1
  else if !s.cmdAllowed path cls then some 2
  else if cls ≤ 3 then none
  else if !s.flag F.MOD_STATUS_READY then some 4
  else if (if cls = 4 then 16 else if phys then 19200 else 18000) ≤ target then some 5
  else if cls = 4 then none
  else match s.cmdCore phys target with
    | none => none
    | some c => if (s.slotOf c).isSome then some 3 else none

/-- A write of RST_CMD (R442, R444). -/
def State.rstCmd (s : State) (path : CmdPath) (key cls : Nat) (phys : Bool) (target : Nat) : State :=
  let src := cmdSource path
  match s.rstBad path key cls phys target with
  | some r => s.rstReject r src
  | none =>
    if cls ≤ 3 then s.moduleReset cls src
    else if cls = 4 then (s.tractReset target).setCause 4 src
    else
      match s.cmdCore phys target with
      | none => s.setCause 5 src
      | some c => (s.coreReset c).setCause 5 src

/-! ## Clock domains (R445, R446) -/

/-- 64 edges of a domain's clock pass (R446). The Shefikan, host and Brim logic runs on PCLK. -/
def State.domainEdges (s : State) (domain : Nat) : State :=
  if domain = 5 ∧ s.clk.run then s.atTb (s.clk.tb + 64)
  else if domain = 3 ∧ s.clk.run then s.atTb (s.clk.tb + 128)
  else s.atCyc (s.clk.cyc + (if domain = 5 then 64 else if domain = 3 then 128 else if domain = 4 then 64 * mclk else 512))

/-- Ports whose endpoints stand in a field (R254). -/
def fieldPorts (f : Nat) : List Nat := if f = 0 then [0, 1] else if f = 4 then [2, 3] else if f = 24 then [4, 5] else []

/-- Stacks whose channels stand in a field (R254). -/
def fieldStacks (f : Nat) : List Nat :=
  (List.range 24).filter fun st => (stopField (stopOf (destChan (32 * st)))).2 * 5 + (stopField (stopOf (destChan (32 * st)))).1 == f

/-- One domain of a field is put into reset (R445). -/
def State.domainReset (s : State) (domain f : Nat) : State :=
  match domain with
  | 1 => ({ s with host := {} } : State).resetRegs false fun (r : RegRef) => r.blk == .HOST
  | 2 => (fieldPorts f).foldl (fun s p =>
      (s.setBp p { lastPeer := (s.bp p).lastPeer }).resetRegs false fun (r : RegRef) => r.blk == .BRIM && r.i == p) s
  | 3 => { s with fbc := s.fbc.filter fun e => fieldOf e.1 != f }
  | 4 =>
    let s := s.storesBack
    (fieldStacks f).foldl (fun s st => { s with chans := s.chans.filter fun e => e.1 / 32 != st }) s
  | 5 =>
    let s := (List.range 18000).foldl (fun s c => if fieldOf c = f then s.coreClear c else s) s
    s.resetRegs false fun (r : RegRef) => coreBlock r.blk && fieldOf r.i == f
  | _ => s

end Sys2Proof.Machine
end

