-- ==== Sys2Proof/Machine/Boot.lean ====
section
/-! DEFINITION. Meanings of the reset, clock and start-up commands (13) but READY_SET, which concerns the host's jobs too. -/

namespace Sys2Proof.Machine
open Sys2Proof

/-! ## Reset inputs (R440, R441, R530) -/

/-- PWR_OK_LOW (R440, R441). -/
def execPwrOkLow (s : State) : Out :=
  .next ({ s with boot := { s.boot with pwrLow := true } }.moduleReset 1 1)

/-- The time unit's domain is released: WT is 0 and start-up begins (R435, R459). -/
def State.coldRelease (s : State) : State :=
  if s.boot.pwrLow || s.boot.uvlo then s else { s with clk := {}, boot := { s.boot with start := 0 } }

/-- PWR_OK_RELEASE (R441): PWR_OK has been high for 1 ms and REFCLK has run for 4,096 cycles. -/
def execPwrOkRelease (s : State) : Out :=
  if !s.boot.pwrLow then .next s else .next { s with boot := { s.boot with pwrLow := false } }.coldRelease

/-- BUSBAR_UVLO_FALL (R530). -/
def execBusbarUvloFall (s : State) : Out :=
  .next ({ s with boot := { s.boot with uvlo := true } }.moduleReset 1 1)

/-- BUSBAR_UVLO_RISE (R530). -/
def execBusbarUvloRise (s : State) : Out :=
  if !s.boot.uvlo then .next s else .next { s with boot := { s.boot with uvlo := false } }.coldRelease

/-- PERST_N_ASSERT (R440, R441): the host port is held in reset, and the class of PERST_CLASS acts. -/
def execPerstNAssert (s : State) : Out :=
  let cls := if s.flag F.RST_CTRL_PERST_CLASS then 3 else 2
  let s := { s with boot := { s.boot with perst := true } }.moduleReset cls 2
  let s := { s with host := {}, boot := { s.boot with hostUp := false } }
  .next (s.resetRegs false fun (r : RegRef) => r.blk == .HOST)

/-- PERST_N_DEASSERT (R441, R447): the host port is released, once P0 has ended. -/
def execPerstNDeassert (s : State) : Out :=
  let up := s.fget F.RST_BOOT_STAGE != 0 && !s.boot.pwrLow && !s.boot.uvlo
  .next { s with boot := { s.boot with perst := false, hostUp := up } }

/-- MOD_RST_N_LOW (R441): a low that has lasted 1 us. -/
def execModRstNLow (s : State) : Out :=
  .next ({ s with boot := { s.boot with modRst := true } }.moduleReset 2 3)

/-- MOD_RST_N_HIGH (R441). -/
def execModRstNHigh (s : State) : Out := .next { s with boot := { s.boot with modRst := false } }

/-! ## Reset commands (R442) and the watchdog (R443) -/

/-- RST_CMD_WARM (R442). -/
def execRstCmdWarm (path : CmdPath) (key : BitVec 8) (s : State) : Out := .next (s.rstCmd path key.toNat 2 false 0)

/-- RST_CMD_COMPUTE (R442). -/
def execRstCmdCompute (path : CmdPath) (key : BitVec 8) (s : State) : Out := .next (s.rstCmd path key.toNat 3 false 0)

/-- RST_CMD_TRACT (R438, R442). -/
def execRstCmdTract (path : CmdPath) (key : BitVec 8) (target : Fin 32768) (s : State) : Out :=
  .next (s.rstCmd path key.toNat 4 false target)

/-- RST_CMD_CORE (R439, R442). -/
def execRstCmdCore (path : CmdPath) (key : BitVec 8) (phys : Bool) (target : Fin 32768) (s : State) : Out :=
  .next (s.rstCmd path key.toNat 5 phys target)

/-- A write of RST_WDOG_KICK (R443). -/
def State.wdogKick (s : State) : State := { s with boot := { s.boot with wdogAt := s.clk.wt } }

/-- WDOG_KICK_WRITE (R443). -/
def execWdogKickWrite (s : State) : Out := .next s.wdogKick

/-- WATCHDOG_EXPIRY (R8, R443): WT passes the last restart plus MS. -/
def execWatchdogExpiry (s : State) : Out :=
  if !s.flag F.RST_WDOG_EN || !s.flag F.MOD_STATUS_READY then .next s
  else
    let s := s.atWt (s.boot.wdogAt + s.fget F.RST_WDOG_MS * 1000000 + 1)
    .next (s.moduleReset (s.fget F.RST_WDOG_CLASS) 6)

/-! ## PLLs and clock domains (R445, R446, R448) -/

/-- PLL_LOCK (R446). -/
def execPllLock (field : FieldId) (s : State) : Out :=
  if bit (s.fget F.CLK_STATUS_LOCKED) field then .next s
  else .next { s with boot := { s.boot with pll := mput 0 s.boot.pll field (s.clk.wt + 1) } }

/-- PLL_LOSS_OF_LOCK (R446, R448): before clock-good the count begins again at the next lock; of a field whose domains are released
it is a warm reset. -/
def execPllLossOfLock (field : FieldId) (s : State) : Out :=
  let s := { s with boot := { s.boot with pll := merase s.boot.pll field } }
  if !bit (s.fget F.CLK_STATUS_LOCKED) field then .next s
  else
    let s := s.fset F.CLK_STATUS_LOCKED (setBits (s.fget F.CLK_STATUS_LOCKED) field field 0)
    if !s.boot.transitUp then .next s else .next ((s.raise 0xA004 kFIELD field 0).moduleReset 2 9)

/-- CLOCK_LOSS (R445). -/
def execClockLoss (domain : Fin 6) (field : FieldId) (s : State) : Out :=
  let s := s.raise 0xA003 kMODULE 0 (domain + field * 2 ^ 4)
  let key := domain.val * 32 + field
  let s := { s with boot := { s.boot with
    bypass := s.boot.bypass.filter (· != key) ++ [key], pll := merase s.boot.pll field } }
  let s := s.fset F.CLK_STATUS_LOCKED (setBits (s.fget F.CLK_STATUS_LOCKED) field field 0)
  let s := s.fset F.CLK_BYPASS_BYPASS (setBits (s.fget F.CLK_BYPASS_BYPASS) field field 1)
  .next ((s.fset F.RST_STATUS_BYPASS 1).domainReset domain field)

/-- CLOCK_GOOD (R446): 4,096 REFCLK cycles after the lock; a domain on bypass is switched back (R445). -/
def execClockGood (field : FieldId) (s : State) : Out :=
  let l := mget 0 s.boot.pll field
  if l = 0 ∨ bit (s.fget F.CLK_STATUS_LOCKED) field then .next s
  else
    let s := s.atWt (l - 1 + 40960)
    let s := s.fset F.CLK_STATUS_LOCKED (setBits (s.fget F.CLK_STATUS_LOCKED) field field 1)
    let b := setBits (s.fget F.CLK_BYPASS_BYPASS) field field 0
    .next ((s.fset F.CLK_BYPASS_BYPASS b).fset F.RST_STATUS_BYPASS (b2n (b != 0)))

/-- DOMAIN_RELEASE (R446): requested before clock-good it is held; after clock-good a domain in reset is released on the 64th edge
of its clock after the later of the two. -/
def execDomainRelease (domain : Fin 6) (field : FieldId) (s : State) : Out :=
  let key := domain.val * 32 + field
  let held := s.boot.releases.any fun r => r.1 == key
  if !bit (s.fget F.CLK_STATUS_LOCKED) field then
    if held then .next s
    else
      let l := mget 0 s.boot.pll field
      let left := if l = 0 then 65535 else min 65535 ((l - 1 + 40960 - s.clk.wt) / 10)
      let s := { s with boot := { s.boot with releases := s.boot.releases ++ [(key, s.clk.wt, true)] } }
      .next ((s.fset F.RST_STATUS_RELEASE_HELD 1).raise 0xA002 kMODULE 0 (domain + field * 2 ^ 4 + left * 2 ^ 16))
  else if !held && !s.boot.bypass.contains key then .next s
  else
    let s := s.domainEdges domain
    let rest := s.boot.releases.filter fun r => r.1 != key
    let s := { s with boot := { s.boot with releases := rest, bypass := s.boot.bypass.filter (· != key) } }
    .next (s.fset F.RST_STATUS_RELEASE_HELD (b2n (!rest.isEmpty)))

/-! ## Start-up (R459 to R463) -/

/-- START_UP_PHASE_END (R459): the phase in progress ends with what the hardware finds in it. No phase passes while a reset input
is held; P3 waits for the clock-good of all 25 fields, P4 for the module to cool (R489). -/
def execStartUpPhaseEnd (facts : PhaseFacts) (s : State) : Out :=
  let b := s.boot
  if b.pwrLow || b.uvlo || b.modRst then .next s
  else
    match s.fget F.RST_BOOT_STAGE with
    | 0 => .next ({ s with boot := { b with hostUp := !b.perst } }.setStage 1)
    | 1 => .next (s.phaseImage facts.deadA facts.deadB)
    | 2 => .next (s.phaseTrims facts.trims)
    | 3 => if s.fget F.CLK_STATUS_LOCKED ≠ 2 ^ 25 - 1 then .next s else .next s.phaseSync
    | 4 => if b.cool && !s.cooled then .next s else .next (s.phaseStacks facts.trainFails)
    | 5 => .next (s.phaseCores facts.undelivered)
    | 6 => .next (s.phaseRun facts.bistBad)
    | _ => .next s

/-- KAR_REPORT (R462): `part` names the part of the run in which a wrong signature went wrong (matrix engine, vector engine, Epru). -/
def execKarReport (pos : Pos) (part : Fin 3) (signature : BitVec 64) (s : State) : Out :=
  if !s.karOpen pos then .next s
  else if s.boot.karStart + s.karLimit < s.clk.wt then .next (s.karFail pos 5 5)
  else if signature.toNat = s.karExpect then .next { s with boot := { s.boot with kar := mput 0 s.boot.kar pos 1 } }
  else .next (s.karFail pos (part + 1) 5)

/-- KAR_DEADLINE (R8, R462). -/
def execKarDeadline (pos : Pos) (s : State) : Out :=
  if !s.karOpen pos then .next s else .next ((s.atWt (s.boot.karStart + s.karLimit + 1)).karFail pos 5 5)

/-- START_UP_MAP_COMMIT (R463). -/
def execStartUpMapCommit (s : State) : Out :=
  if !s.boot.mapDue || !s.flag F.MOD_STATUS_READY then .next s
  else .next { s with boot := { s.boot with mapDue := false, mapSaved := [] } }.spareGen

/-- TRIM_RETRY_WRITE (R453). -/
def execTrimRetryWrite (s : State) : Out := .next (s.fset F.RST_TRIM_FAILS 0)

end Sys2Proof.Machine
end

