-- ==== Sys2Proof/Machine/Brim.lean ====
section
/-! DEFINITION. Meanings of the Brim ports' commands (10) and of the conversion of REDs (11). -/

namespace Sys2Proof.Machine
open Sys2Proof

/-! ## Port states (R338 to R340) -/

/-- BRIM_ENABLE_WRITE (R340). -/
def execBrimEnableWrite (port : Port) (value : Bool) (s : State) : Out := .next (s.bEnable port value)

/-- BRIM_RETRAIN_WRITE (R339): RETRAIN reads 0. -/
def execBrimRetrainWrite (port : Port) (s : State) : Out := .next (s.bRetrain port 5)

/-- BLOCK_LOCK_LOSS (R339): a trained group (false A, true B) loses block lock. -/
def execBlockLockLoss (port : Port) (group : Bool) (s : State) : Out :=
  if bit (s.fget F.BRIM_STATUS_GROUPS port) (b2n group) then .next (s.bRetrain port 3) else .next s

/-- BRIM_TRAINING_ATTEMPT_END (R339): whether the signal of each group has locked. -/
def execBrimTrainingAttemptEnd (port : Port) (lockA lockB : Bool) (s : State) : Out :=
  if s.bState port ≠ bTRAINING then .next s
  else
    let a := s.bGroupOk port lockA
    let b := s.bGroupOk port lockB
    let groups := b2n a + 2 * b2n b
    if groups = 3 then .next (s.bTrained port 3)
    else
      let n := s.fget F.BRIM_STATUS_TRAIN_FAILS port + 1
      let s := s.fset F.BRIM_STATUS_TRAIN_FAILS n port
      if n < 3 then .next (s.setBp port { s.bp port with peerGot := false })
      else if groups ≠ 0 then .next (s.bTrained port groups)
      else .next ((s.setBState port bFAILED).raise 0x7004 kPORT port 3)

/-- BRIM_GROUP_RETRY (R339): 1 s after the last try a DEGRADED port tries its missing group again. -/
def execBrimGroupRetry (port : Port) (locks : Bool) (s : State) : Out :=
  if s.bState port ≠ bDEGRADED then .next s
  else
    let s := s.atWt ((s.bp port).groupAt + 1000000000)
    if s.bGroupOk port locks then .next (s.bTrained port 3)
    else .next (s.setBp port { s.bp port with groupAt := s.clk.wt })

/-- BRIM_STOPPING_END (R340): when everything queued has been sent and acknowledged, or 100 µs after the beginning. -/
def execBrimStoppingEnd (port : Port) (s : State) : Out :=
  if s.bState port ≠ bSTOPPING then .next s
  else
    let x := s.bp port
    let s := if x.txq = [] ∧ x.replay = [] then s else s.atWt (x.stopAt + 100000)
    .next (s.bLower port)

/-! ## Flits and frames (R341 to R348) -/

/-- BRIM_DATA_FLIT (R346). -/
def execBrimDataFlit (port : Port) (flit : BrimFlit) (s : State) : Out := .next (s.bFlit port flit true)

/-- BRIM_IDLE_FLIT (R342). -/
def execBrimIdleFlit (port : Port) (flit : BrimFlit) (s : State) : Out := .next (s.bFlit port flit false)

/-- BRIM_PEER_FLIT (R339): in training the peer's id, port, mode and, in native mode, its initial credits. -/
def execBrimPeerFlit (port : Port) (msg : PeerMsg) (s : State) : Out :=
  if s.bState port ≠ bTRAINING then .next s
  else
    let x := s.bp port
    let s := s.setBp port { x with peerGot := true, credQ := msg.crq, credS := msg.crs }
    let s := (s.fset F.BRIM_PEER_MID msg.mid port).fset F.BRIM_PEER_PORT msg.port port
    .next ((s.fset F.BRIM_PEER_MODE (b2n msg.ether) port).fset F.BRIM_PEER_VALID 1 port)

/-- BRIM_REPLAY_TIMEOUT (R346): 2 µs without progress. -/
def execBrimReplayTimeout (port : Port) (s : State) : Out :=
  let x := s.bp port
  if !s.bListens port false ∨ x.replay = [] then .next s
  else .next ((s.atWt (x.progress + 2000)).bResend port)

/-- BRIM_FRAME_RECEIVE (R337, R348): whether the check sequence is right, the codewords corrected and uncorrectable. -/
def execBrimFrameReceive (port : Port) (good : Bool) (corr uncorr : Nat) (etype : BitVec 16) (packet : BrimPkt) (s : State) :
    Out :=
  if !s.bListens port true then .next s
  else
    let s := if corr = 0 then s else s.count .BRIM_FEC_CORR corr port
    let s := if uncorr = 0 then s else s.count .BRIM_FEC_UNCORR uncorr port
    if !good ∨ uncorr ≠ 0 ∨ etype.toNat ≠ s.fget F.BRIM_ETH_ETYPE port then .next (s.bFrameDrop port)
    else .next (s.bArrive port packet)

/-- PFC_PAUSE_FRAME (R348): times in quanta of 512 bit times of a 1.6 Tb/s interface (IEEE 802.1Qbb), 0 to resume. -/
def execPfcPauseFrame (port : Port) (iface : Bool) (enables : BitVec 8) (times : List (BitVec 16)) (s : State) : Out :=
  if !s.bListens port true then .next s
  else
    let one := fun (s : State) (k : Nat) =>
      if !enables.getLsbD k then s
      else
        let x := s.bp port
        let q := (times.getD k 0).toNat
        s.setBp port { x with
          pause := mput 0 x.pause (8 * b2n iface + k) (if q = 0 then 0 else s.clk.wt + (8 * q + 24) / 25) }
    .next (one (one s (s.fget F.BRIM_ETH_PCP_REQ port)) (s.fget F.BRIM_ETH_PCP_RSP port))

/-- BRIM_PACKET_TRANSMIT (R368). -/
def execBrimPacketTransmit (port : Port) (s : State) : Out := .next (s.bTransmit port)

/-! ## Requests of this module (R353, R356 to R366) -/

/-- BRIM_REQUEST_QUEUE (R363): a fabric request at a port. -/
def execBrimRequestQueue (port : Port) (packet : Packet) (s : State) : Out :=
  if !brimTakes packet then .next s
  else
    let s := s.take packet (.rim (destBrim port))
    .next (s.bRequest { port := port, req := some packet, pkt := s.bOfFabric packet })

/-- REMOTE_TAG_TIMEOUT (R364). -/
def execRemoteTagTimeout (tag : Fin 16384) (s : State) : Out :=
  match s.brim.reqs.find? (fun r => r.tag == tag.val) with
  | none => .next s
  | some r => .next ((s.atWt r.deadline).bTimeout r)

/-- TAG_COOL_END (R365): a request that waits for a tag is then queued (R363). -/
def execTagCoolEnd (tag : Fin 16384) (s : State) : Out :=
  match s.brim.cooling.find? (fun c => c.1 == tag.val) with
  | none => .next s
  | some c =>
    let s := s.atWt c.2
    let m := s.brim
    let s := { s with brim := { m with cooling := m.cooling.erase c, freed := m.freed ++ [c.1], wait := m.wait.drop 1 } }
    .next (match m.wait.head? with
      | none => s
      | some r => s.bRequest r)

/-- RED_TO_RACC (R381, R382): a RED for another module at a port. -/
def execRedToRacc (port : Port) (packet : Packet) (s : State) : Out :=
  if packet.typ ≠ Packet.RED then .next s
  else
    let s := s.take packet (.rim (destBrim port))
    match s.redBad packet with
    | some r =>
      let s := s.raiseLim 0x8005 kMODULE 0 (r + s.ownId * 2 ^ 16)
      .next (s.rimSend (packetReply packet Packet.WACK stREFUSED) s.clk.tb)
    | none =>
      let ack := packetReply packet Packet.WACK stOK
      let rs := (s.redRaccs packet).map fun b =>
        ({ port := port, req := none, pkt := b, ack := if bit b.tspec 6 then none else some ack } : BrimReq)
      .next (rs.foldl (fun s r => s.bRequest r) s)

/-! ## Received packets (R353, R358, R366, R385) -/

/-- BRIM_WR (R353). -/
def execBrimWr (port : Port) (packet : BrimPkt) (s : State) : Out :=
  .next (if packet.typ = Packet.WR then s.bReceive port packet (·.bServe port packet) else s)

/-- BRIM_RD (R353). -/
def execBrimRd (port : Port) (packet : BrimPkt) (s : State) : Out :=
  .next (if packet.typ = Packet.RD then s.bReceive port packet (·.bServe port packet) else s)

/-- BRIM_REGRD (R353). -/
def execBrimRegrd (port : Port) (packet : BrimPkt) (s : State) : Out :=
  .next (if packet.typ = Packet.REGRD then s.bReceive port packet (·.bServe port packet) else s)

/-- BRIM_REGWR (R353). -/
def execBrimRegwr (port : Port) (packet : BrimPkt) (s : State) : Out :=
  .next (if packet.typ = Packet.REGWR then s.bReceive port packet (·.bServe port packet) else s)

/-- BRIM_RACC (R385). -/
def execBrimRacc (port : Port) (packet : BrimPkt) (s : State) : Out :=
  .next (if packet.typ = BrimPkt.RACC then s.bReceive port packet (·.bServeRacc port packet) else s)

/-- BRIM_RDR (R366). -/
def execBrimRdr (port : Port) (packet : BrimPkt) (s : State) : Out :=
  .next (if packet.typ = Packet.RDR then s.bResponse port packet else s)

/-- BRIM_WACK (R366). -/
def execBrimWack (port : Port) (packet : BrimPkt) (s : State) : Out :=
  .next (if packet.typ = Packet.WACK then s.bResponse port packet else s)

/-- BRIM_REGR (R366). -/
def execBrimRegr (port : Port) (packet : BrimPkt) (s : State) : Out :=
  .next (if packet.typ = Packet.REGR then s.bResponse port packet else s)

/-! ## Flows, time -/

/-- BRIM_FLOW_WRITE (R15, R369): fields with a reserved encoding keep their value. -/
def execBrimFlowWrite (port : Port) (flow : Fin 256) (value : BitVec 32) (s : State) : Out :=
  let v := value.toNat
  let rate := bits v 17 8
  let burst := bits v 7 0
  .next (s.bFlowWrite port flow (bit v 31) (if 900 < rate then s.fget F.BRIM_FLOW_RATE port flow else rate)
    (if burst < 4 then s.fget F.BRIM_FLOW_BURST port flow else burst))

/-- TIME_EXCHANGE_START (R371, R372): PERIOD_MS after the one before; an exchange that has not completed is missing. -/
def execTimeExchangeStart (s : State) : Out :=
  if s.flag F.BRIM_TIME_ROOT then .next s
  else
    let x := s.brim.time
    let s := s.atWt (x.start + 1000000 * s.fget F.BRIM_TIME_PERIOD_MS)
    let miss := if x.busy then x.missed + 1 else x.missed
    let x := { x with
      t1 := some s.clk.wt, t2 := none, t3 := none, t4 := none, start := s.clk.wt, missed := miss
      good := if x.busy then 0 else x.good, busy := true, sent := [s.clk.wt] }
    let s := s.setTime x
    if s.fget F.BRIM_TIME_STATE = tiLOCKED ∧ miss = 4 then
      .next ((s.fset F.BRIM_TIME_STATE tiHOLDOVER).raise 0x700C kMODULE 0 0)
    else .next s

/-- BRIM_TIME_FLIT (R371): a request is answered with t1, t2 and t3; the reply to the exchange in progress completes it. -/
def execBrimTimeFlit (port : Port) (reply : Bool) (t1 t2 t3 : Nat) (s : State) : Out :=
  if !s.bListens port false then .next s
  else
    let x := s.brim.time
    if !reply then .next (s.setTime { x with sent := [t1, s.clk.wt, s.clk.wt] })
    else if port.val = s.fget F.BRIM_TIME_UP_PORT ∧ x.busy ∧ x.t1 = some t1 then
      .next (s.setTime { x with t2 := some t2, t3 := some t3, t4 := some s.clk.wt }).timeTest
    else .next s

/-- PTP_MESSAGE (R371): under the end-to-end delay mechanism t1 is when Delay_Req left, t2 what Delay_Resp carries, t3 what
Follow_Up carries, t4 when Sync came. The upstream module answers a Delay_Req. -/
def execPtpMessage (port : Port) (msg : PtpMsg) (s : State) : Out :=
  if !s.bListens port true ∨ msg.domain ≠ s.fget F.BRIM_ETH_PTP_DOMAIN port then .next s
  else
    let x := s.brim.time
    let up := decide (port.val = s.fget F.BRIM_TIME_UP_PORT) && x.busy
    match msg.kind.val with
    | 0 => .next (if up then (s.setTime { x with t4 := some s.clk.wt }).timeTest else s)
    | 1 => .next (if up then (s.setTime { x with t3 := some msg.stamp }).timeTest else s)
    | 2 => .next (s.setTime { x with sent := [s.clk.wt] })
    | _ => .next (if up then (s.setTime { x with t2 := some msg.stamp }).timeTest else s)

end Sys2Proof.Machine
end

