-- ==== Sys2Proof/Machine/Tracts.lean ====
section
/-! DEFINITION. Tracts, barriers, commit and rerun (05): the operations, and the meanings of the commands that need no other
unit. -/

namespace Sys2Proof.Machine
open Sys2Proof

/-! ## Validation and states of a slot (R190 to R194) -/

/-- Do two slots' rectangles overlap (R37)? -/
def State.rectsMeet (s : State) (t u : Nat) : Bool :=
  let r0 := s.fget F.TRACT_ORIGIN_ROW t
  let c0 := s.fget F.TRACT_ORIGIN_COL t
  let r1 := s.fget F.TRACT_ORIGIN_ROW u
  let c1 := s.fget F.TRACT_ORIGIN_COL u
  decide (r0 < r1 + s.fget F.TRACT_SIZE_ROW u ∧ r1 < r0 + s.fget F.TRACT_SIZE_ROW t
    ∧ c0 < c1 + s.fget F.TRACT_SIZE_COL u ∧ c1 < c0 + s.fget F.TRACT_SIZE_COL t)

def swapImage : Nat := 0x54_0000
def State.tractCount (s : State) (t : Nat) : Nat := s.fget F.TRACT_SIZE_ROW t * s.fget F.TRACT_SIZE_COL t
def State.swapBase (s : State) (t : Nat) : Nat := s.fget F.TRACT_SWAP_BASE_BASE t * 4096

/-- Tag windows of a slot in use: first line, length, consumer. -/
def State.windows (s : State) (t : Nat) : List (Nat × Nat × Nat) :=
  ((List.range 8).map fun w =>
    (s.fget F.TRACT_TWIN_BASE_LINE t w, s.fget F.TRACT_TWIN_LEN_LEN t w, s.fget F.TRACT_TWIN_LEN_CONS t w)).filter (·.2.1 != 0)

/-- The reason for which a FREE slot fails its validation (R190). -/
def State.tractBad (s : State) (t : Nat) : Option Nat :=
  let r0 := s.fget F.TRACT_ORIGIN_ROW t
  let c0 := s.fget F.TRACT_ORIGIN_COL t
  let nr := s.fget F.TRACT_SIZE_ROW t
  let nc := s.fget F.TRACT_SIZE_COL t
  let ws := s.windows t
  let apart := fun (i : Nat) =>
    let a := ws.getD i (0, 0, 0)
    (List.range i).all fun j =>
      let b := ws.getD j (0, 0, 0)
      decide (a.1 + a.2.1 ≤ b.1 ∨ b.1 + b.2.1 ≤ a.1)
  if nr = 0 ∨ nc = 0 ∨ 120 < r0 + nr ∨ 150 < c0 + nc then some 1
  else if (List.range 16).any (fun u => u != t && s.tstate u != tFREE && s.rectsMeet t u) then some 2
  else if s.fget F.TRACT_MODE_TAGMODE t = 1 ∧ 2048 < nr * nc then some 3
  else if (s.tractCores t).any s.unusable then some 4
  else if !s.inStacks (s.swapBase t) (nr * nc * swapImage)
      || decide (81919 < s.fget F.TRACT_CODE_LINE t + s.fget F.TRACT_CODE_LINESM1 t) then some 5
  else if ws.any (fun w => decide (81920 < w.1 + w.2.1) || w.2.2 == 0 || decide (8 ≤ w.2.2))
      || !(List.range ws.length).all apart then some 6
  else if s.fget F.TRACT_MODE_TAGMODE t = 3 then some 7
  else none

/-- LOAD (R190); ignored while CORES_READY is 0 (R475). -/
def State.tractLoad (s : State) (t : Nat) : State :=
  if s.tstate t ≠ tFREE ∨ !s.flag F.PWR_STATUS_CORES_READY then s
  else
    match s.tractBad t with
    | some r => s.raise 0x4005 kTRACT t r
    | none => s.fset F.TRACT_STATUS_STATE tLOADED t

/-- The RW registers of a slot take their Reset values (R201). -/
def State.slotDefaults (s : State) (t : Nat) : State :=
  let s := [RegId.TRACT_CTRL, .TRACT_ORIGIN, .TRACT_SIZE, .TRACT_MODE, .TRACT_ENTRY, .TRACT_SWAP_BASE, .TRACT_CODE].foldl
    (fun s r => s.wr r (r.init 0) t) s
  (List.range 8).foldl (fun s w => (s.wr .TRACT_TWIN_BASE 0 t w).wr .TRACT_TWIN_LEN 0 t w) s

/-- Fields that a slot's rectangle touches. -/
def State.tractFields (s : State) (t : Nat) : List Nat :=
  let r0 := s.fget F.TRACT_ORIGIN_ROW t
  let c0 := s.fget F.TRACT_ORIGIN_COL t
  let r1 := r0 + s.fget F.TRACT_SIZE_ROW t - 1
  let c1 := c0 + s.fget F.TRACT_SIZE_COL t - 1
  (List.range (r1 / 24 + 1 - r0 / 24)).flatMap fun i =>
    (List.range (c1 / 30 + 1 - c0 / 30)).map fun j => (r0 / 24 + i) * 5 + c0 / 30 + j

/-- Is every field that the slot touches ACTIVE? -/
def State.fieldsActive (s : State) (t : Nat) : Bool := (s.tractFields t).all fun f => s.fget F.FLD_STATUS_STATE f == 0

/-- A slot is to be released SLACK from now (R192). -/
def State.scheduleRel (s : State) (t : Nat) (rerun first : Bool) : State :=
  let x := s.tract t
  s.setTract t { x with
    rel := some { tb := upTo 4 (s.clk.tb + s.slack t), rerun := rerun, first := first, step := x.keptStep && !first } }

/-- ENABLE = 1 in STOPPED, or a stop that ends with ENABLE_PENDING (R192, R193). -/
def State.tractResume (s : State) (t : Nat) : State :=
  if s.fieldsActive t then s.scheduleRel t (s.tract t).kept false else s.fset F.TRACT_STATUS_STATE tSUSPENDED t

/-- A write of TRACT_CTRL.ENABLE = 1 (R192). A LOADED slot whose fields are not all ACTIVE waits for them (R487). -/
def State.tractOn (s : State) (t : Nat) : State :=
  let s := s.fset F.TRACT_CTRL_ENABLE 1 t
  let st := s.tstate t
  if st = tLOADED then
    let x := s.tract t
    if s.fieldsActive t ∧ x.rel.isNone then s.setTract t { x with filling := true } else s
  else if st = tSTOPPED then (if (s.tract t).rel.isSome then s else s.tractResume t)
  else if st = tSTOPPING then s.fset F.TRACT_STATUS_ENABLE_PENDING 1 t
  else s

/-- A write of TRACT_CTRL.ENABLE = 0 (R192, R193); a release that an enable has scheduled does not take place. -/
def State.tractOff (s : State) (t : Nat) : State :=
  let s := s.fset F.TRACT_CTRL_ENABLE 0 t
  let s := { s with pwr := { s.pwr with wakeSlots := s.pwr.wakeSlots.filter (· != t) } }
  let st := s.tstate t
  let x := s.tract t
  if st = tRUNNING then s.fset F.TRACT_STATUS_STATE tSTOPPING t
  else if st = tSTOPPING then s.fset F.TRACT_STATUS_ENABLE_PENDING 0 t
  else if st = tSUSPENDED then s.fset F.TRACT_STATUS_STATE tSTOPPED t
  else if st = tLOADED ∨ st = tSTOPPED then s.setTract t { x with rel := none, filling := false }
  else s

/-- TRACT_LOAD (R190). -/
def execTractLoad (slot : Slot) (s : State) : Out := .next (s.tractLoad slot)

/-- TRACT_DISABLE (R192, R193). -/
def execTractDisable (slot : Slot) (s : State) : Out := .next (s.tractOff slot)

/-- TRACT_CODE_FILL_COMPLETE (R192): every core's instruction store holds the code lines, and the release is scheduled. -/
def execTractCodeFillComplete (slot : Slot) (s : State) : Out :=
  let x := s.tract slot
  if !x.filling then .next s
  else
    let line := s.fget F.TRACT_CODE_LINE slot
    let n := s.fget F.TRACT_CODE_LINESM1 slot + 1
    let s := (s.tractCores slot).foldl (fun s c => s.ifill c line n 0) s
    .next ((s.setTract slot { x with filling := false }).scheduleRel slot false true)

/-! ## Barriers (R177 to R180, R245) -/

/-- Has every operation that R177 waits for completed in core c? -/
def State.quiet (s : State) (c : Nat) : Bool :=
  let e := s.core c
  let m := s.mxc c
  let v := s.vxc c
  let f := s.fb c
  e.mq == [] && e.vq == [] && e.sq == [] && m.passes == [] && m.loads == [] && m.drains == [] && v.chains == []
    && v.loads == [] && v.drains == [] && v.docWait == [] && (s.stpc c).saves == []
    && decide (f.wrOut = 0) && !(f.ops.any fun o => o.op != 3)

/-- BARRIER_ARRIVAL (R177): the arrival reaches the core's own router 2 NCLK after the core's port presents it (R238). -/
def execBarrierArrival (core : Core) (s : State) : Out :=
  let e := s.core core
  match e.wait with
  | .bar kind =>
    if e.barIn.isSome || !s.quiet core then .next s
    else .next (s.setCore core { e with barIn := some ⟨upTo 2 s.clk.tb + 4, kind, e.rerun != 0, false⟩ })
  | _ => .next s

/-- Routers beyond core c in the tree of slot t: those that send to it (R245). -/
def State.treeBeyond (s : State) (t c : Nat) : List Nat :=
  let r0 := s.fget F.TRACT_ORIGIN_ROW t
  let c0 := s.fget F.TRACT_ORIGIN_COL t
  (if c % 150 + 1 < c0 + s.fget F.TRACT_SIZE_COL t then [c + 1] else [])
    ++ (if c % 150 = c0 ∧ c / 150 + 1 < r0 + s.fget F.TRACT_SIZE_ROW t then [c + 150] else [])

/-- Arrivals merged (R178, R245). -/
def BarRec.merge (a b : BarRec) : BarRec := ⟨max a.tb b.tb, a.kind, a.vote || b.vote, a.mixed || b.mixed || a.kind != b.kind⟩

/-- The root holds every arrival at T (R178, R180, R183): the outcome. -/
def State.rootComplete (s : State) (t root : Nat) (b : BarRec) : State :=
  let x := s.tract t
  let s := s.setTract t { x with rootT := some b.tb }
  if b.mixed then s.slotFault t root 0x06 0
  else if b.vote ∧ s.fget F.TRACT_RERUN_COUNT t = 3 then s.slotFault t root 0x07 0
  else
    let x := s.tract t
    if !b.vote ∧ b.kind = 1 then s.setTract t { x with stepHeld := true }
    else s.setTract t { x with rel := some { tb := upTo 4 (b.tb + s.slack t), rerun := b.vote, barrier := true, sent := b.tb } }

/-- BAR_PACKET_FORWARD (R178, R245): the router of a core that holds its own arrival and those from beyond; the root's
router completes the barrier. -/
def execBarPacketForward (core : Core) (s : State) : Out :=
  match s.slotOf core with
  | none => .next s
  | some t =>
    let e := s.core core
    let beyond := (s.treeBeyond t core).map fun d => (s.core d).barOut
    match e.barIn with
    | none => .next s
    | some own =>
      if e.barOut.isSome || beyond.any (·.isNone) || !s.running core then .next s
      else
        let b := beyond.foldl (fun a o => match o with | some x => a.merge x | none => a) own
        let s := s.atTb b.tb
        let s := s.setCore core { e with barOut := some { b with tb := b.tb + 4 } }
        if core.val = s.rootOf t then .next (s.rootComplete t core b) else .next s

/-- BREL_RECEIVE (R179, R245): the core takes its release ACLK; a release that comes later than 4 ACLK before it moves the
core's SEG_BASE, raises BARRIER_SKEW and latches a rerun of the segment to come. -/
def execBrelReceive (core : Core) (s : State) : Out :=
  match s.slotOf core with
  | none => .next s
  | some t =>
    match (s.tract t).rel with
    | none => .next s
    | some r =>
      let e := s.core core
      if !r.barrier || e.brel.isSome then .next s
      else
        let hops := core.val / 150 - s.fget F.TRACT_ORIGIN_ROW t + (core.val % 150 - s.fget F.TRACT_ORIGIN_COL t)
        let s := s.atTb (r.sent + 4 * hops + 4)
        let now := s.clk.tb
        if now + 4 ≤ r.tb then .next (s.setCore core { e with brel := some (r.tb, r.rerun) })
        else
          let s := s.setCore core { e with brel := some (upTo 4 (now + 4), r.rerun), skew := true }
          .next (s.raiseLim 0x4003 kCORE core r.tb)

/-- BARRIER_TIMEOUT (R8, R179): the barrier of the segment is not complete at the root when TRACT_BAR_TIMEOUT has passed. -/
def execBarrierTimeout (slot : Slot) (s : State) : Out :=
  let x := s.tract slot
  if !(s.tstate slot == tRUNNING || s.tstate slot == tSTOPPING) || x.rootT.isSome then .next s
  else
    let s := s.atWt (x.relWt + x.barMs * 1000000 + 1)
    let root := s.rootOf slot
    let r0 := root / 150
    let held := fun c : Nat =>
      if c = root then (s.core c).barIn.isSome
      else
        let last := if c / 150 = r0 then root + 1 else root + 150
        (s.core last).barOut.isSome
    let first := ((s.tractCores slot).find? (fun c => !held c)).getD root
    .next (s.slotFault slot first 0x05 0)

/-- TAG_BLOCK_TIMEOUT (R8, R187): an access of a port at a bank has been blocked for longer than TRACT_TAG_TIMEOUT. -/
def execTagBlockTimeout (core : Core) (port : Fin 16) (bank : Fin 32) (s : State) : Out :=
  let since := mget 0 (s.spCore core).blocked (port.val * 32 + bank.val)
  match s.slotOf core with
  | none => .next s
  | some t =>
    if since = 0 ∨ s.fget F.TRACT_MODE_TAGMODE t ≠ 1 then .next s
    else .next ((s.atWt (since - 1 + (s.tract t).tagUs * 1000 + 1)).tractFault core 0x08)

/-! ## Commit, rerun, the beginning of a segment (R176, R182, R183, R188, R189) -/

/-- Change the tags of the lines in a slot's windows, in its cores. -/
def State.mapTags (s : State) (t : Nat) (f : Nat → Nat) : State :=
  let ws := s.windows t
  let hit := fun k : Nat =>
    match s.logical (k / spLines) with
    | none => false
    | some c => s.inRect t c && ws.any (fun w => decide (w.1 ≤ k % spLines ∧ k % spLines < w.1 + w.2.1))
  { s with spTag := (s.spTag.map fun p => if hit p.1 then (p.1, f p.2) else p).filter (·.2 != 0) }

/-- The stream port of a core at a commit (R308, R313) and at a step boundary (R312, R333). -/
def State.stpCommit (s : State) (c : Nat) (step : Bool) : State :=
  let x := s.stpc c
  let s := match x.topNext with
    | some top => s.fset F.STP_SAVE_TOP_ADDR (top / 64) c
    | none => s
  let s := if x.bytesNext = 0 then s else s.count .STP_SAVED_BYTES x.bytesNext c
  let x := { x with topNext := none, bytesNext := 0, pfCount := [] }
  if !step then s.setStp c x
  else
    let base := s.fget F.STP_SAVE_BASE_ADDR c * 64
    let x := { x with
      base := base, limit := s.fget F.STP_SAVE_LIMIT_ADDR c * 64, pfCfg := (s.rd .STP_PF_CFG c).toNat
      pfBuf := (s.rd .STP_PF_BUF c).toNat, recs := x.recs.filter (fun r => r.stage == 2), rec0 := x.nextRec }
    let s := s.setStp c x
    ((s.fset F.STP_SAVE_TOP_ADDR (base / 64) c).fset F.STP_STATUS_PF_ACTIVE 0 c).fset F.STP_STATUS_PF_DONE 0 c

/-- What a completed barrier does whether or not the tract goes on (R171, R178, R182, R188). -/
def State.barrierDone (s : State) (t : Nat) (r : Rel) : State :=
  let x := s.tract t
  let rd := (s.rd .TRACT_AUDIT_RD t).toNat
  let wr := (s.rd .TRACT_AUDIT_WR t).toNat
  let dr := min (rd - x.audRd) 0xFFFF_FFFF
  let dw := min (wr - x.audWr) 0xFFFF_FFFF
  let s := if s.fget F.TRACT_MODE_TAGMODE t = 2 ∧ (dr ≠ 0 ∨ dw ≠ 0) then s.raise 0x4004 kTRACT t (dr + dw * 2 ^ 32) else s
  let s := s.setTract t { x with audRd := rd, audWr := wr, rootT := none, stepHeld := false, kept := r.rerun }
  if r.rerun then
    (s.tractCores t).foldl (fun s c => let e := s.core c; s.setCore c { e with defq := [] }) s
  else
    let s := (s.count .TRACT_SEG 1 t).fset F.TRACT_RERUN_COUNT 0 t
    let s := s.mapTags t (fun v => if bit v 0 then 3 else 0)
    (s.tractCores t).foldl (fun s c =>
      let e := s.core c
      let rel := (e.defq.zip (List.range e.defq.length)).map fun b => { b.1 with rel := r.tb + b.2 }
      (s.setCore c { e with defq := [], defRel := e.defRel ++ rel }).stpCommit c r.step) s

/-- One core restores its state for a rerun (R104, R109, R147, R154, R182, R313). -/
def State.coreRestore (s : State) (c : Nat) : State :=
  let e := s.core c
  let p := (s.stpc c).pfCount
  let s := (List.range 64).foldl (fun s n =>
    s.fset F.EP_ARRIVE_COUNT ((mget 0 e.snap.ctr n + mget 0 e.ext n + mget 0 p n) % 2 ^ 32) c n) s
  let s := s.setCore c { e with g := e.snap.g, mq := [], vq := [], sq := [], defq := [], stores := [] }
  let s := s.fset F.EP_STATUS_PC e.snap.pc c
  let s := ((s.mxClear c).vxClear c).spEngineClear c
  let s := (s.fset F.MX_SR_SEQ_VALUE e.snap.srSeq c).fset F.VX_RNG_SEQ_VALUE e.snap.rngSeq c
  let x := s.stpc c
  s.setStp c { x with topNext := none, bytesNext := 0, saves := [], pfCount := [] }

/-- One core begins a segment at its SEG_BASE (R176, R182). -/
def State.coreBegin (s : State) (c : Nat) (tb : Nat) : State :=
  let e := s.core c
  let base := match e.brel with
    | some (b, _) => b
    | none => tb
  let ctr := (List.range 64).foldl (fun m n => mput 0 m n (s.fget F.EP_ARRIVE_COUNT c n)) []
  let snap : EpSnap := {
    g := e.g, pc := s.pc c, ctr := ctr, srSeq := s.fget F.MX_SR_SEQ_VALUE c, rngSeq := s.fget F.VX_RNG_SEQ_VALUE c }
  let d := (e.defRel.filter (fun b => decide (tb ≤ b.rel))).length
  let s := s.setCore c { e with
    next := base, ready := [], lastTs := [], lastRel := [], srFree := tb + d, wait := .none, sat := none, segBase := base
    snap := snap, ext := [], rerun := if e.skew then 16 else 0, barIn := none, barOut := none, brel := none, skew := false }
  ((s.setEpState c epRUN).newSegment kCORE c).planTake c

/-- The release of a slot (R176, R182, R183, R189, R192): every core begins the segment, or the one to be rerun. -/
def State.segStart (s : State) (t : Nat) (r : Rel) : State :=
  let cores := s.tractCores t
  let s :=
    if r.first then
      let s := (s.wr .TRACT_SEG 0 t).fset F.TRACT_RERUN_COUNT 0 t
      let s := s.mapTags t (fun _ => 0)
      cores.foldl (fun s c =>
        let e := s.core c
        (s.setCore c { e with g := [] }).fset F.EP_STATUS_PC (s.fget F.TRACT_ENTRY_PC t) c) s
    else if r.rerun then
      let causes := cores.foldl (fun a c => a ||| (s.core c).rerun) 0
      let n := s.fget F.TRACT_RERUN_COUNT t + 1
      let s := ((s.fset F.TRACT_RERUN_COUNT n t).fset F.TRACT_RERUN_CAUSE causes t).count .TRACT_RERUNS 1 t
      let s := s.raise 0x4002 kTRACT t (causes + n * 2 ^ 8 + (s.rd .TRACT_SEG t).toNat % 2 ^ 48 * 2 ^ 16)
      let s := s.mapTags t (fun v => if bit v 1 then 3 else 0)
      cores.foldl State.coreRestore s
    else s
  let s := cores.foldl (fun s c => s.coreBegin c r.tb) s
  let s := ((s.wr .TRACT_SEG_BASE (BitVec.ofNat 64 r.tb) t).fset F.TRACT_STATUS_STATE tRUNNING t).newSegment kTRACT t
  let x := s.tract t
  s.setTract t { x with
    relWt := s.clk.wt, rel := none, rootT := none, kept := false, keptStep := false
    tagUs := s.fget F.TRACT_TAG_TIMEOUT_US t, barMs := s.fget F.TRACT_BAR_TIMEOUT_MS t }

/-- The release to come of a slot, at its ACLK: a barrier's commit or rerun; then a stop, a park or the next segment (R176,
R192, R193). The state, and whether a segment has begun. -/
def State.tractRelease (s : State) (t : Nat) (r : Rel) : State × Bool :=
  let s := s.atTb r.tb
  let s := if r.barrier then s.barrierDone t r else s
  let x := s.tract t
  let hold := fun (s : State) (st : Nat) =>
    let s := (s.tractCores t).foldl (fun s c =>
      let e := s.core c
      (s.setCore c { e with brel := none, skew := false }).setEpState c epIDLE) s
    let s := { s with pwr := { s.pwr with idleAt := s.clk.wt } }
    (s.setTract t { x with rel := none, kept := r.rerun, keptStep := r.step }).fset F.TRACT_STATUS_STATE st t
  if s.tstate t = tSTOPPING then
    let s := (hold s tSTOPPED).fset F.TRACT_STATUS_PARK_PENDING 0 t
    if s.flag F.TRACT_STATUS_ENABLE_PENDING t then ((s.fset F.TRACT_STATUS_ENABLE_PENDING 0 t).tractResume t, false)
    else (s, false)
  else if !s.fieldsActive t then ((hold s tSUSPENDED).fset F.TRACT_STATUS_PARK_PENDING 0 t, false)
  else (s.segStart t r, true)

end Sys2Proof.Machine
end

