-- ==== Sys2Proof/Machine/PowerOps.lean ====
section
/-! DEFINITION. Operations of the power ladder, of parking and of the trip (14). -/

namespace Sys2Proof.Machine
open Sys2Proof

/-- The power states (R468). -/
def pBOIL : Nat := 0
def pSIMMER : Nat := 1
def pSTEEP : Nat := 2
def pCELLAR : Nat := 3

def State.pState (s : State) : Nat := s.fget F.PWR_STATUS_STATE
def State.pTarget (s : State) : Nat := s.fget F.PWR_CTRL_TARGET

/-- Is a tract slot RUNNING or STOPPING? -/
def State.anyRunning (s : State) : Bool := (List.range 16).any fun t => s.tstate t == tRUNNING || s.tstate t == tSTOPPING

/-- Does a core's stream port have an operation or a prefetch write in flight (R469)? -/
def Stp.inFlight (x : Stp) : Bool := !x.saves.isEmpty || x.recs.any fun r => r.stage == 2

/-- Entry condition of rung n (R469). -/
def State.rungReady (s : State) (n : Nat) : Bool :=
  if n = pSIMMER then !s.anyRunning
  else if n = pSTEEP then
    !s.anyRunning && !(s.stp.any fun x => x.2.inFlight)
      && (List.range 32).all fun i => s.gsState i == gsDISABLED || s.gsState i == gsFAULT
  else
    (List.range 16).all (fun t => s.tstate t == tFREE) && (s.rkState == rkDISABLED || s.rkState == rkIDLE)
      && (List.range 1024).all fun w => s.winState w == wDISABLED || s.winState w == wARMED || s.winState w == wCLOSED

/-- A descent goes on: PWR_STATUS.WAITING shows whether it waits for the next rung's condition (R469). -/
def State.descend (s : State) : State :=
  if s.pwr.move.isSome then s
  else s.fset F.PWR_STATUS_WAITING (b2n (decide (s.pState < s.pTarget) && !s.rungReady (s.pState + 1)))

/-- Entering or leaving a rung begins. -/
def State.moveBegin (s : State) (exit_ : Bool) : State :=
  let s := { s with pwr := { s.pwr with move := some (exit_, s.clk.wt) } }
  (s.fset F.PWR_STATUS_MOVING 1).fset F.PWR_STATUS_WAITING 0

/-- A wake (R470): the exit begins, or is remembered until the rung being entered is reached. -/
def State.wake (s : State) : State :=
  match s.pwr.move with
  | some (false, _) => s.fset F.PWR_STATUS_WAKE_PENDING 1
  | some (true, _) => s
  | none => if s.pState = pBOIL then s.fset F.PWR_STATUS_WAITING 0 else s.moveBegin true

/-- A write of PWR_CTRL.TARGET (R469, R470). A write of the state in force, or of a higher one that is not Boil, starts nothing. -/
def State.powerTarget (s : State) (t : Nat) : State :=
  let s := s.fset F.PWR_CTRL_TARGET t
  if t = pBOIL then s.wake
  else
    let s := if s.pState < t ∧ s.flag F.PWR_STATUS_WAKE_PENDING then s.fset F.PWR_STATUS_WAKE_PENDING 0 else s
    s.descend

/-- ENABLE = 1 written to a slot (R192, R470): in Simmer, in Steep or while one is being entered it is a wake, and during an exit
the slot waits for Boil; else the slot is enabled. -/
def State.tractEnable (s : State) (t : Nat) : State :=
  let st := s.tstate t
  let acts := st == tLOADED || st == tSTOPPED || st == tSUSPENDED
  let low := s.pState == pSIMMER || s.pState == pSTEEP || s.pwr.move.isSome
  if !acts || !low then s.tractOn t
  else
    let s := (s.fset F.TRACT_CTRL_ENABLE 1 t).fset F.PWR_CTRL_TARGET pBOIL
    { s with pwr := { s.pwr with wakeSlots := s.pwr.wakeSlots.filter (· != t) ++ [t] } }.wake

/-! ## Retention (R473, R484) -/

/-- Cores that p selects come back from retention (R473): g1 to g31, PC, the SEG_BASE offset, the arrival counters and the state of
the last barrier are restored; the other registers take the values of a core reset. -/
def State.coresRestore (s : State) (p : Nat → Bool) : State :=
  let keep := fun (e : Epru) => ({ g := e.g, istore := e.istore, segBase := e.segBase, snap := e.snap, ext := e.ext } : Epru)
  let stay := fun (x : Stp) => ({ nextId := x.nextId, nextRec := x.nextRec, rec0 := x.nextRec } : Stp)
  let s := (s.spc.filter fun e => p e.1).foldl (fun s e => s.spEngineClear e.1) s
  let s := { s with
    ep := s.ep.map fun (e : Nat × Epru) => if p e.1 then (e.1, keep e.2) else e
    mx := s.mx.filter fun (e : Nat × Mx) => !p e.1
    vx := s.vx.filter fun (e : Nat × Vx) => !p e.1
    stp := s.stp.map fun (e : Nat × Stp) => if p e.1 then (e.1, stay e.2) else e }
  let s := s.resetRegs false fun (r : RegRef) => coreBlock r.blk && p r.i && r.id != RegId.EP_ARRIVE && r.id != RegId.EP_STATUS
  (List.range 18000).foldl (fun s c => if p c && s.epState c != epIDLE then s.setEpState c epIDLE else s) s

/-! ## Cellar (R474, R475) -/

/-- Entry: every port that is TRAINING, UP or DEGRADED and every ENABLED stack stops; both keep their ENABLE. -/
def State.cellarEnter (s : State) : State :=
  let s := s.fset F.PWR_STATUS_CORES_READY 0
  let s := (List.range 6).foldl (fun s p =>
    let st := s.bState p
    if st = bTRAINING ∨ st = bUP ∨ st = bDEGRADED then
      (let s := if st = bTRAINING then s else s.bDown p 1
       (s.setBp p { s.bp p with stopAt := s.clk.wt }).setBState p bSTOPPING)
    else s) s
  (List.range 24).foldl (fun s st => if s.hState st = hENABLED then s.fset F.HBMC_STATUS_STATE hSTOPPING st else s) s

/-- The links are lowered and the stacks stopped as far as they can be. -/
def State.cellarStop (s : State) : State :=
  let s := (List.range 6).foldl (fun s p => if s.bState p = bSTOPPING then s.bLower p else s) s
  (List.range 24).foldl (fun s st => s.hbmStopEnd st) s

/-- Is every port and every stack out of STOPPING? -/
def State.cellarQuiet (s : State) : Bool :=
  (List.range 6).all (fun p => s.bState p != bSTOPPING) && (List.range 24).all (fun st => s.hState st != hSTOPPING)

/-- ACLK edges end at a frame boundary, and the transit and core domains are powered off with the scratchpads, whose bytes are then
those of a memory that nothing has written (R474, R475; log entry 16). -/
def State.cellarOff (s : State) : State :=
  let s := s.atCyc (upTo 16 s.clk.cyc)
  { s with
    clk := { s.clk with run := false }, flights := [], bow := [], bowBus := [], spc := [], fbc := [], ep := [], mx := []
    vx := [], stp := [], sp := [], spCode := [], spTag := [] }.resetRegs false fun (r : RegRef) => coreBlock r.blk || r.blk == Block.FB

/-- Exit: edges are delivered again from a frame boundary, and stacks whose ENABLE is 1 return to ENABLED. -/
def State.cellarUp (s : State) : State :=
  let s := s.atCyc (upTo 16 s.clk.cyc)
  let s := { s with clk := { s.clk with run := true } }
  (List.range 24).foldl (fun s st =>
    if s.hState st = hDISABLED ∧ s.flag F.HBMC_CTRL_ENABLE st then s.fset F.HBMC_STATUS_STATE hENABLED st else s) s

/-- Every port whose ENABLE is 1 begins to train. -/
def State.cellarTrain (s : State) : State :=
  (List.range 6).foldl (fun s p => if s.bState p = bDISABLED ∧ s.flag F.BRIM_CTRL_ENABLE p then s.bTrain p else s) s

/-! ## Parking (R484 to R488) -/

/-- Slots that touch a field and are LOADED or in a later state. -/
def State.fieldSlots (s : State) (f : Nat) : List Nat :=
  (List.range 16).filter fun t => s.tstate t != tFREE && (s.tractFields t).contains f

/-- Is a park cause of a field set? -/
def State.parkCause (s : State) (f : Nat) : Bool := s.flag F.FLD_CTRL_PARK f || s.flag F.FLD_STATUS_HEAT f

/-- What the park of a field does to a slot that touches it (R193, R484, R487). -/
def State.slotPark (s : State) (t : Nat) : State :=
  let st := s.tstate t
  let x := s.tract t
  if st = tRUNNING ∨ st = tSTOPPING then s.fset F.TRACT_STATUS_PARK_PENDING 1 t
  else
    let s := s.setTract t { x with rel := none, filling := false }
    if st = tSTOPPED ∧ x.rel.isSome then s.fset F.TRACT_STATUS_STATE tSUSPENDED t else s

/-- A field enters PARKING (R484). -/
def State.parkStart (s : State) (f : Nat) : State :=
  let s := s.fset F.FLD_STATUS_STATE 1 f
  let s := { s with pwr := { s.pwr with parkTemp := mput 0 s.pwr.parkTemp f (s.fget F.FLD_TEMP_TEMP f) } }
  (s.fieldSlots f).foldl State.slotPark s

/-- A park cause of a field may have changed (R484, R485); `was` says whether one was set before. -/
def State.parkChange (s : State) (f : Nat) (was : Bool) : State :=
  let now := s.parkCause f
  match s.fget F.FLD_STATUS_STATE f with
  | 0 => if now then s.parkStart f else s
  | 1 =>
    if was && !now then s.fset F.FLD_STATUS_UNPARK_PENDING 1 f
    else if !was && now then s.fset F.FLD_STATUS_UNPARK_PENDING 0 f
    else s
  | 2 => if now then s else s.fset F.FLD_STATUS_STATE 3 f
  | _ => s

/-- A slot that waits for its fields, all of which are ACTIVE (R487): a SUSPENDED one is released, an enabled LOADED one starts. -/
def State.slotUnpark (s : State) (t : Nat) : State :=
  let x := s.tract t
  if !s.fieldsActive t ∨ x.rel.isSome then s
  else if s.tstate t = tSUSPENDED then s.scheduleRel t x.kept false
  else if s.tstate t = tLOADED ∧ s.flag F.TRACT_CTRL_ENABLE t then s.setTract t { x with filling := true }
  else s

/-- Slots that wait are tried, in Boil: in a lower state they wait until it is reached again. -/
def State.slotsUnpark (s : State) (ts : List Nat) : State := if s.pState = pBOIL then ts.foldl State.slotUnpark s else s

/-! ## Temperature (R482, R483, R489) -/

/-- Park threshold in quarter degrees (R482). -/
def State.parkAt (s : State) : Int := ((105 : Int) - s.fget F.THERM_PARK_OFS_OFS) * 4

/-- The hottest field, the lowest of those equally hot (R482). -/
def State.hottest (s : State) : Nat :=
  (List.range 25).foldl (fun b f =>
    if toSigned 12 (s.fget F.FLD_TEMP_TEMP b) < toSigned 12 (s.fget F.FLD_TEMP_TEMP f) then f else b) 0

/-- THERM_WARN (R483). -/
def State.warnTest (s : State) (f : Nat) (x : Int) : State :=
  let w := s.parkAt - 40
  if s.flag F.FLD_STATUS_WARN f then (if x ≤ w - 8 then s.fset F.FLD_STATUS_WARN 0 f else s)
  else if w ≤ x then (s.fset F.FLD_STATUS_WARN 1 f).raise 0x9001 kFIELD f (s.fget F.FLD_TEMP_TEMP f)
  else s

/-- The HEAT cause of a field after a reading (R483). -/
def State.heatTest (s : State) (f : Nat) (x : Int) : State :=
  let was := s.parkCause f
  let cnt := fun (s : State) (n : Nat) => ({ s with pwr := { s.pwr with heatCnt := mput 0 s.pwr.heatCnt f n } } : State)
  if s.parkAt ≤ x then ((cnt s 0).fset F.FLD_STATUS_HEAT 1 f).parkChange f was
  else if !s.flag F.FLD_STATUS_HEAT f then s
  else if s.parkAt - 4 * s.fget F.THERM_CFG_UNPARK_DELTA < x then cnt s 0
  else
    let n := mget 0 s.pwr.heatCnt f + 1
    if n < s.fget F.THERM_CFG_UNPARK_MS * 100 then cnt s n else ((cnt s 0).fset F.FLD_STATUS_HEAT 0 f).parkChange f was

/-- The trip (R489): a compute reset with source 0x7. The stacks' readings stand through it, and P4 waits for the module to cool. -/
def State.trip (s : State) (kind idx reading : Nat) (stack : Bool) : State :=
  let detail := reading + b2n stack * 2 ^ 16
  let s := ((s.raise 0x9004 kind idx detail).count .THERM_TRIPS).logRecord 8 idx detail
  let temps := (List.range 24).map fun st => s.rd .HBMC_TEMP st
  let s := s.moduleReset 3 7
  let s := (List.range 24).foldl (fun s st => s.wr .HBMC_TEMP (temps.getD st 0) st) s
  { s with boot := { s.boot with cool := true }, pins := { s.pins with trip := true } }

/-! ## The governor (R478, R479, R491) -/

/-- SUPPLY_RANGE (R491). -/
def State.supplyTest (s : State) (mv : Nat) : State :=
  let bad := decide (mv < 44000 ∨ 56000 < mv)
  let n := if bad then min 100 (s.pwr.vinBad + 1) else 0
  let s := { s with pwr := { s.pwr with vinBad := n } }
  if n < 100 ∨ s.pwr.vinSec = s.second + 1 then s
  else { s with pwr := { s.pwr with vinSec := s.second + 1 } }.raise 0x9006 kMODULE 0 mv

/-- The requested level after a sample (R478), with PENV and HYST in W: REQ and the samples counted below. -/
def governor (req below sample penv hyst downN : Nat) : Nat × Nat :=
  if penv < sample then (min 8 (req + 1), 0)
  else if sample + hyst < penv then (if below + 1 = downN then (req - 1, 0) else (req, below + 1))
  else (req, 0)

/-- PWR_STATUS.CAP (R479). -/
def State.capTest (s : State) (sample penv req : Nat) : State :=
  if sample ≤ penv then s.fset F.PWR_STATUS_CAP 0
  else if req < 8 then s
  else
    let s := (s.fset F.PWR_STATUS_CAP 1).count .PWR_CAP_SAMPLES
    if s.pwr.capSec = s.second + 1 then s
    else { s with pwr := { s.pwr with capSec := s.second + 1 } }.raise 0x9005 kMODULE 0 (sample + penv / 100 * 2 ^ 32)

end Sys2Proof.Machine
end

