-- ==== Sys2Proof/Machine/Power.lean ====
section
/-! DEFINITION. Meanings of the power and temperature commands (14), and of the two writes to a slot that concern them. -/

namespace Sys2Proof.Machine
open Sys2Proof

/-! ## Skimming (R432, R433, R481) -/

/-- SKIM_LEVEL_CHANGE (R433): the oldest request takes effect at the first frame that begins at least 100 ns after it. -/
def execSkimLevelChange (s : State) : Out :=
  match s.clk.pendLevel with
  | [] => .next s
  | p :: rest =>
    let s := s.atCyc (upTo 16 (p.2 + 360))
    .next ({ s with clk := { s.clk with pendLevel := rest } }.fset F.CLK_SKIM_LEVEL p.1)

/-- RAMP_STEP (R481): the ramp level falls by one, 5 us after the last step. -/
def execRampStep (s : State) : Out :=
  match s.pwr.rampAt with
  | none => .next s
  | some t =>
    let l := s.fget F.PWR_STATUS_RAMP
    let s := s.atWt (t + (9 - l) * 5000)
    let s := { s with pwr := { s.pwr with rampAt := if l ≤ 1 then none else some t } }
    .next (s.fset F.PWR_STATUS_RAMP (l - 1)).levelRequest

/-! ## The ladder (R469 to R475) -/

/-- PWR_TARGET_WRITE (R469, R470). -/
def execPwrTargetWrite (target : Fin 4) (s : State) : Out := .next (s.powerTarget target)

/-- POWER_RUNG_ENTER (R469): the next rung of a descent is entered once its condition holds. -/
def execPowerRungEnter (s : State) : Out :=
  if s.pwr.move.isSome || decide (s.pTarget ≤ s.pState) then .next s
  else
    let n := s.pState + 1
    if !s.rungReady n then .next s.descend
    else .next (let s := s.moveBegin false; if n = pCELLAR then s.cellarEnter else s)

/-- POWER_RUNG_REACHED (R470, R474): the rung is reached; a wake that waits begins the exit. -/
def execPowerRungReached (s : State) : Out :=
  match s.pwr.move with
  | some (false, _) =>
    let n := s.pState + 1
    let s := if n = pCELLAR then s.cellarStop else s
    if n = pCELLAR ∧ !s.cellarQuiet then .next s
    else
      let s := if n = pCELLAR then s.cellarOff else s
      let s := { s with pwr := { s.pwr with move := none } }
      let s := (s.fset F.PWR_STATUS_STATE n).fset F.PWR_STATUS_MOVING 0
      if s.flag F.PWR_STATUS_WAKE_PENDING then .next ((s.fset F.PWR_STATUS_WAKE_PENDING 0).moveBegin true) else .next s.descend
  | _ => .next s

/-- Exit latency of a state in ns (R469). -/
def exitNs (st : Nat) : Nat := if st = pSIMMER then 200 else if st = pSTEEP then 2000 else if st = pCELLAR then 20000 else 0

/-- POWER_EXIT_COMPLETE (R469, R470, R473, R475, R481). -/
def execPowerExitComplete (s : State) : Out :=
  match s.pwr.move with
  | some (true, t) =>
    let st := s.pState
    let s := s.atWt (t + exitNs st)
    let s := if st = pCELLAR then s.cellarUp else if st = pSTEEP then s.coresRestore (fun c => !s.parked c) else s
    let s := ((s.fset F.PWR_STATUS_STATE pBOIL).fset F.PWR_STATUS_MOVING 0).count .PWR_WAKES
    let ts := s.pwr.wakeSlots
    let s := { s with pwr := { s.pwr with move := none, auto := false, wakeSlots := [], idleAt := s.clk.wt } }.rampStart
    let s := if st = pCELLAR then s.cellarTrain else s
    let s := ts.foldl State.tractOn s
    .next (s.slotsUnpark (List.range 16)).descend
  | _ => .next s

/-- AUTO_SIMMER_IDLE (R471): no slot has been RUNNING or STOPPING for 100 us. -/
def execAutoSimmerIdle (s : State) : Out :=
  if !s.flag F.PWR_CTRL_AUTO_SIMMER || s.pTarget != pBOIL || s.pState != pBOIL || s.pwr.move.isSome || s.anyRunning then .next s
  else
    let s := s.atWt (s.pwr.idleAt + 100000)
    .next ({ s with pwr := { s.pwr with auto := true } }.moveBegin false)

/-- CORES_READY_SET (R475): BIST has left every line zero, and every core has the firmware again. -/
def execCoresReadySet (s : State) : Out :=
  if s.flag F.PWR_STATUS_CORES_READY || s.pState == pCELLAR || s.pwr.move.isSome then .next s
  else
    let fw := mget [] s.boot.sram 2
    let s := { s with sp := [], spCode := [] }
    let s := (List.range 18000).foldl (fun s c =>
      { s with sp := mputs 0 s.sp (s.phys c * slotBytes) fw }.ifill c 0 1024 0) s
    .next (s.fset F.PWR_STATUS_CORES_READY 1)

/-! ## Samples (R478 to R483, R489, R491) -/

/-- POWER_SAMPLE (R478, R479, R491): the interval of 10 us in progress ends with its average input power. -/
def execPowerSample (watts millivolts : BitVec 32) (s : State) : Out :=
  let s := s.atWt ((s.clk.wt / 10000 + 1) * 10000)
  let w := watts.toNat
  let s := (s.fset F.PWR_INPUT_W w).fset F.PWR_VIN_MV millivolts.toNat
  let s := (s.monSample 4 0 0 millivolts.toNat).supplyTest millivolts.toNat
  let penv := s.fget F.PWR_PENV_PENV * 100
  let req := s.fget F.CLK_SKIM_REQ
  let s := s.capTest w penv req
  let g := governor req s.pwr.below w penv (s.fget F.PWR_GOV_HYST * 100) (s.fget F.PWR_GOV_DOWN_N)
  let s := { s with pwr := { s.pwr with below := g.2 } }
  .next (if g.1 = req then s else (s.fset F.CLK_SKIM_REQ g.1).levelRequest)

/-- FIELD_TEMP_SAMPLE (R482 to R485, R489): the field's highest reading in quarter degrees, its core supply in mV and its power. -/
def execFieldTempSample (field : FieldId) (reading : BitVec 12) (vcore watts : BitVec 16) (s : State) : Out :=
  let x := reading.toInt
  let s := s.fset F.FLD_TEMP_TEMP reading.toNat field
  let s := if toSigned 12 (s.fget F.FLD_TEMP_MAX_TEMP field) < x then s.fset F.FLD_TEMP_MAX_TEMP reading.toNat field else s
  let s := (s.fset F.FLD_VCORE_VALUE vcore.toNat field).fset F.FLD_POWER_VALUE watts.toNat field
  let h := s.hottest
  let s := (s.fset F.THERM_HOTTEST_FIELD h).fset F.THERM_HOTTEST_TEMP (s.fget F.FLD_TEMP_TEMP h)
  let s := (s.monSample 5 field 0x3FF vcore.toNat).monSample 6 field 0x3FF x.toNat
  let s := (s.warnTest field x).heatTest field x
  .next (if 460 ≤ x then s.trip kFIELD field reading.toNat false else s)

/-- STACK_TEMP_SAMPLE (08, HBMC_TEMP; R489). -/
def execStackTempSample (stack : Stack) (celsius : BitVec 8) (s : State) : Out :=
  let t := celsius.toNat
  let was := s.flag F.HBMC_TEMP_HOT stack
  let s := (s.fset F.HBMC_TEMP_TEMP t stack).fset F.HBMC_TEMP_HOT (b2n (decide (95 ≤ t))) stack
  let s := if !was && decide (95 ≤ t) then s.raise 0x6008 kCHANNEL (32 * stack) t else s
  .next (if 105 ≤ t then s.trip kCHANNEL (32 * stack) t true else s)

/-- FLD_TEMP_MAX takes the current reading (R482). -/
def State.maxClear (s : State) (f : Nat) : State := s.fset F.FLD_TEMP_MAX_TEMP (s.fget F.FLD_TEMP_TEMP f) f

/-- FLD_MAX_CLR_WRITE (R482). -/
def execFldMaxClrWrite (field : FieldId) (s : State) : Out := .next (s.maxClear field)

/-! ## Parking (R484 to R487) -/

/-- A write of FLD_CTRL.PARK (R484). -/
def State.parkWrite (s : State) (f : Nat) (v : Bool) : State :=
  (s.fset F.FLD_CTRL_PARK (b2n v) f).parkChange f (s.parkCause f)

/-- FLD_PARK_WRITE (R484). -/
def execFldParkWrite (field : FieldId) (value : Bool) (s : State) : Out := .next (s.parkWrite field value)

/-- FIELD_PARK_COMPLETE (R484, R485, R487): no slot that touches the field is RUNNING or STOPPING. -/
def execFieldParkComplete (field : FieldId) (s : State) : Out :=
  if s.fget F.FLD_STATUS_STATE field ≠ 1 ∨
      (s.fieldSlots field).any (fun t => s.tstate t == tRUNNING || s.tstate t == tSTOPPING) then .next s
  else
    let s := { s with pwr := { s.pwr with parkedAt := mput 0 s.pwr.parkedAt field s.clk.wt } }
    let s := (s.fset F.FLD_STATUS_STATE 2 field).count .FLD_PARKS 1 field
    let detail := s.fget F.FLD_CTRL_PARK field + s.fget F.FLD_STATUS_HEAT field * 2 + mget 0 s.pwr.parkTemp field * 2 ^ 16
    let s := s.raise 0x9002 kFIELD field detail
    if s.flag F.FLD_STATUS_UNPARK_PENDING field then
      .next ((s.fset F.FLD_STATUS_UNPARK_PENDING 0 field).fset F.FLD_STATUS_STATE 3 field)
    else .next s

/-- FIELD_UNPARK_COMPLETE (R484, R485, R487): the field is ACTIVE, or begins to park again if a cause has been set meanwhile. -/
def execFieldUnparkComplete (field : FieldId) (s : State) : Out :=
  if s.fget F.FLD_STATUS_STATE field ≠ 3 then .next s
  else
    let s := s.coresRestore (fun c => fieldOf c == field)
    let s := (s.fset F.FLD_STATUS_STATE 0 field).raise 0x9003 kFIELD field (s.clk.wt - mget 0 s.pwr.parkedAt field)
    let s := s.rampStart
    if s.parkCause field then .next (s.parkStart field) else .next (s.slotsUnpark (s.fieldSlots field))

/-! ## Slots (R192, R194, R470) -/

/-- TRACT_ENABLE (R192, R470). -/
def execTractEnable (slot : Slot) (s : State) : Out := .next (s.tractEnable slot)

/-- A write of TRACT_CTRL.FREE = 1 (R194, R201, R304, R421): a slot that is LOADED, STOPPED, HALTED or FAULTED returns to FREE. -/
def State.tractFree (s : State) (t : Nat) : State :=
  let st := s.tstate t
  if st = tLOADED ∨ st = tSTOPPED ∨ st = tHALTED ∨ st = tFAULTED then
    let s := (s.gsTractFree t).slotDefaults t
    let s := { s with
      pwr := { s.pwr with wakeSlots := s.pwr.wakeSlots.filter (· != t) }
      host := { s.host with jobs := { s.host.jobs with slots := merase s.host.jobs.slots t } } }
    ((s.fset F.TRACT_STATUS_STATE tFREE t).fset F.TRACT_STATUS_ENABLE_PENDING 0 t).setTract t {}
  else s

/-- TRACT_FREE (R194). -/
def execTractFree (slot : Slot) (s : State) : Out := .next (s.tractFree slot)

end Sys2Proof.Machine
end

