-- ==== Sys2Proof/Machine/Scratchpad.lean ====
section
/-! DEFINITION. Meanings of the scratchpad's commands (06). -/

namespace Sys2Proof.Machine
open Sys2Proof

/-- What a served access does beyond the scratchpad, by the unit that it serves (R208, R217, R221). -/
def State.portServed (s : State) (c : Nat) (v : SpServed) : State :=
  match v.req.use with
  | .held rel k => s.mxCapture c rel k v.data (v.tb + 2)
  | .fabTx id k => s.fabTxLine c id k v.data v.bad v.tb
  | .fabRx id => s.fabRxLine c id v.tb
  | .bow id => s.bowServed c id v.tb
  | .strTx id k => s.strTxLine c id k v.data v.bad
  | .strRx id => s.strRxLine c id
  | .out _ _ => s
  | .vxW _ _ => s
  | _ =>
    let x := s.spCore c
    s.setSp c { x with rx := x.rx ++ [⟨v.req.use, v.data, v.tb + 2, v.bad⟩] }

/-- SCRATCHPAD_ACCESS_SERVED (R206 to R208, R215 to R221): the first request of a port at a bank in its slot; one whose tag
blocks goes on waiting (R186, R187). -/
def execScratchpadAccessServed (core : Core) (port : Fin 16) (bank : Fin 32) (s : State) : Out :=
  match s.serve core port bank with
  | some v => .next (v.s.portServed core v)
  | none =>
    if (s.spCore core).rowHeld (bank.val / 8) || !s.tagBlocked core port bank then .next s
    else
      match s.slotFor core port bank s.clk.tb with
      | none => .next s
      | some t => .next ((s.atTb t).tagBlock core port bank)

/-- The row access that a bank group serves next (R222): the agent of highest precedence, then the order of asking. -/
def SpCore.rowNext (x : SpCore) (g : Nat) : Option RowReq :=
  [1, 2, 3, 4].findSome? fun a => x.rows.find? (fun r => r.agent == a && r.row % 4 == g)

/-- Name of a host request in `Packet.op`. -/
def opHost (id : Nat) : Nat := 8 * id

/-- Has a row of the host request already met a failed check (R227)? -/
def State.hostDetected (s : State) (op : Nat) : Bool := s.host.reqs.any fun r => opHost r.id == op && r.detected
def State.hostDetect (s : State) (op : Nat) : State :=
  { s with host := { s.host with reqs := s.host.reqs.map fun r => if opHost r.id = op then { r with detected := true } else r } }

/-- A row access for BAR4 is served (R224, R225): the answer leaves the core. -/
def State.rowHost (s : State) (c : Nat) (r : RowReq) (p : Packet) : State :=
  match r.data with
  | some d => (s.rowWrite c r.row d).inject c (packetReply p Packet.WACK stOK) s.clk.tb
  | none =>
    let bytes := ((s.spRow c r.row).drop (p.addr % 512)).take (p.lenm1 + 1)
    match s.rowBad c r.row with
    | none => s.inject c (packetReply p Packet.RDR stOK bytes) s.clk.tb
    | some line =>
      let s := if s.hostDetected p.op then s else (s.rowDetect c r.row line 4).hostDetect p.op
      s.inject c (packetReply p Packet.RDR stOK bytes true) s.clk.tb

/-- ROW_ACCESS_SERVED (R222, R224, R258): one row access of a bank group in an NCLK. -/
def execRowAccessServed (core : Core) (group : Fin 4) (s : State) : Out :=
  match (s.spCore core).rowNext group with
  | none => .next s
  | some r =>
    let s := s.atTb (upTo 2 s.clk.tb)
    let x := s.spCore core
    let s := s.setSp core { x with rows := x.rows.erase r }
    match r.pkt with
    | some p => .next (s.rowHost core r p)
    | none =>
      match r.data with
      | some d => .next ((s.rowWrite core r.row d).bowServed core r.bow s.clk.tb)
      | none => .next s

/-- SP_INJ_ARM_WRITE (R221): a write of 1. -/
def execSpInjArmWrite (core : Core) (s : State) : Out := .next (s.fset F.SP_CTRL_INJ_ARM 1 core)

/-- A write of 1 to SP_BIST.START (R223, R224). -/
def State.bistStart (s : State) (c : Nat) : State :=
  if !s.rowAvail c then s
  else
    let x := s.spCore c
    (s.setSp c { x with bist := true }).fset F.SP_BIST_BUSY 1 c

/-- SP_BIST_START (R224). -/
def execSpBistStart (core : Core) (s : State) : Out := .next (s.bistStart core)

/-- Every line of a position's scratchpad becomes zero with a fresh code; tags stay (R218, 06 "SP_BIST"). -/
def State.spZero (s : State) (pos : Nat) : State :=
  { s with
    sp := s.sp.filter (fun e => e.1 / slotBytes != pos)
    spCode := s.spCode.filter (fun e => e.1 / spLines != pos) }

/-- SP_BIST_COMPLETE (R224, R227): `row` is the first row in which BIST found a fault, and `line` the line whose check failed
in a row-mode read, if one did. -/
def execSpBistComplete (core : Core) (row : Option (Fin 10240)) (line : Option (Fin 81920)) (s : State) : Out :=
  if !s.flag F.SP_BIST_BUSY core then .next s
  else
    let x := s.spCore core
    let s := ((s.setSp core { x with bist := false }).fset F.SP_BIST_BUSY 0 core).spZero (s.phys core)
    let s := match line with
      | none => s
      | some l => s.rowDetect core (l.val / 8) l 3
    match row with
    | none => .next (s.fset F.SP_BIST_FAIL 0 core)
    | some r =>
      .next ((((s.fset F.SP_BIST_FAIL 1 core).fset F.SP_BIST_ROW r core).raise 0x2005 kCORE core r).critMet (s.phys core) 2)

/-- REFERENCE_NCLK (R207, R213): the NCLK that begins at a TB that is a multiple of 32. -/
def execReferenceNclk (core : Core) (s : State) : Out :=
  let s := s.atTb (upTo 32 s.clk.tb)
  .next (if s.running core then s else s.planTake core)

end Sys2Proof.Machine
end

