-- ==== Sys2Proof/Machine/HostOps.lean ====
section
/-! DEFINITION. The host port's operations (15): access to the BARs, translation, device-initiated DMA, intake fetches. -/

namespace Sys2Proof.Machine
open Sys2Proof

/-! ## What the host reaches (R464, R476, R492) -/

/-- The host port is out of reset (R447). -/
def State.hostUp (s : State) : Bool := s.boot.hostUp

/-- The module serves BAR2 and BAR4: READY, and not in Cellar (R464, R476). -/
def State.windowsOpen (s : State) : Bool := s.flag F.MOD_STATUS_READY && s.pState != pCELLAR

/-- Does a host BAR0 access reach a block: all of them once READY and above Cellar (R464, R476); none in D3hot (R492)? -/
def State.hostReach (s : State) (b : Block) : Bool :=
  s.hostUp && !s.host.d3hot &&
    (match b with
     | .MOD | .RST | .CLK | .MGMT | .HLTH => true
     | .PWR | .FLD | .HOST => s.flag F.MOD_STATUS_READY
     | _ => s.windowsOpen)

/-- Cuts of n bytes from address a at the multiples of g: offset and length of each. -/
def cutAt (g a n : Nat) : List (Nat × Nat) :=
  if n = 0 then []
  else
    (List.range ((a % g + n + g - 1) / g)).map fun i =>
      let lo := if i = 0 then 0 else i * g - a % g
      (lo, min n ((i + 1) * g - a % g) - lo)

/-- FB_UNBACKED with SOURCE MODULE (R43, R251, R496). -/
def State.unbackedModule (s : State) (a : Nat) : State := s.raiseLim 0x5001 kMODULE 0 a

/-! ## BAR2 and BAR4 requests (R225, R494, R495) -/

/-- Put a request in its place. -/
def State.setReq (s : State) (r : HostReq) : State :=
  { s with host := { s.host with reqs := s.host.reqs.map fun z => if z.id = r.id then r else z } }

/-- The host port sends a completion. -/
def State.hostDone (s : State) (tag status : Nat) (data : List Byte) (poison : Bool) : State :=
  { s with host := { s.host with done := s.host.done ++ [⟨tag, status, data, poison⟩] } }

/-- A read that no earlier unanswered write precedes is issued (R495). -/
def State.hostIssue (s : State) : State :=
  let free := s.host.reqs.takeWhile fun r => !r.write
  free.foldl (fun s r =>
    if r.wait.isEmpty then s
    else r.wait.foldl (fun s p => s.rimSend p s.clk.tb) (s.setReq { r with wait := [], left := r.wait.length })) s

/-- A request of the host with its packets; a write is sent at once. -/
def State.hostRequest (s : State) (tag n : Nat) (bar4 write : Bool) (ps : List Packet) : State :=
  if ps.isEmpty then s
  else
    let id := s.host.nextId
    let ps := (ps.zip (List.range ps.length)).map fun (x : Packet × Nat) => { x.1 with rid := x.2, src := destHost, op := opHost id }
    let r : HostReq := {
      id := id, tag := tag, bar4 := bar4, write := write, n := n
      wait := if write then [] else ps, left := if write then ps.length else 0 }
    let s := { s with host := { s.host with nextId := id + 1, reqs := s.host.reqs ++ [r] } }
    (if write then ps.foldl (fun s p => s.rimSend p s.clk.tb) s else s).hostIssue

/-- An answer to one packet of a host request; the last one ends the request (R225, R494). -/
def State.hostAnswer (s : State) (p : Packet) : State :=
  match s.host.reqs.find? (fun r => opHost r.id == p.op) with
  | none => s
  | some r =>
    let r := { r with
      left := r.left - 1, refused := r.refused || p.flags != stOK, poison := r.poison || (p.poison && p.flags == stOK)
      got := if p.typ = Packet.RDR then mput [] r.got p.rid p.data else r.got }
    if r.left ≠ 0 then s.setReq r
    else
      let s := { s with host := { s.host with reqs := s.host.reqs.filter fun z => z.id != r.id } }
      let s :=
        if r.write then s
        else if r.refused then s.hostDone r.tag 4 [] false
        else s.hostDone r.tag 0 (r.got.flatMap (·.2)) r.poison
      s.hostIssue

/-- Stack address of a BAR2 offset (R494). -/
def State.bar2Addr (s : State) (off : Nat) : Nat := s.fget F.HOST_BAR2_SEL_WINDOW * 2 ^ s.host.bar2Log + off

/-- Granule at which requests to the stacks are cut: a packet's payload, a channel's granule (R231, R266). -/
def State.stackCut (s : State) : Nat := min 512 (2 ^ s.ilvLog)

/-- A packet for n bytes of the module's own stacks. -/
def State.stackPacket (s : State) (typ a n : Nat) (data : List Byte) (poison : Bool) : Packet :=
  { typ := typ, dest := destChan (s.ilvOf a).chan, src := destHost, addr := a, lenm1 := n - 1, data := data, poison := poison }

/-- Runs of enabled bytes: offset and length (R268). -/
def enabledRuns (be : List Bool) : List (Nat × Nat) :=
  let starts := (List.range be.length).filter fun i => be.getD i false && (i == 0 || !be.getD (i - 1) false)
  starts.map fun i => (i, ((be.drop i).takeWhile id).length)

/-- Core and byte of a BAR4 offset (R225). -/
def State.bar4Core (s : State) (off : Nat) : Nat := 2048 * s.fget F.HOST_BAR4_SEL_WINDOW + off / slotBytes

/-- A packet for n bytes of a row of a core's scratchpad (R225). -/
def rowPacket (typ c b n : Nat) (data : List Byte) : Packet :=
  { typ := typ, dest := c, src := destHost, addr := spWindow + c * slotBytes + b, lenm1 := n - 1, flags := 1, data := data }

/-! ## Device-initiated DMA (R496, R497) -/

/-- Host bus address of n bytes at an offset of the host window, and whether writes are refused (R496). -/
def State.xlat (s : State) (o n : Nat) : Option (Nat × Bool) :=
  let i := o / 2 ^ 36
  let x := o % 2 ^ 36
  if i < 256 ∧ s.flag F.HOST_XLAT_CTRL_EN 0 i ∧ x + n ≤ s.fget F.HOST_XLAT_CTRL_LIMIT 0 i * 4096 then
    some (s.fget F.HOST_XLAT_BASE_ADDR 0 i * 4096 + x, s.flag F.HOST_XLAT_CTRL_RO 0 i)
  else none

/-- A memory write leaves the host port. -/
def State.hostWrite (s : State) (addr : Nat) (data : List Byte) (poison : Bool) : State :=
  { s with host := { s.host with wrote := s.host.wrote ++ [⟨addr, data, poison⟩] } }

/-- HOST_DMA_ERROR (R497, R529): code 1 UR, 2 CA, 3 timeout, 4 poisoned. -/
def State.dmaError (s : State) (code off : Nat) : State :=
  (s.count .HOST_DMA_ERRORS).raiseLim 0xB013 kMODULE 0 (code + off / 16 % 2 ^ 44 * 2 ^ 8)

/-- A memory read leaves the host port. -/
def State.dmaRead (s : State) (r : DmaReq) : State :=
  let r := { r with id := s.host.nextDma, issued := s.clk.wt }
  { s with host := { s.host with nextDma := s.host.nextDma + 1, dma := s.host.dma ++ [r] } }

/-! ## Intake fetches (R506 to R511) -/

/-- n bytes of the running job's ring descriptor, as a number (R508). -/
def State.ringNat (s : State) (r off n : Nat) : Nat := leNat (mgets 0 s.host.jobs.entry (0x3000 + 64 * r + off) n)
def State.ringBase (s : State) (r : Nat) : Nat := s.ringNat r 0 8
def State.ringEntries (s : State) (r : Nat) : Nat := s.ringNat r 8 4
def State.ringEsize (s : State) (r : Nat) : Nat := s.ringNat r 0xC 4

/-- Has the loaded job this ring? -/
def State.hasRing (s : State) (r : Nat) : Bool := decide (r < leNat (mgets 0 s.host.jobs.entry 0x16 2))

/-- Offset of entry k mod NENT of a ring in the host window (R510). -/
def State.ringEntry (s : State) (r k : Nat) : Nat := s.ringBase r - hostWindow + k % s.ringEntries r * s.ringEsize r

def State.setFetch (s : State) (f : Fetch) : State :=
  { s with host := { s.host with fetches := s.host.fetches.map fun z => if z.ring = f.ring ∧ z.k = f.k then f else z } }

/-- The fetch that runs on a ring: its oldest one (R509). -/
def State.fetchOf (s : State) (r : Nat) : Option Fetch := s.host.fetches.find? fun f => f.ring == r

/-- Name of the slot writes of a fetch in `Packet.op`. -/
def opFetch (f : Fetch) : Nat := 8 * (16 * f.k + f.ring) + 1

/-- A header with SEQ, LEN and STATUS as the copy has them (R506). -/
def headerCopy (h : List Byte) (seq len status : Nat) : List Byte :=
  h.take 4 ++ leBytes 4 seq ++ leBytes 4 len ++ leBytes 4 status ++ (h.drop 16).take 48

/-- Does a byte range of the slot come from a part that came poisoned? -/
def Fetch.spoiled (f : Fetch) (lo n : Nat) : Bool :=
  (decide (lo < 64) && f.poison.contains 0) ||
    f.poison.any fun q => q != 0 &&
      (let a := 64 + ((f.got.filter fun e => decide (e.1 < q - 1)).map (·.2.length)).sum
       decide (lo < a + (mget [] f.got (q - 1)).length ∧ a < lo + n))

/-- The copy is written to the destination slot with a STATUS (R510). -/
def State.fetchPut (s : State) (f : Fetch) (bytes : List Byte) (status : Nat) : State :=
  let dst := s.ringNat f.ring 0x10 8 + f.k % s.ringNat f.ring 0x18 4 * s.ringEsize f.ring
  let g := if gLocal dst < stackEnd then s.stackCut else 512
  let f := { f with stage := 3, status := status, left := 0 }
  let (s, sent) := (cutAt g dst bytes.length).foldl (fun (acc : State × Nat) c =>
    match acc.1.destOf (dst + c.1) c.2 0 with
    | none => (acc.1.unbackedModule (dst + c.1), acc.2)
    | some (d, mid) =>
      let p : Packet := {
        typ := Packet.WR, dest := d, src := destHost, addr := gLocal (dst + c.1), lenm1 := c.2 - 1, mid := mid
        data := (bytes.drop c.1).take c.2, poison := f.spoiled c.1 c.2, op := opFetch f }
      (acc.1.rimSend p acc.1.clk.tb, acc.2 + 1)) (s, 0)
  s.setFetch { f with left := sent }

/-- A fetch whose payload is there writes its slot (R510). -/
def State.fetchSettled (s : State) (f : Fetch) : State :=
  if f.stage ≠ 2 ∨ f.got.length < f.parts then s
  else
    let len := leNat ((f.hdr.drop 8).take 4)
    if f.bad then s.fetchPut f (headerCopy f.hdr f.k len 2) 2
    else s.fetchPut f (headerCopy f.hdr f.k len 0 ++ f.got.flatMap (·.2)) 0

/-- What a read of a fetch brings: the header, or part `part` of the payload. -/
def State.fetchGot (s : State) (ring k part : Nat) (data : List Byte) (poison refused : Bool) : State :=
  match s.host.fetches.find? (fun f => f.ring == ring && f.k == k) with
  | none => s
  | some f =>
    if f.stage = 0 then
      s.setFetch { f with stage := 5, hdr := data, bad := refused, poison := if poison then [0] else [] }
    else if f.stage = 2 then
      let f := { f with
        got := minsert f.got part data, bad := f.bad || refused, poison := if poison then f.poison ++ [part + 1] else f.poison }
      (s.setFetch f).fetchSettled f
    else s

/-- One read of a fetch is issued; an address that does not translate brings zeros as a failed read (R43, R496, R510). -/
def State.fetchRead (s : State) (f : Fetch) (part off n : Nat) : State :=
  match s.xlat off n with
  | none => (s.unbackedModule (hostWindow + off)).fetchGot f.ring f.k part (zeros n) false true
  | some (a, _) => s.dmaRead { id := 0, pkt := none, ring := f.ring, k := f.k, part := part, off := off, addr := a, n := n, issued := 0 }

/-- The header of a fetch is asked for (R510). -/
def State.fetchHeader (s : State) (f : Fetch) : State :=
  let f := { f with stage := 0, readAt := s.clk.wt }
  (s.setFetch f).fetchRead f 0 (s.ringEntry f.ring f.k) 64

/-- The payload of a FULL header is asked for (R496, R510). -/
def State.fetchPayload (s : State) (f : Fetch) (len : Nat) : State :=
  let off := s.ringEntry f.ring f.k + 64
  let cuts := cutAt 4096 off len
  let f := { f with stage := 2, parts := cuts.length }
  let s := s.setFetch f
  if cuts.isEmpty then s.fetchSettled f
  else (cuts.zip (List.range cuts.length)).foldl (fun s c => s.fetchRead f c.2 (off + c.1.1) c.1.2) s

/-- A header that has come is judged (R506, R510). -/
def State.fetchJudge (s : State) (f : Fetch) : State :=
  let len := leNat ((f.hdr.drop 8).take 4)
  if f.bad then s.fetchPut f (headerCopy f.hdr f.k 0 2) 2
  else if leNat (f.hdr.take 4) = 1 ∧ leNat ((f.hdr.drop 4).take 4) = f.k then
    (if s.ringEsize f.ring < len + 64 then s.fetchPut f (headerCopy f.hdr f.k len 2) 2 else s.fetchPayload f len)
  else s.setFetch { f with stage := 1 }

/-- Is x after y in the 32-bit order of R509? -/
def after32 (x y : Nat) : Bool := decide (1 ≤ (x + 2 ^ 32 - y % 2 ^ 32) % 2 ^ 32 ∧ (x + 2 ^ 32 - y % 2 ^ 32) % 2 ^ 32 ≤ 2 ^ 31 - 1)

/-- A write of HOST_IN_GO (R509). -/
def State.intakeGo (s : State) (r k : Nat) : State :=
  if !s.hasRing r || !after32 k (s.fget F.HOST_IN_LAST_K 0 r) then s
  else
    let open_ := s.host.fetches.filter fun f => f.ring == r
    if 4 ≤ open_.length then s.raise 0xB012 kMODULE 0 (r + k * 2 ^ 32)
    else
      let s := s.fset F.HOST_IN_LAST_K k 0 r
      let f : Fetch := { ring := r, k := k, go := s.clk.wt, stage := 4 }
      let s := { s with host := { s.host with fetches := s.host.fetches ++ [f] } }
      if open_.isEmpty then s.fetchHeader f else s

/-- A write of HOST_IN_REL (R511): entries in ascending order. -/
def State.intakeRelease (s : State) (r j : Nat) : State :=
  let last := s.fget F.HOST_IN_LAST_K 0 r
  let j := if after32 j last then last else j
  if !s.hasRing r || !after32 j (s.fget F.HOST_IN_MARK_K 0 r) then s
  else
    let mine := fun (e : Nat × Bool) => e.1 / 2 ^ 32 == r && !after32 (e.1 % 2 ^ 32) j
    let s := (s.host.held.filter mine).foldl (fun s e =>
      let off := s.ringEntry r (e.1 % 2 ^ 32)
      let s := match s.xlat off 4 with
        | none => s.unbackedModule (hostWindow + off)
        | some (a, ro) => if ro then s else s.hostWrite a (zeros 4) false
      if e.2 then s else s.count .HOST_IN_DROPPED) s
    ({ s with host := { s.host with held := s.host.held.filter fun e => !mine e } }).fset F.HOST_IN_MARK_K j 0 r

/-- A fetch whose slot writes are complete (R510): the counter is incremented once, the event raised, the ring's next fetch
begins. -/
def State.fetchComplete (s : State) (f : Fetch) : State :=
  let note := s.ringNat f.ring 0x20 4
  let s := s.arrive (bits note 14 0) (bits note 21 16) 1 true
  let s := if f.status = 0 then s else (s.raise 0xB011 kMODULE 0 (f.ring + b2n (f.status == 2) * 2 ^ 4 + f.k * 2 ^ 32)).msix 4
  let s := { s with host := { s.host with
    fetches := s.host.fetches.filter fun z => !(z.ring == f.ring && z.k == f.k)
    held := s.host.held ++ [(f.ring * 2 ^ 32 + f.k, f.status == 0)] } }
  match s.fetchOf f.ring with
  | some n => if n.stage = 4 then s.fetchHeader n else s
  | none => s

/-- One slot write of a fetch is answered. -/
def State.fetchAck (s : State) (op : Nat) : State :=
  { s with host := { s.host with fetches := s.host.fetches.map fun f => if opFetch f = op then { f with left := f.left - 1 } else f } }

/-- A read of the host port ends with what has come back (R497). -/
def State.dmaEnd (s : State) (r : DmaReq) (data : List Byte) (poison refused : Bool) : State :=
  let s := { s with host := { s.host with dma := s.host.dma.filter fun z => z.id != r.id } }
  match r.pkt with
  | some p => s.rimSend (packetReply p Packet.RDR (if refused then stREFUSED else stOK) data poison) s.clk.tb
  | none => s.fetchGot r.ring r.k r.part data poison refused

/-! ## MSI-X (R498) -/

/-- Vectors that are pending and no longer masked are sent. -/
def State.msixFlush (s : State) : State :=
  let h := s.host
  if !h.msixOn || h.msixFn then s
  else
    let (go, stay) := h.msixPend.partition fun v => !h.msixMask.contains v
    { s with host := { h with msixPend := stay, msixSent := h.msixSent ++ go } }

end Sys2Proof.Machine
end

