-- ==== Sys2Proof/Machine/JobOps.lean ====
section
/-! DEFINITION. The job table's operations (15, R499 to R505): entries, checks of a LOAD, the placement table (R41, R42). -/

namespace Sys2Proof.Machine
open Sys2Proof

/-! ## Entries (R499) -/

def jobBytes : Nat := 0x4000

/-- n bytes of entry j, as a number. -/
def State.jobNat (s : State) (j off n : Nat) : Nat := leNat (mgets 0 s.host.jobs.bytes (j * jobBytes + off) n)

def State.jobPut (s : State) (j off : Nat) (data : List Byte) : State :=
  { s with host := { s.host with jobs := { s.host.jobs with bytes := mputs 0 s.host.jobs.bytes (j * jobBytes + off) data } } }

def State.jobOwner (s : State) (j : Nat) : Nat := s.jobNat j 0 4 % 2
def State.jobState (s : State) (j : Nat) : Nat := s.jobNat j 8 4
def State.jobTracts (s : State) (j : Nat) : Nat := s.jobNat j 0x14 2
def State.jobRings (s : State) (j : Nat) : Nat := s.jobNat j 0x16 2

/-- States of an entry (R499). -/
def jEMPTY : Nat := 0
def jLOADED : Nat := 1
def jRUNNING : Nat := 2
def jSTOPPED : Nat := 3
def jREJECTED : Nat := 4

/-- n bytes of tract t's descriptor in entry j, as a number (R499). -/
def State.jobTract (s : State) (j t off n : Nat) : Nat := s.jobNat j (0x1000 + 128 * t + off) n
def State.jobShift (s : State) (j t : Nat) : Nat := bits (s.jobTract j t 8 4) 21 16

/-- Rectangle of tract t: first row and column, rows and columns (R36). -/
def State.jobRect (s : State) (j t : Nat) : Nat × Nat × Nat × Nat :=
  let o := s.jobTract j t 0 4
  let z := s.jobTract j t 4 4
  (bits o 22 16, bits o 7 0, bits z 22 16, bits z 7 0)

def rectsOverlap (a b : Nat × Nat × Nat × Nat) : Bool :=
  decide (a.1 < b.1 + b.2.2.1 ∧ b.1 < a.1 + a.2.2.1 ∧ a.2.1 < b.2.1 + b.2.2.2 ∧ b.2.1 < a.2.1 + a.2.2.2)

/-- HOST_STATUS shows the entry of the job that is LOADED, RUNNING or STOPPED. -/
def State.jobShow (s : State) : State :=
  match (List.range 4).find? (fun j => decide (1 ≤ s.jobState j ∧ s.jobState j ≤ 3)) with
  | some j => (s.fset F.HOST_STATUS_JOB j).fset F.HOST_STATUS_JOB_VALID 1
  | none => (s.fset F.HOST_STATUS_JOB 0).fset F.HOST_STATUS_JOB_VALID 0

/-! ## The checks of a LOAD (R503) -/

/-- Are the reserved bits of tract t's descriptor 0, and is its JOB_TRACT t (R499)? -/
def State.jobTractForm (s : State) (j t : Nat) : Bool :=
  let o := s.jobTract j t 0 4
  let z := s.jobTract j t 4 4
  let m := s.jobTract j t 8 4
  let b := s.jobTract j t 0x10 8
  bits o 31 23 == 0 && bits o 15 8 == 0 && bits z 31 23 == 0 && bits z 15 8 == 0 && bits m 31 22 == 0 && bits m 15 14 == 0
    && bits m 7 2 == 0 && bits m 13 8 == t && bits (s.jobTract j t 0xC 4) 31 14 == 0 && bits b 63 46 == 0 && bits b 11 0 == 0
    && bits (s.jobTract j t 0x18 4) 31 27 == 0 && s.jobTract j t 0x1C 4 == 0 && s.jobTract j t 0x60 32 == 0
    && (List.range 8).all fun w =>
      bits (s.jobTract j t (0x20 + 8 * w) 4) 31 17 == 0
        && bits (s.jobTract j t (0x24 + 8 * w) 4) 31 24 == 0 && bits (s.jobTract j t (0x24 + 8 * w) 4) 19 17 == 0

/-- Check 0x02: the ranges, the reserved bytes and bits, and every JOB_TRACT. -/
def State.jobForm (s : State) (j : Nat) : Bool :=
  let within := fun (x lo hi : Nat) => decide (lo ≤ x ∧ x ≤ hi)
  within (s.jobTracts j) 1 64 && within (s.jobRings j) 0 16 && within (s.jobNat j 0x18 4) 1 65535
    && within (s.jobNat j 0x28 4) 1 65536 && s.jobNat j 0 4 / 2 == 0 && s.jobNat j 4 4 / 16 == 0
    && s.jobNat j 0x2C (0x1000 - 0x2C) == 0 && s.jobNat j 0x3400 0xC00 == 0
    && (List.range (s.jobTracts j)).all (s.jobTractForm j)
    && (List.range (s.jobRings j)).all fun r => s.jobNat j (0x3000 + 64 * r + 0x24) 28 == 0

/-- Check 0x03: the tracts of each shift with those of shift 63 number at most 16 and cover disjoint rectangles (R37, R195). -/
def State.jobShiftsOk (s : State) (j : Nat) : Bool :=
  (List.range 63).all fun n =>
    let ts := (List.range (s.jobTracts j)).filter fun t => s.jobShift j t == n || s.jobShift j t == 63
    decide (ts.length ≤ 16) && ts.all fun a => ts.all fun b => a == b || !rectsOverlap (s.jobRect j a) (s.jobRect j b)

/-- Tracts of a shift and of shift 63, ascending. -/
def State.jobOfShift (s : State) (j n : Nat) : List Nat :=
  (List.range (s.jobTracts j)).filter fun t => s.jobShift j t == n || s.jobShift j t == 63

/-- FREE slots, ascending. -/
def State.freeSlots (s : State) : List Nat := (List.range 16).filter fun t => s.tstate t == tFREE

/-- A tract's registers in slot t take the values of its descriptor, whose bytes are d (R198, R201, R499). -/
def State.slotFill (s : State) (t : Nat) (d : List Byte) : State :=
  let n := fun (off k : Nat) => leNat ((d.drop off).take k)
  let put := fun (s : State) (r : RegId) (off k : Nat) => s.wr r (BitVec.ofNat 64 (n off k)) t
  let s := put (put (put (put s .TRACT_ORIGIN 0 4) .TRACT_SIZE 4 4) .TRACT_MODE 8 4) .TRACT_ENTRY 0xC 4
  let s := put (put s .TRACT_SWAP_BASE 0x10 8) .TRACT_CODE 0x18 4
  (List.range 8).foldl (fun s w =>
    (s.wr .TRACT_TWIN_BASE (BitVec.ofNat 64 (n (0x20 + 8 * w) 4)) t w).wr .TRACT_TWIN_LEN (BitVec.ofNat 64 (n (0x24 + 8 * w) 4)) t w) s

/-- Descriptor bytes of tract k in an entry's bytes. -/
def tractDesc (entry : SMap Byte) (k : Nat) : List Byte := mgets 0 entry (0x1000 + 128 * k) 128

/-- The job's tract k stands in slot t. -/
def State.jobSlotSet (s : State) (t k : Nat) : State :=
  { s with host := { s.host with jobs := { s.host.jobs with slots := mput 0 s.host.jobs.slots t (k + 1) } } }

/-- Slots of the job, with their tracts. -/
def State.jobSlots (s : State) : List (Nat × Nat) := s.host.jobs.slots.map fun e => (e.1, e.2 - 1)

/-- The registers of entry j's bytes as LOAD copies them. -/
def State.jobImage (s : State) (j : Nat) : SMap Byte :=
  (s.host.jobs.bytes.filter fun e => decide (j * jobBytes ≤ e.1 ∧ e.1 < (j + 1) * jobBytes)).map fun (e : Nat × Byte) =>
    (e.1 - j * jobBytes, e.2)

/-- Checks 0x05: tracts are loaded into slots in order; the tract and the R190 reason of the first that fails. -/
def State.jobPlace (s : State) (j : Nat) : List (Nat × Nat) → State × Option (Nat × Nat)
  | [] => (s, none)
  | (k, t) :: rest =>
    let s := s.slotFill t (tractDesc (s.jobImage j) k)
    match s.tractBad t with
    | some r => (s.slotDefaults t, some (k, r))
    | none => ((s.fset F.TRACT_STATUS_STATE tLOADED t).jobSlotSet t k).jobPlace j rest

/-- The slots that a LOAD has filled are freed (R503). -/
def State.jobUnplace (s : State) : State := s.jobSlots.foldl (fun s e => s.tractFree e.1) s

/-- A placement-table entry (R41). -/
structure PlaceEntry where
  obj : Nat
  loc : Nat
  fmt : Nat
  scale : Nat
  base : Nat
  size : Nat
  shard : Nat
  flags : Nat
  rsv : Nat

def placeEntry (d : List Byte) : PlaceEntry :=
  let n := fun (off k : Nat) => leNat ((d.drop off).take k)
  ⟨n 0 4, n 4 1, n 5 1, n 6 2, n 8 8, n 0x10 8, n 0x18 2, n 0x1A 2, n 0x1C 4⟩

/-- Has no field a reserved encoding, and does BASE fall in the region that LOC names (R41, R42, R43)? -/
def State.placeOk (s : State) (e : PlaceEntry) : Bool :=
  let a := gLocal e.base
  let own := s.isOwn (gMid e.base)
  decide (e.loc ≤ 3) && decide (e.fmt ≤ 8) && e.fmt != 6 && (decide (e.scale ≤ 3071) || e.scale == 0xFFFF) && decide (1 ≤ e.size)
    && decide (e.flags ≤ 1) && e.rsv == 0 && bits e.base 53 46 == 0 &&
    (match e.loc with
     | 0 => own && (match s.region a 1 with | .sp _ _ => true | _ => false)
     | 1 => own && (match s.region a 1 with | .stack _ => true | _ => false)
     | 2 => !own && decide (gMid e.base < 1000 ∧ a < stackEnd)
     | _ => own && (match s.region a 1 with | .host => true | _ => false))

/-- Do two entries overlap, or carry the same OBJ_ID and SHARD (R42)? -/
def State.placeClash (s : State) (a b : PlaceEntry) : Bool :=
  let key := fun (e : PlaceEntry) => (if s.isOwn (gMid e.base) then 1023 else gMid e.base) * 2 ^ 64 + gLocal e.base
  (a.obj == b.obj && a.shard == b.shard) || (decide (key a < key b + b.size) && decide (key b < key a + a.size))

/-- Does a placement table pass R42? -/
def State.placesOk (s : State) : List PlaceEntry → Bool
  | [] => true
  | e :: rest => s.placeOk e && !rest.any (s.placeClash e) && s.placesOk rest

/-- The bytes of the placement table of entry j, if they can be read: from the stacks, or as the host's memory gives them. -/
def State.jobTable (s : State) (j : Nat) (hostTable : Option (List Byte)) : Option (List Byte) :=
  let g := s.jobNat j 0x20 8
  let n := 32 * s.jobNat j 0x28 4
  let a := gLocal g
  if g % 32 ≠ 0 ∨ bits g 53 46 ≠ 0 ∨ !s.isOwn (gMid g) then none
  else if a < stackEnd then (if s.inStacks a n && !s.memPoison a n then some (s.memGet a n) else none)
  else if hostWindow ≤ a ∧ a + n ≤ 0x4000_0000_0000 then
    (match s.xlat (a - hostWindow) n, hostTable with
     | some _, some d => if d.length = n then some d else none
     | _, _ => none)
  else none

/-- Check 0x06. -/
def State.jobPlacement (s : State) (j : Nat) (hostTable : Option (List Byte)) : Option (List Byte) :=
  match s.jobTable j hostTable with
  | none => none
  | some d => if s.placesOk ((List.range (d.length / 32)).map fun i => placeEntry ((d.drop (32 * i)).take 32)) then some d else none

/-- Check 0x07: a ring descriptor passes R508. -/
def State.jobRingOk (s : State) (j r : Nat) : Bool :=
  let n := fun (off k : Nat) => s.jobNat j (0x3000 + 64 * r + off) k
  let hb := n 0 8
  let nent := n 8 4
  let es := n 0xC 4
  let dst := n 0x10 8
  let ns := n 0x18 4
  let note := n 0x20 4
  let total := nent * es
  let entryOk := fun (i : Nat) => (s.xlat (hb - hostWindow + i * es) es).isSome
  let slotOk := fun (i : Nat) =>
    let g := dst + i * es
    bits g 53 46 == 0 && s.isOwn (gMid g) &&
      (match s.region (gLocal g) es with
       | .stack _ => s.inStacks (gLocal g) es
       | .sp _ _ => true
       | _ => false)
  hb % 4096 == 0 && decide (hostWindow ≤ hb ∧ hb + total ≤ 0x4000_0000_0000)
    && (List.range 16).any (fun k => nent == 2 ^ (k + 1)) && es % 64 == 0 && decide (128 ≤ es ∧ es ≤ 2 ^ 20)
    && dst % 64 == 0 && decide (1 ≤ ns ∧ ns ≤ 64) && decide (n 0x1C 4 ≤ 1000000000) && decide (bits note 14 0 < 18000)
    && bit note 15 == false && bits note 31 22 == 0 && (List.range nent).all entryOk && (List.range ns).all slotOk

/-- A LOAD fails; the slots already loaded are freed (R503). -/
def JobCmd.fail (c : JobCmd) (reason : Nat) (tract : Nat := 0) (why : Nat := 0) : JobCmd :=
  { c with acted := true, reason := reason, tract := tract, why := why }

/-- A LOAD of entry j: checks in order, then the job (R502, R503). -/
def State.jobLoad (s : State) (c : JobCmd) (hostTable : Option (List Byte)) : State × JobCmd :=
  let j := c.j
  let slots := s.jobOfShift j 0
  if s.jobState j ≠ jEMPTY ∧ s.jobState j ≠ jREJECTED then (s, c.fail 9)
  else if (List.range 4).any (fun k => k != j && decide (1 ≤ s.jobState k ∧ s.jobState k ≤ 3)) then (s, c.fail 1)
  else if !s.jobForm j then (s, c.fail 2)
  else if !s.jobShiftsOk j then (s, c.fail 3)
  else if s.freeSlots.length < slots.length then (s, c.fail 4)
  else
    let s := { s with host := { s.host with jobs := { s.host.jobs with slots := [] } } }
    match s.jobPlace j (slots.zip s.freeSlots) with
    | (s, some (k, why)) => (s.jobUnplace, c.fail 5 k why)
    | (s, none) =>
      match s.jobPlacement j hostTable with
      | none => (s.jobUnplace, c.fail 6)
      | some d =>
        if !(List.range (s.jobRings j)).all (s.jobRingOk j) then (s.jobUnplace, c.fail 7)
        else
          let s := { s with host := { s.host with
            fetches := [], held := []
            jobs := { s.host.jobs with placed := d, entry := s.jobImage j, shift := 0, steps := 0, out := [] } } }
          let s := (List.range 16).foldl (fun s r =>
            (s.fset F.HOST_IN_LAST_K 0xFFFF_FFFF 0 r).fset F.HOST_IN_MARK_K 0xFFFF_FFFF 0 r) s
          (s, { c with acted := true })

/-- The placement table and the rings of the job are discarded (R502, R505). -/
def State.jobDiscard (s : State) : State :=
  let s := { s with host := { s.host with
    fetches := [], held := [], jobs := { s.host.jobs with placed := [], entry := [], slots := [], shift := 0, steps := 0, out := [] } } }
  (List.range 16).foldl (fun s r => (s.fset F.HOST_IN_LAST_K 0xFFFF_FFFF 0 r).fset F.HOST_IN_MARK_K 0xFFFF_FFFF 0 r) s

/-! ## Commands (R501, R502, R504) -/

/-- The command of entry j that a poll has taken and that has not yet acted. -/
def State.jobWaits (s : State) (j cmd : Nat) : Option JobCmd :=
  s.host.jobs.cmds.find? fun c => c.j == j && c.cmd == cmd && !c.acted

def State.setJobCmd (s : State) (c : JobCmd) : State :=
  { s with host := { s.host with jobs := { s.host.jobs with cmds := s.host.jobs.cmds.map fun z => if z.j = c.j then c else z } } }

/-- A poll takes the command of every entry whose OWNER is 1 (R501). -/
def State.jobPoll (s : State) : State :=
  let new := (List.range 4).filter fun j => s.jobOwner j == 1 && !s.host.jobs.cmds.any (fun c => c.j == j)
  let cmds := new.map fun j => ({ j := j, cmd := bits (s.jobNat j 4 4) 3 0 } : JobCmd)
  { s with host := { s.host with jobs := { s.host.jobs with pollAt := s.clk.wt, cmds := s.host.jobs.cmds ++ cmds } } }

/-- No tract slot is RUNNING, STOPPING or SUSPENDED (R501). -/
def State.slotsIdle (s : State) : Bool :=
  (List.range 16).all fun t => s.tstate t != tRUNNING && s.tstate t != tSTOPPING && s.tstate t != tSUSPENDED

/-- Of the job's slots, is none RUNNING, STOPPING or SUSPENDED (R502)? -/
def State.jobStill (s : State) : Bool :=
  s.jobSlots.all fun e => s.tstate e.1 != tRUNNING && s.tstate e.1 != tSTOPPING && s.tstate e.1 != tSUSPENDED

/-- A slot is freed whatever its state (R504). -/
def State.slotFreed (s : State) (t : Nat) : State :=
  let st := s.tstate t
  (if st = tRUNNING ∨ st = tSTOPPING ∨ st = tSUSPENDED then s.slotStop t tSTOPPED else s).tractFree t

/-- JOB_REJECTED (R501, R529). -/
def State.jobRejected (s : State) (c : JobCmd) : State :=
  s.raise 0xB010 kMODULE 0 (c.j + c.reason * 2 ^ 8 + c.tract * 2 ^ 16 + c.why * 2 ^ 24)

/-- The entry's fields that a completed command leaves (R501). -/
def State.jobFields (s : State) (c : JobCmd) (state : Nat) : State :=
  let s := s.jobPut c.j 0xC (leBytes 4 (c.reason + c.tract * 2 ^ 8 + c.why * 2 ^ 16))
  let s := s.jobPut c.j 8 (leBytes 4 state)
  let s := s.jobPut c.j 0x10 (leBytes 4 ((s.jobNat c.j 0x10 4 + 1) % 2 ^ 32))
  let s := s.jobPut c.j 0 (leBytes 4 0)
  { s with host := { s.host with jobs := { s.host.jobs with cmds := s.host.jobs.cmds.filter fun z => z.j != c.j } } }

/-- STATE after a command (R502): a command that is not valid in STATE, or that has no such code, leaves it. -/
def State.jobStateAfter (s : State) (c : JobCmd) : Nat :=
  if c.reason = 9 ∨ c.cmd = 0 ∨ 4 < c.cmd then s.jobState c.j
  else if c.reason ≠ 0 then jREJECTED
  else if c.cmd = 1 then jLOADED
  else if c.cmd = 2 then jRUNNING
  else if c.cmd = 3 then jSTOPPED
  else jEMPTY

/-- A job command completes (R501). -/
def State.jobComplete (s : State) (c : JobCmd) : State :=
  let s := (s.jobFields c (s.jobStateAfter c)).jobShow
  (if c.reason = 0 then s else s.jobRejected c).msix 1

/-- The job table after a compute reset, before READY (R505): the state, and the commands abandoned. -/
def State.jobReconcile (s : State) : State × List JobCmd :=
  let cmds := s.host.jobs.cmds.map fun c => ({ c with reason := 0xA, tract := 0, why := 0 } : JobCmd)
  let s := cmds.foldl (fun s c => s.jobFields c jEMPTY) s
  let s := (List.range 4).foldl (fun s j =>
    if 1 ≤ s.jobState j ∧ s.jobState j ≤ 3 then s.jobPut j 8 (leBytes 4 jEMPTY) else s) s
  (s.jobDiscard.jobShow, cmds)

end Sys2Proof.Machine
end

