-- ==== Sys2Proof/Machine/Job.lean ====
section
/-! DEFINITION. Meanings of the job table's commands (15, R499 to R505), and READY (R460, R505), which concerns them. -/

namespace Sys2Proof.Machine
open Sys2Proof

/-- A single 32-bit host write of OWNER = 1 (R500); further ones change nothing. -/
def State.jobOwnerWrite (s : State) (j : Nat) : State := if s.jobOwner j = 1 then s else s.jobPut j 0 (leBytes 4 1)

/-- JOB_OWNER_WRITE (R464, R500). -/
def execJobOwnerWrite (job : JobId) (s : State) : Out := .next (if s.hostReach .HOST then s.jobOwnerWrite job else s)

/-- JOB_TABLE_POLL (R501): the poll every 10 us while no slot is RUNNING, STOPPING or SUSPENDED; the poll of action 6 belongs to the
step boundary. -/
def execJobTablePoll (s : State) : Out :=
  if !s.flag F.HOST_CTRL_POLL_EN || !s.flag F.MOD_STATUS_READY || !s.slotsIdle then .next s
  else .next (s.atWt (s.host.jobs.pollAt + 10000)).jobPoll

/-- JOB_LOAD (R502, R503): `hostTable` is what the host's memory gives where PT_ADDR names it. -/
def execJobLoad (job : JobId) (hostTable : Option (List Byte)) (s : State) : Out :=
  match s.jobWaits job 1 with
  | none => .next s
  | some c =>
    let (s, c) := s.jobLoad c hostTable
    .next (s.setJobCmd c)

/-- JOB_START (R502, R504): slots that are FREE, HALTED or FAULTED are skipped. -/
def execJobStart (job : JobId) (s : State) : Out :=
  match s.jobWaits job 2 with
  | none => .next s
  | some c =>
    if s.jobState job ≠ jLOADED ∧ s.jobState job ≠ jSTOPPED then .next (s.setJobCmd (c.fail 9))
    else
      let acts := fun (e : Nat × Nat) => s.tstate e.1 != tFREE && s.tstate e.1 != tHALTED && s.tstate e.1 != tFAULTED
      let s := (s.jobSlots.filter acts).foldl (fun s e => s.tractEnable e.1) s
      .next (s.setJobCmd { c with acted := true })

/-- JOB_STOP (R502, R504). -/
def execJobStop (job : JobId) (s : State) : Out :=
  match s.jobWaits job 3 with
  | none => .next s
  | some c =>
    if s.jobState job ≠ jRUNNING then .next (s.setJobCmd (c.fail 9))
    else
      let s := s.jobSlots.foldl (fun s e => s.tractOff e.1) s
      .next (s.setJobCmd { c with acted := true })

/-- JOB_UNLOAD (R502, R504). -/
def execJobUnload (job : JobId) (s : State) : Out :=
  match s.jobWaits job 4 with
  | none => .next s
  | some c =>
    let st := s.jobState job
    if st ≠ jLOADED ∧ st ≠ jSTOPPED ∧ st ≠ jREJECTED then .next (s.setJobCmd (c.fail 9))
    else if st = jREJECTED then .next (s.setJobCmd { c with acted := true })
    else
      let s := (s.jobSlots.foldl (fun s e => s.slotFreed e.1) s).jobDiscard
      .next (s.setJobCmd { c with acted := true })

/-- JOB_COMMAND_COMPLETE (R501, R502): a STOP completes when no slot of the job is RUNNING, STOPPING or SUSPENDED; a command with a
reserved code fails with reason 0x02. -/
def execJobCommandComplete (job : JobId) (s : State) : Out :=
  match s.host.jobs.cmds.find? (fun c => c.j == job.val) with
  | none => .next s
  | some c =>
    if c.cmd = 0 ∨ 4 < c.cmd then .next (s.jobComplete (c.fail 2))
    else if !c.acted || (c.cmd == 3 && c.reason == 0 && !s.jobStill) then .next s
    else .next (s.jobComplete c)

/-! ## READY (R460, R465, R505) -/

/-- READY_SET (R460, R465, R505, R537): once P6 has ended, and at a warm or cold start-up each port named in BRIM_AUTO has left
TRAINING or BRIM_WAIT_MS has passed since the end of P3; RESET is raised before it. -/
def execReadySet (s : State) : Out :=
  if s.fget F.RST_BOOT_STAGE ≠ 7 then .next s
  else
    let cls := s.fget F.RST_STATUS_ACTIVE
    let waits := cls != 3 && (List.range 6).any fun p => bit (s.option 0 1) p && s.bState p == bTRAINING
    let s := if waits then s.atWt (s.boot.p3End + s.option 2 2 * 1000000) else s
    let (s, cmds) := if cls = 3 then s.jobReconcile else (s, [])
    let us := (s.clk.wt - s.boot.start) / 1000
    let s := s.raise 0xA001 kMODULE 0 (s.fget F.RST_CAUSE_CLASS + s.fget F.RST_CAUSE_SOURCE * 2 ^ 4 + min us 0xFFFF_FFFF * 2 ^ 32)
    let s := (s.fset F.MOD_STATUS_READY 1).setStage 8
    let s := { s with
      pins := { s.pins with trip := false }, boot := { s.boot with wdogAt := s.clk.wt }, pwr := { s.pwr with idleAt := s.clk.wt } }
    let s := ((s.fset F.RST_STATUS_ACTIVE 0).pinsResume).msix 2
    .next (cmds.foldl (fun s c => (s.msix 1).jobRejected c) s)

end Sys2Proof.Machine
end

