-- ==== Sys2Proof/Machine/Streaming.lean ====
section
/-! DEFINITION. Meanings of the commands of weight streaming, saved activations and Racking (09). -/

namespace Sys2Proof.Machine
open Sys2Proof

/-! ## Grist streams -/

/-- GS_ENABLE_WRITE (R304). -/
def execGsEnableWrite (stream : Stream) (value : Bool) (s : State) : Out := .next (s.gsEnable stream value)

/-- GS_STOPPING_END (R304): once the writes on the bus are complete. -/
def execGsStoppingEnd (stream : Stream) (s : State) : Out :=
  let s' := s.gsSettle stream
  let x := s'.grist stream
  if s.gsState stream ≠ gsSTOPPING ∨ x.writes ≠ [] ∨ x.old ≠ [] then .next s
  else if s'.flag F.STRM_GS_STATUS_ENABLE_PENDING 0 stream then
    .next ((s'.fset F.STRM_GS_STATUS_ENABLE_PENDING 0 0 stream).gsStart stream)
  else .next (s'.setGsState stream gsDISABLED)

/-- The writes of one piece, one a band (R296), join the stream's list and their reads are issued. -/
def State.gsFetchPiece (s : State) (i p k : Nat) (e : Piece) : State :=
  let slot := p % s.gsWd i
  (List.range 5).foldl (fun s fy =>
    if e.row1 < 24 * fy ∨ 24 * fy + 23 < e.row0 then s
    else
      let w : GsWrite := {
        pos := p, piece := k, fy := fy, east := e.east, src := e.src
        hdr := {
          col1 := e.col1, col0 := e.col0, line := s.fget F.STRM_GS_DST_LINE 0 i + slot * s.gsSl i + e.doff, nlm1 := e.nlm1
          land := true, rowm := false, arrive := true, ctr := s.fget F.STRM_GS_CTRL_CBASE 0 i + slot }
        row0 := max e.row0 (24 * fy), row1 := min e.row1 (24 * fy + 23) }
      let x := s.grist i
      (s.setGrist i { x with writes := x.writes ++ [w] }).gsReads i w) s

/-- The pieces of a position from piece k on, n of them (R293, R299): a bad entry ends the stream. -/
def State.gsFetchPieces (s : State) (i p plist k : Nat) : Nat → State
  | 0 => s
  | n + 1 =>
    match s.gsPiece i (plist + 32 * k) with
    | none => s.gsFault i 2 (plist + 32 * k)
    | some e => (s.gsFetchPiece i p k e).gsFetchPieces i p plist (k + 1) n

/-- GRIST_POSITION_FETCH (R295, R297, R299): the next position of a stream starts its fetch. -/
def execGristPositionFetch (stream : Stream) (s : State) : Out :=
  let s' := s.gsSettle stream
  let i := stream.val
  let x := s'.grist i
  let p := x.fetched
  let wd := s.gsWd i
  let ready := decide (p < wd) || (decide (p < x.released + wd) && !(x.writes.any fun w => w.pos + wd == p))
  if !x.active || s.gsState i != gsENABLED || decide (s.gsP i ≤ p) || !ready then .next s
  else
    let s := s'.setGrist i { x with fetched := p + 1 }
    let a := s.gsTable i + 16 * s.gsLayer i p
    let plist := s.memNat a 8
    let n := s.memNat (a + 8) 2 + 1
    if plist % 32 ≠ 0 ∨ 1024 < n ∨ s.memNat (a + 10) 6 ≠ 0 ∨ !s.inStacks plist (32 * n) then .next (s.gsFault i 2 a)
    else .next (s.gsFetchPieces i p plist 0 n)

/-- Change one Bow write on every row of its band. -/
def State.bowEach (s : State) (w : GsWrite) (id : Nat) (f : BowBus → BowBus) : State :=
  (List.range (w.row1 + 1 - w.row0)).foldl (fun s r =>
    { s with bow := mupd [] s.bow (w.row0 + r) fun l => l.map fun (z : BowBus) => if z.id = id then f z else z }) s

/-- Lines that stand at the injector follow the ones already driven, one an NCLK (R296): their times and bytes, from line j
with its predecessor driven at TB t. -/
def gsNextLines (w : GsWrite) (j t : Nat) : Nat → List (Nat × List Byte)
  | 0 => []
  | n + 1 =>
    if w.hdr.nlm1 < j then []
    else
      match mget (0, []) w.got j with
      | (a, d) =>
        if d.isEmpty then []
        else
          let u := max (t + 2) (upTo 2 a + 2)
          (u, d) :: gsNextLines w (j + 1) u n

/-- Drive the lines of a write that is on the bus as far as they have come (R296, R298). -/
def State.gsDrive (s : State) (i : Nat) (w : GsWrite) (id : Nat) : State :=
  match (mget [] s.bow w.row0).find? (fun b => b.id == id) with
  | none => s
  | some b =>
    let j := b.lines.length
    let t := (b.lines.getLast?.getD (0, [])).1
    let new := gsNextLines w j t (w.hdr.nlm1 + 1)
    let last := (new.getLast?.getD (t, [])).1
    let s := s.bowEach w id fun z => { z with lines := z.lines ++ new, void := z.void || w.bad }
    let s := (List.range (w.row1 + 1 - w.row0)).foldl (fun s r =>
      { s with bowBus := mput (1, 0) s.bowBus (w.row0 + r) (b2n w.east, last + 2) }) s
    s.count .STRM_GS_LINES new.length 0 i

/-- GRIST_SOURCE_RESPONSE (R297, R298): the data of a read is at its injector. A line that comes poisoned or refused spoils the
write: the piece is read for that band once more; a second failure faults the stream. -/
def execGristSourceResponse (packet : Packet) (s : State) : Out :=
  let s := s.take packet (.rim packet.dest)
  let hit := fun (i : Nat) =>
    ((s.grist i).writes.find? (fun w => s.gsOp i w == packet.op && injector w.fy w.east == packet.dest)).map fun w => (i, w)
  match (List.range 32).findSome? hit with
  | none => .next s
  | some (i, w) =>
    let fails := packet.poison || packet.flags != stOK
    let n := (packet.data.length + 63) / 64
    let got := (List.range n).foldl (fun m k =>
      mput (0, []) m (packet.rid + k) (s.clk.tb, (packet.data.drop (64 * k)).take 64)) w.got
    let first := fails && !w.bad
    let w' := { w with got := got, bad := w.bad || fails }
    let x := s.grist i
    let s := s.setGrist i { x with writes := x.writes.map fun z => if z.key = w.key then w' else z }
    let s := match w.bow with
      | some id => s.gsDrive i w' id
      | none => s
    if !first then .next s
    else if w.second then .next (s.gsFault i 3 (w.src + 64 * packet.rid))
    else if s.gsState i ≠ gsENABLED then .next s
    else
      let again := { w with second := true, got := [], bad := false, bow := none }
      let y := s.grist i
      let s := (s.setGrist i { y with writes := y.writes ++ [again] }).count .STRM_GS_RETRIES 1 0 i
      .next (s.gsReads i again)

/-- The write that an injector drives next, if its first line has reached it (R296, R303): by stream, then in the order of its
stream. -/
def State.gsCandidate (s : State) (east : Bool) (fy : Nat) : Option (Nat × GsWrite) :=
  (List.range 32).findSome? fun i =>
    let x := s.grist i
    let ws := x.writes.filter (fun w => w.fy == fy && w.east == east && w.bow.isNone)
    let first := ws.foldl (fun (o : Option GsWrite) w =>
      match o with
      | none => some w
      | some v => if w.before v then some w else some v) none
    match first with
    | none => none
    | some w => if x.old = [] ∧ !(mget (0, []) w.got 0).2.isEmpty then some (i, w) else none

/-- May the write take its rows' buses (R256)? None is held by an unfinished write, and where the other end holds a command
for one of them and it was this end that drove last, the other end goes first. -/
def State.bowMay (s : State) (w : GsWrite) : Bool :=
  let other := s.gsCandidate (!w.east) w.fy
  (List.range (w.row1 + 1 - w.row0)).all fun k =>
    let r := w.row0 + k
    let last := mget (1, 0) s.bowBus r
    (mget [] s.bow r).all (fun b => decide (b.hdr.nlm1 < b.lines.length)) &&
      (match other with
       | none => true
       | some (_, o) => last.1 != b2n w.east || !(decide (o.row0 ≤ r ∧ r ≤ o.row1)))

/-- NCLK (as TB) in which the buses of a write's rows are free for its end (R256). -/
def State.bowFree (s : State) (w : GsWrite) : Nat :=
  (List.range (w.row1 + 1 - w.row0)).foldl (fun t k =>
    let last := mget (1, 0) s.bowBus (w.row0 + k)
    max t (if last.1 = b2n w.east ∨ last.2 = 0 then last.2 else last.2 + 24)) 0

/-- BOW_WRITE_INJECT (R256, R257, R296, R303): an injector drives its next write onto the rows of its band. -/
def execBowWriteInject (east : Bool) (fy : Fin 5) (s : State) : Out :=
  let s' := (List.range 32).foldl State.gsSettle s
  match s'.gsCandidate east fy with
  | none => .next s
  | some (i, w) =>
    if !s'.bowMay w then .next s
    else
      let at0 := (mget (0, []) w.got 0).1
      let t := max (upTo 2 at0 + 2) (s'.bowFree w)
      let s := s'.atTb t
      let id := s.nextBow
      let s := { s with nextBow := id + 1 }
      let bus : BowBus := {
        id := id, east := east, hdr := w.hdr, lines := [], left := (w.hdr.nlm1 + 1) * (w.hdr.col1 + 1 - w.hdr.col0) }
      let s := (List.range (w.row1 + 1 - w.row0)).foldl (fun s k =>
        { s with bow := mupd [] s.bow (w.row0 + k) (· ++ [{ bus with lines := [(t, (mget (0, []) w.got 0).2)] }]) }) s
      let x := s.grist i
      let s := s.setGrist i { x with writes := x.writes.map fun z => if z.key = w.key then { z with bow := some id } else z }
      .next ((s.count .STRM_GS_LINES 1 0 i).gsDrive i w id)

/-! ## Stream-port bundles (R315) -/

/-- GNEED (R301). -/
def execGneed (core : Core) (payload : BitVec 76) (s : State) : Out := .next (s.gneed core 2 (withOp 8 payload))

/-- GREL (R302). -/
def execGrel (core : Core) (payload : BitVec 76) (s : State) : Out := .next (s.grel core 2 (withOp 9 payload))

/-- SAVE (R308). -/
def execSave (core : Core) (payload : BitVec 76) (s : State) : Out := .next (s.save core 2 (withOp 10 payload))

/-- PFSTART (R309). -/
def execPfstart (core : Core) (payload : BitVec 76) (s : State) : Out := .next (s.pfstart core 2 (withOp 11 payload))

/-- ANEED (R311). -/
def execAneed (core : Core) (payload : BitVec 76) (s : State) : Out := .next (s.aneed core 2 (withOp 12 payload))

/-- AREL (R311). -/
def execArel (core : Core) (payload : BitVec 76) (s : State) : Out := .next (s.arel core 2 (withOp 13 payload))

/-- SAVE_COMPLETE (R315): the oldest SAVE whose record writes all have their WACK. -/
def execSaveComplete (core : Core) (s : State) : Out :=
  match (s.stpc core).saves.find? (fun v => v.placed && v.left == 0) with
  | none => .next s
  | some v => .next (s.saveDone core v)

/-- PF_RECORD_FETCH (R309): the next record starts its fetch, its trailer read first. -/
def execPfRecordFetch (core : Core) (s : State) : Out :=
  let x := s.stpc core
  let k := x.nextRec
  let pd := s.pfPd core
  let ready := decide (k < x.rec0 + pd) || x.recs.any (fun r => r.k + pd == k && r.released && r.stage == 4)
  if !s.flag F.STP_STATUS_PF_ACTIVE core || s.stpOff core || !ready then .next s
  else
    match s.pfTop core k with
    | none => .next s
    | some top =>
      if top ≤ x.base then .next s
      else
        let r : StpRec := { k := k, top := top }
        let keep := x.recs.filter fun z => decide (k < z.k + pd) || z.stage != 4
        .next ((s.setStp core { x with nextRec := k + 1, recs := keep ++ [r] }).pfRead core r (top - 64) 64)

/-- PF_RECORD_COMPLETE (R300, R309): the counter is increased and stamped, the pointer moves below the record; at
STP_SAVE_BASE the prefetcher stops with PF_DONE. -/
def execPfRecordComplete (core : Core) (s : State) : Out :=
  let x := s.stpc core
  match x.recs.find? (fun r => decide (x.rec0 ≤ r.k) && r.stage == 3) with
  | none => .next s
  | some r =>
    let ctr := s.pfCbase core + (r.k - x.rec0) % s.pfPd core
    let s := s.arrive core ctr
    let y := s.stpc core
    let s := (s.setStp core { y with
      stamps := mput 0 y.stamps ctr s.clk.wt, pfCount := mupd 0 y.pfCount ctr (· + 1) }).setRec core { r with stage := 4 }
    let ptr := min (s.fget F.STP_PF_PTR_ADDR core * 64) (r.top - r.total)
    let s := s.fset F.STP_PF_PTR_ADDR (ptr / 64) core
    if ptr ≤ x.base ∧ (s.stpc core).recs.all (fun z => decide (z.k < x.rec0) || z.stage == 4) then
      .next ((s.fset F.STP_STATUS_PF_DONE 1 core).fset F.STP_STATUS_PF_ACTIVE 0 core)
    else .next s

/-! ## Enabling the stream port (R314, R111) -/

/-- A write of STP_CTRL.ENABLE (R314). -/
def State.stpEnable (s : State) (c : Nat) (v : Bool) : State :=
  let s := s.fset F.STP_CTRL_ENABLE (b2n v) c
  let st := s.fget F.STP_STATUS_STATE c
  let x := s.stpc c
  if v then
    if st = eDISABLED then (s.setStp c { x with enabling := some s.clk.tb }).fset F.STP_STATUS_STATE eENABLING c
    else if st = eSTOPPING then s.fset F.STP_STATUS_ENABLE_PENDING 1 c
    else s
  else if st = eENABLED then s.fset F.STP_STATUS_STATE eSTOPPING c
  else if st = eENABLING then (s.setStp c { x with enabling := none }).fset F.STP_STATUS_STATE eDISABLED c
  else s.fset F.STP_STATUS_ENABLE_PENDING 0 c

/-- STP_ENABLE_WRITE (R314). -/
def execStpEnableWrite (core : Core) (value : Bool) (s : State) : Out := .next (s.stpEnable core value)

/-- STP_STOPPING_END (R314): every released operation is complete and no prefetch write is in flight. -/
def execStpStoppingEnd (core : Core) (s : State) : Out :=
  let x := s.stpc core
  if s.fget F.STP_STATUS_STATE core ≠ eSTOPPING ∨ x.saves ≠ [] ∨ x.recs.any (·.stage == 2) then .next s
  else if s.flag F.STP_STATUS_ENABLE_PENDING core then
    .next (((s.setStp core { x with enabling := some (s.clk.tb + 1) }).fset
      F.STP_STATUS_ENABLE_PENDING 0 core).fset F.STP_STATUS_STATE eENABLING core)
  else .next (s.fset F.STP_STATUS_STATE eDISABLED core)

/-- STP_ENABLING_END (R314): 16 ACLK after ENABLING began. -/
def execStpEnablingEnd (core : Core) (s : State) : Out :=
  match (s.stpc core).enabling with
  | none => .next s
  | some b =>
    let s := s.atTb (b + 16)
    let x := s.stpc core
    .next ((s.setStp core { x with enabling := none }).fset F.STP_STATUS_STATE eENABLED core)

/-! ## Racking -/

/-- The percentages of STRM_RK_CAP in force (R332): those written since the last 10 us interval began wait for its end. -/
def State.rkCap (s : State) : Nat :=
  let now := (s.rd .STRM_RK_CAP).toNat
  match s.rack.capHold with
  | some (v, k) => if s.clk.wt / 10000 ≤ k then v else now
  | none => now

/-- Racking bytes that a port may carry in any 10 us of WT (R328): Brim ports 0 to 5 at 425 GB/s, the host port 6 at 128 GB/s. -/
def State.rkLimit (s : State) (port : Nat) : Nat := if port = 6 then 12800 * bits s.rkCap 13 8 else 42500 * bits s.rkCap 5 0

/-- Racking bytes sent on a port in the 10 us that end now. -/
def State.rkRecent (s : State) (port : Nat) : List (Nat × Nat) :=
  (mget [] s.rack.sent port).filter fun e => decide (s.clk.wt < e.1 + 10000)

/-- Time passes until a port may carry n more bytes (R328): until enough of the earlier bytes are 10 us old. -/
def State.rkWait (s : State) (port n : Nat) : State :=
  let l := s.rkRecent port
  let s := { s with rack := { s.rack with sent := mput [] s.rack.sent port l } }
  let fits := fun (k : Nat) => decide (((l.drop k).map (·.2)).sum + n ≤ s.rkLimit port)
  match (List.range (l.length + 1)).find? fits with
  | none => s
  | some 0 => s
  | some (k + 1) => s.atWt ((l.getD k (0, 0)).1 + 10000)

/-- Targets that a copy of entry e goes to. -/
def RackTgt.wants (t : RackTgt) : Bool := !t.done
def State.rkTargets (s : State) : List Bool :=
  (if s.rack.cask.wants then [false] else []) ++ (if s.rack.host.wants then [true] else [])

/-- The granule that the engine copies next (R325 to R327). -/
def State.rkNext (s : State) : Option Nat :=
  let k := s.rack
  let free := fun (e : Nat) => s.rkPending e && !(k.cask.out.contains e) && !(k.host.out.contains e)
  let marked := k.marked.filter fun e => s.rkWseq e == s.rkSeq && free e
  if k.phase = 1 then marked.head?
  else if k.phase = 2 then
    match (k.first.filter free).head? with
    | some e => some e
    | none =>
      match marked.head? with
      | some e => some e
      | none => (List.range s.rkGranules).find? free
  else none

/-- RACK_GRANULE_COPY (R325 to R328): the next granule is read, CSEQ becomes S, and it goes to every target that has not
failed; a poisoned read fails them (R329). -/
def execRackGranuleCopy (s : State) : Out :=
  match s.rkNext with
  | none => .next s
  | some e =>
    let ts := s.rkTargets
    let g := fun (s : State) (host : Bool) => s.rkBank host + 4096 + 4096 * e
    let s := ts.foldl (fun s host =>
      s.rkWait (if host then 6 else s.brimPort (s.classProf 3) (gMid (g s host))) 4096) s
    let a := s.rkAddr e
    let data := s.memGet a 4096
    let bad := s.memPoison a 4096
    let s := s.memPut (s.rkMap + 2 * e) (leBytes 1 s.rkSeq)
    let s := { s with rack := { s.rack with
      marked := s.rack.marked.filter (· != e), first := s.rack.first.filter (· != e) } }
    if bad then .next (ts.foldl (fun s host => s.rkFail host 3) s)
    else
      .next (ts.foldl (fun s host =>
        let k := s.rack
        let add := fun (t : RackTgt) => { t with out := t.out ++ [e] }
        let s := { s with rack := if host then { k with host := add k.host } else { k with cask := add k.cask } }
        s.rkSend host (g s host) e data false) s)

/-- RACK_COPY_RESPONSE (R329): the WACK of a copy or of a seal is at REG. -/
def execRackCopyResponse (packet : Packet) (s : State) : Out :=
  let s := s.take packet (.rim destReg)
  let host := packet.op % 2 == 1
  let e := packet.op / 2
  let k := s.rack
  let t := if host then k.host else k.cask
  if k.phase = 0 ∨ !(t.out.contains e) ∨ t.failed ≠ 0 then .next s
  else if packet.flags = stOK then
    let t := { t with out := t.out.filter (· != e), sealed_ := t.sealed_ || (t.sealing && e == rkSeal) }
    let s := { s with rack := if host then { k with host := t } else { k with cask := t } }
    .next (s.rkSealTest.rkEndTest)
  else .next (s.rkFail host (if 3 ≤ packet.flags then 4 else 2))

/-- A write of STRM_RK_CTRL.ENABLE (R331). -/
def State.rkEnable (s : State) (v : Bool) : State :=
  let s := s.fset F.STRM_RK_CTRL_ENABLE (b2n v)
  let st := s.rkState
  if v then
    if st = rkDISABLED then s.fset F.STRM_RK_STATUS_STATE rkIDLE
    else if st = rkSTOPPING then s.fset F.STRM_RK_STATUS_ENABLE_PENDING 1
    else s
  else if st = rkIDLE then s.fset F.STRM_RK_STATUS_STATE rkDISABLED
  else if st = rkOPEN ∨ st = rkCLOSING then s.fset F.STRM_RK_STATUS_STATE rkSTOPPING
  else if st = rkSTOPPING then s.fset F.STRM_RK_STATUS_ENABLE_PENDING 0
  else s

/-- RK_ENABLE_WRITE (R331). -/
def execRkEnableWrite (value : Bool) (s : State) : Out := .next (s.rkEnable value)

/-- RK_NOW_WRITE (R323): writing 1 sets NOW, writing 0 has no effect. -/
def execRkNowWrite (value : Bool) (s : State) : Out := .next (if value then s.fset F.STRM_RK_CTRL_NOW 1 else s)

end Sys2Proof.Machine
end

