-- ==== Sys2Proof/Machine/RegRead.lean ====
section
/-! DEFINITION. Register reads (R9 to R14, R47, R162): the value of every register, the windows of BAR0 that are no registers, and
reads of 4 and 8 bytes. -/

namespace Sys2Proof.Machine
open Sys2Proof

/-! ## Values (R9, R14) -/

/-- EP_QUEUE: entries of each queue, and of the deferred buffer with the bundles that it is releasing (05, "Epru registers"). -/
def State.epQueue (s : State) (c : Nat) : Nat :=
  let e := s.core c
  e.mq.length % 128 + e.vq.length % 128 * 2 ^ 8 + e.sq.length % 64 * 2 ^ 16 + (e.defq.length + e.defRel.length) % 64 * 2 ^ 24

/-- Value of a register as a read returns it: what stands in it, and what it shows of state that has its home elsewhere. -/
def State.regValue (s : State) (r : RegRef) : Nat :=
  let v := (s.rd r.id r.i r.j r.k).toNat
  match r.id with
  | .CLK_TB => s.clk.tb
  | .CLK_WT => s.clk.wt
  | .EP_QUEUE => s.epQueue r.i
  | .BRIM_TAGS => s.brim.reqs.length % 2 ^ 15 + s.brim.cooling.length % 2 ^ 15 * 2 ^ 16
  | .SP_STATUS =>
    let x := s.spCore r.i
    setBits v 5 5 (b2n (!x.rows.isEmpty || x.bist))
  | .SP_TAG_PROBE =>
    let l := bits v 16 0
    setBits (setBits v 17 17 (b2n (s.tagF r.i l))) 18 18 (b2n (s.tagC r.i l))
  | .FB_STATUS => setBits v 16 16 (b2n (hasLink r.i 4))
  | .STP_STAMP => s.stampOf r.i (s.fget F.STP_STAMP_SEL_CTR r.i)
  | _ => v

/-! ## Windows (01, "Event ring"; R493, R498, R499, R525) -/

/-- Word k of an event ring entry. -/
def EvtEntry.word (e : EvtEntry) (k : Nat) : Nat :=
  match k with
  | 0 => e.code % 2 ^ 16
  | 1 => e.idx % 2 ^ 28 + e.kind % 16 * 2 ^ 28
  | 2 => e.wt % 2 ^ 32
  | 3 => e.wt / 2 ^ 32 % 2 ^ 32
  | 4 => e.tb % 2 ^ 32
  | 5 => e.tb / 2 ^ 32 % 2 ^ 32
  | 6 => e.detail % 2 ^ 32
  | _ => e.detail / 2 ^ 32 % 2 ^ 32

/-- Word k of a record of the lifetime log (R525). -/
def LogRec.word (r : LogRec) (k : Nat) : Nat :=
  match k with
  | 0 => r.kind % 2 ^ 16
  | 1 => r.data % 2 ^ 32
  | 2 => r.wt % 2 ^ 32
  | 3 => r.wt / 2 ^ 32 % 2 ^ 32
  | 4 => r.detail % 2 ^ 32
  | 5 => r.detail / 2 ^ 32 % 2 ^ 32
  | _ => 0

/-- The word at offset o of the LOG window (R525). -/
def State.logWord (s : State) (o : Nat) : Nat :=
  let c := mget 0 s.log.shown
  if 0x1000 ≤ o then (mget LogRec.zero s.log.recs ((o - 0x1000) / 32)).word (o % 32 / 4)
  else if 0x40 ≤ o ∧ o < 0xCC0 then c o % 2 ^ 32
  else if o < 0x18 ∨ (0xD00 ≤ o ∧ o < 0xF00) then c (o / 8 * 8) / 2 ^ (8 * (o % 8)) % 2 ^ 32
  else if o = 0xF00 then c o % 2 ^ 32
  else 0

/-- Word w of the MSI-X table: word 3 of an entry holds its mask (PCI Express). -/
def State.msixWord (s : State) (w : Nat) : Nat :=
  if w % 4 = 3 then b2n (s.host.msixMask.contains (w / 4)) else mget 0 s.host.msixTab w

/-- Word w of the pending-bit array. -/
def State.pbaWord (s : State) (w : Nat) : Nat :=
  ((List.range 32).filter fun b => s.host.msixPend.contains (32 * w + b)).foldl (fun v b => v + 2 ^ b) 0

/-- The word at a BAR0 offset, a multiple of 4, of a window that is no register; nothing where there is no window. -/
def State.windowWord (s : State) (a : Nat) : Option Nat :=
  if 0x2_0000 ≤ a ∧ a < 0x4_0000 then some ((mget EvtEntry.zero s.ring ((a - 0x2_0000) / 32)).word (a % 32 / 4))
  else if 0x380_2000 ≤ a ∧ a < 0x380_2400 then some (s.msixWord ((a - 0x380_2000) / 4))
  else if 0x380_3000 ≤ a ∧ a < 0x380_3008 then some (s.pbaWord ((a - 0x380_3000) / 4))
  else if 0x381_0000 ≤ a ∧ a < 0x382_0000 then some (leNat (mgets 0 s.host.jobs.bytes (a - 0x381_0000) 4))
  else if 0x3C2_0000 ≤ a ∧ a < 0x3C2_9000 then some (s.logWord (a - 0x3C2_0000))
  else none

/-- Block to which a BAR0 offset belongs, for R464 and R476. -/
def blockOf (a : Nat) : Option Block := (blockAt a).map (·.1)

/-! ## Reads (R10 to R12) -/

/-- A read of the 4 bytes at offset a: the low word of a 64-bit register captures its high word, which the next read of the high
word returns (R11, R12). Nothing where no block defines the offset. -/
def State.readWord (s : State) (a : Nat) : State × Option Nat :=
  match regAt a with
  | none => (s, s.windowWord a)
  | some r =>
    let v := s.regValue r
    if !r.id.defn.wide then (s, some (v % 2 ^ 32))
    else if a = r.addr then ({ s with rHold := mput 0 s.rHold r.addr (v / 2 ^ 32 + 1) }, some (v % 2 ^ 32))
    else
      let h := mget 0 s.rHold r.addr
      if h = 0 then (s, some (v / 2 ^ 32)) else ({ s with rHold := merase s.rHold r.addr }, some (h - 1))

/-- COUNTER_LOW_READ (R11, R12): the host's 32-bit read of the low word of the 64-bit register or counter at offset 8 × lane; the
host port completes it with the 4 bytes. -/
def execCounterLowRead (tag : Fin 16384) (lane : BitVec 24) (s : State) : Out :=
  let a := 8 * lane.toNat
  match regAt a with
  | none => .next s
  | some r =>
    if !r.id.defn.wide ∨ a ≠ r.addr ∨ !s.hostReach r.id.defn.blk then .next s
    else
      let (s, v) := s.readWord a
      .next (s.hostDone tag 0 (leBytes 4 (v.getD 0)) false)

end Sys2Proof.Machine
end

