-- ==== Sys2Proof/Machine/SecOps.lean ====
section
/-! DEFINITION. Operations of the security and management logic (15): count-limited settings (R518, R519, R523, R524), tokens
(R521, R522), firmware update (R516), measurements (R519), sensors (R515). -/

namespace Sys2Proof.Machine
open Sys2Proof

/-! ## Count-limited settings (R19, R523, R524) -/

/-- The field of a setting by its id, and the field of SEC_RWN_LEFT that counts its changes (R523). -/
def rwnField (id : Nat) : Fld :=
  match id with
  | 1 => F.PWR_PENV_PENV
  | 2 => F.THERM_PARK_OFS_OFS
  | 3 => F.SEC_SVN_FLOOR_FLOOR
  | _ => F.SEC_ID_GEN_GEN

def rwnLeft (id : Nat) : Fld :=
  match id with
  | 1 => F.SEC_RWN_LEFT_PENV
  | 2 => F.SEC_RWN_LEFT_OFS
  | 3 => F.SEC_RWN_LEFT_SVN
  | _ => F.SEC_RWN_LEFT_ID

/-- Is a value of a setting an encoding that is not reserved (R477, R482, R518, R519)? -/
def State.rwnLegal (s : State) (id v : Nat) : Bool :=
  match id with
  | 1 => decide (80 ≤ v ∧ v ≤ (if s.fget F.MOD_ID_ORDER = 2 then 200 else 250))
  | 2 => decide (v ≤ 20)
  | 3 => decide (s.fget F.SEC_SVN_FLOOR_FLOOR ≤ v ∧ v ≤ s.fget F.RST_IMAGE_SVN_SVN)
  | _ => decide (v = s.fget F.SEC_ID_GEN_GEN + 1 ∧ v ≤ 4)

/-- The settings that wait for their commit, and SEC_STATUS.RWN_BUSY. -/
def State.setRwn (s : State) (l : List (Nat × Nat)) : State :=
  ({ s with mgmt := { s.mgmt with rwn := l } } : State).fset F.SEC_STATUS_RWN_BUSY (b2n (!l.isEmpty))

/-- A write of an RWN field (R19, R524). -/
def State.rwnWrite (s : State) (id v : Nat) : State :=
  let rest := s.mgmt.rwn.filter fun p => p.1 != id
  if !s.rwnLegal id v then s
  else if v = s.fget (rwnField id) then s.setRwn rest
  else if s.fget (rwnLeft id) = 0 then s.raise 0xB001 kMODULE 0 (id + v * 2 ^ 32)
  else s.setRwn (rest ++ [(id, v)])

/-- Shefikan commits the setting that waits first (R19, R524). -/
def State.rwnCommit (s : State) : State :=
  match s.mgmt.rwn with
  | [] => s
  | (id, v) :: rest =>
    let left := s.fget (rwnLeft id) - 1
    let s := ((s.setRwn rest).fset (rwnField id) v).fset (rwnLeft id) left
    let detail := id + left * 2 ^ 8 + v * 2 ^ 32
    (s.raise 0xB002 kMODULE 0 detail).logRecord 5 id detail

/-! ## Answers over MCTP, PLDM and SPDM -/

/-- The answer that management gives. -/
def State.answer (s : State) (bytes : List Byte) : State := { s with mgmt := { s.mgmt with answer := bytes } }

/-- Completion codes of R514. -/
def ccOK : Byte := 0
def ccREFUSED : Byte := 1
def ccMALFORMED : Byte := 2

/-! ## Tokens (R521, R522) -/

/-- Bytes 0x000 to 0x720 of a token: what its signature covers. -/
def tokenBody (t : Token) : List Byte :=
  leBytes 8 t.serial ++ leBytes 8 t.nonce ++ leBytes 1 t.arg ++ t.reserved ++ t.pubkey

/-- Has a token the layout of R521, with an ARG between lo and hi? -/
def tokenForm (t : Token) (lo hi : Nat) : Bool :=
  decide (t.serial < 2 ^ 64 ∧ t.nonce < 2 ^ 64 ∧ lo ≤ t.arg ∧ t.arg ≤ hi) && t.reserved == zeros 15
    && t.pubkey.length == 1793 && t.sig.length == 1280

/-- Is the digest of a public key that of the debug key, or of an unrevoked image slot other than `arg` (R521)? -/
def State.tokenKey (s : State) (revoke : Bool) (arg : Nat) (pub : List Byte) : Bool :=
  let d := Config.shake256 pub
  let holds := fun (k : Nat) => mget [] s.mgmt.otp k == d && mget [] s.mgmt.otp k != []
  if revoke then (List.range 4).any fun k => k != arg && !bit (s.fget F.SEC_STATUS_REVOKED) k && holds k
  else holds 4

/-- The reason for which a token is denied (R521). -/
def State.tokenBad (s : State) (revoke : Bool) (t : Token) : Option Nat :=
  if s.flag F.SEC_STATUS_LOCKOUT then some 4
  else if t.serial ≠ (s.rd .MOD_SERIAL).toNat ∨ t.nonce ≠ (s.rd .SEC_DBG_NONCE).toNat then some 1
  else if !s.tokenKey revoke t.arg t.pubkey then some 2
  else if !Config.falconOk t.pubkey (tokenBody t) t.sig then some 3
  else none

/-- Every attempt replaces the nonce (R521). -/
def State.newNonce (s : State) : State :=
  let (n, s) := s.free
  s.wr .SEC_DBG_NONCE n

/-- A failed attempt (R521): DEBUG_DENIED, and LOCKOUT after the third. -/
def State.tokenDeny (s : State) (reason : Nat) : State :=
  let n := min (s.mgmt.fails + 1) 3
  let s := { s with mgmt := { s.mgmt with fails := n } }
  let s := if n = 3 then s.fset F.SEC_STATUS_LOCKOUT 1 else s
  (s.raise 0xB004 kMODULE 0 (reason + n * 2 ^ 8)).answer [ccREFUSED]

/-- A debug token (R521). -/
def State.debugUnlock (s : State) (t : Token) : State :=
  if !tokenForm t 1 2 then s.answer [ccMALFORMED]
  else
    match s.tokenBad false t with
    | some r => s.newNonce.tokenDeny r
    | none =>
      let s := s.newNonce.fset F.SEC_STATUS_DEBUG t.arg
      ((s.raise 0xB003 kMODULE 0 t.arg).logRecord 7 t.arg t.arg).answer [ccOK]

/-- A revocation token (R522). -/
def State.keyRevoke (s : State) (t : Token) : State :=
  if !tokenForm t 0 3 then s.answer [ccMALFORMED]
  else
    match s.tokenBad true t with
    | some r => s.newNonce.tokenDeny r
    | none =>
      let s := s.newNonce
      let fuses := setBits (s.fget F.SEC_STATUS_REVOKED) t.arg t.arg 1
      if fuses = 15 then s.answer [ccREFUSED]
      else (((s.fset F.SEC_STATUS_REVOKED fuses).raise 0xB005 kMODULE 0 t.arg).logRecord 6 t.arg t.arg).answer [ccOK]

/-! ## Firmware update (R516) -/

/-- May an update write a flash device: the one that was not booted, or either in BOOT_FAIL? -/
def State.updatable (s : State) (dev : Nat) : Bool :=
  s.fget F.RST_BOOT_STAGE == 9 || s.fget F.RST_BOOT_SLOT != dev

/-- A firmware update of a device: the image is written, then proven without being executed. -/
def State.firmwareUpdate (s : State) (dev : Nat) (image : List Byte) (writeError : Bool) : State :=
  if !s.updatable dev then s.answer [ccREFUSED]
  else
    let m := s.mgmt
    let s := { s with mgmt := { m with proven := m.proven.filter (· != dev) } }
    if writeError then (s.raise 0xB007 kMODULE 0 (dev + 8 * 2 ^ 8)).answer [ccREFUSED]
    else
      let s := { s with boot := { s.boot with flash := mputs 0xFF s.boot.flash (dev * 2 ^ 26) (image.take (2 ^ 26)) } }
      match s.proveImage dev false with
      | .error e => (s.raise 0xB007 kMODULE 0 (dev + e.1 * 2 ^ 8)).answer [ccREFUSED]
      | .ok _ =>
        let s := { s with mgmt := { s.mgmt with proven := s.mgmt.proven ++ [dev] } }
        (s.raise 0xB006 kMODULE 0 (dev + s.flashNat dev 0x10 4 * 2 ^ 32)).answer [ccOK]

/-! ## Measurements (R519) -/

/-- Measurement i: 1 to 6 are the digests of the booted image's sections of those types (R458). -/
def State.measurement (s : State) (i : Nat) : List Byte :=
  if 1 ≤ i ∧ i ≤ 6 then
    (let d := mget [] s.boot.digests i
     if d.isEmpty then zeros 64 else d)
  else if i = 7 then leBytes 4 (s.fget F.RST_IMAGE_SVN_SVN) ++ leBytes 8 (s.fget F.RST_IMAGE_BUILD_BUILD_ID)
  else if i = 8 then leBytes 1 (s.fget F.RST_TRIM_SET)
  else if i = 9 then
    leBytes 1 (s.fget F.SEC_STATUS_DEBUG) ++ leBytes 1 s.mgmt.slot ++ leBytes 1 (s.fget F.SEC_STATUS_REVOKED)
      ++ leBytes 4 (s.fget F.SEC_SVN_FLOOR_FLOOR) ++ leBytes 1 (s.fget F.MOD_CTRL_LOCK)
  else []

/-! ## Sensors (R515) -/

/-- The reading of a sensor. -/
def State.sensor (s : State) (n : Nat) : Option Nat :=
  if 1 ≤ n ∧ n ≤ 25 then some (s.fget F.FLD_TEMP_TEMP (n - 1))
  else if 26 ≤ n ∧ n ≤ 49 then some (s.fget F.HBMC_TEMP_TEMP (n - 26))
  else if n = 50 then some (s.fget F.PWR_INPUT_W)
  else if n = 51 then some (s.fget F.PWR_VIN_MV)
  else if n = 52 then some (s.fget F.HLTH_STATUS_RISK)
  else if n = 100 then some (s.fget F.PWR_STATUS_STATE)
  else if n = 101 then some (s.fget F.MOD_STATUS_READY)
  else none

end Sys2Proof.Machine
end

