-- ==== Sys2Proof/Machine/Stacks.lean ====
section
/-! DEFINITION. Meanings of the memory stacks' commands (08) that need no other unit. `upsets` names the symbols in error with
which the accesses that a command reads stand (R273): the spec gives no command that puts them there. -/

namespace Sys2Proof.Machine
open Sys2Proof

/-- HBM_READ (R270, R271, R280): the accesses of the first READ that no earlier request meets leave the store or the stack. -/
def execHbmRead (chan : Chan) (upsets : List Upset) (s : State) : Out :=
  match (s.chan chan).nextOf 1 with
  | none => .next s
  | some r =>
    let s := (s.hbmUpset chan r.accs upsets).coalCheck chan r.accs upsets
    let x := s.chan chan
    let get := fun (a : Nat) =>
      match x.coal.find? (fun e => e.acc == a) with
      | some e => { acc := a, data := e.data, poison := e.poison, hit := true : HAcc }
      | none => s.hbmRaw chan a
    let x := r.accs.foldl (fun x a => x.useCoal a id) x
    .next (s.setChan chan { x with
      queue := x.queue.filter (fun q => q.id != r.id)
      decs := x.decs ++ [⟨r, s.clk.cyc, r.accs.map get⟩] })

/-- HBM_WRITE (R268, R277). -/
def execHbmWrite (chan : Chan) (upsets : List Upset) (s : State) : Out :=
  match (s.chan chan).nextOf 2 with
  | none => .next s
  | some r =>
    let s := (s.hbmUpset chan r.accs upsets).coalCheck chan r.accs upsets
    .next ((s.hbmApply chan r).getD s)

/-- HBM_ACCUMULATE (R278 to R280). -/
def execHbmAccumulate (chan : Chan) (upsets : List Upset) (s : State) : Out :=
  match (s.chan chan).nextOf 3 with
  | none => .next s
  | some r =>
    let s := (s.hbmUpset chan r.accs upsets).coalCheck chan r.accs upsets
    .next ((s.hbmApply chan r).getD s)

/-- HBM_READ_COMPLETE (R274, R276): the oldest read leaves the decoder, 9 MCLK after its last beat (6 after acceptance from
the store), and its response header is presented. -/
def execHbmReadComplete (chan : Chan) (s : State) : Out :=
  let x := s.chan chan
  match x.decs with
  | [] => .next s
  | d :: rest =>
    let s := s.setChan chan { x with decs := rest }
    let s := if d.accs.all (·.hit) then s.atCyc (d.req.acc + 6 * mclk) else s.atCyc (d.at_ + 9 * mclk)
    let (s, bytes, bad) := d.accs.foldl (fun acc h =>
      let (s, b, p) := acc.1.hbmDecode chan h 0
      (s, acc.2.1 ++ b, acc.2.2 + b2n p)) (s, ([] : List Byte), 0)
    let s := if bad = 0 then s else s.count .HBMC_POISON_RETURNED bad (chan.val / 32)
    let s := s.monSample 1 (chan.val / 32) 0x1F ((s.clk.cyc - d.req.acc) * 5 / 18)
    let data := (bytes.drop d.req.off).take (d.req.pkt.lenm1 + 1)
    .next (s.rimSend (packetReply d.req.pkt Packet.RDR stOK data (bad != 0)) s.clk.tb)

/-- HBM_REQUEST_TIMEOUT (R271, R287): the oldest request still incomplete at 1,440 MCLK is ended. -/
def execHbmRequestTimeout (chan : Chan) (s : State) : Out :=
  let x := s.chan chan
  let reqs := x.decs.map (·.req) ++ x.queue
  let oldest := reqs.foldl (fun o r => match o with
    | none => some r
    | some q => if r.acc < q.acc then some r else some q) (none : Option HReq)
  match oldest with
  | none => .next s
  | some r =>
    let s := s.atCyc (r.acc + 1440 * mclk)
    let st := chan.val / 32
    let s := s.setChan chan { s.chan chan with
      queue := x.queue.filter (fun q => q.id != r.id), decs := x.decs.filter (fun d => d.req.id != r.id) }
    let s := s.count .HBMC_TIMEOUTS 1 st
    let s := s.hbmErrInfo chan r.first 3 0 0
    let s := s.raiseLim 0x6003 kCHANNEL chan (s.accAddr chan r.first + r.kind * 2 ^ 48)
    let s :=
      if r.kind = 1 then s.rimSend (packetReply r.pkt Packet.RDR stOK (zeros (r.pkt.lenm1 + 1)) true) s.clk.tb
      else r.accs.foldl (fun s a => s.accPut chan a (s.accNow chan a).1 true) s
    let y := s.chan chan
    let n := (if y.tos.1 = s.second then y.tos.2 else 0) + 1
    let s := s.setChan chan { y with tos := (s.second, n) }
    let thr := s.fget F.HBMC_MAPOUT_THR_TIMEOUT st
    .next (if thr ≠ 0 ∧ n = thr then s.stackMapOut st 3 (chan.val % 32) else s)

/-- ECC_WRITEBACK (R275): the oldest write-back slot rewrites its access corrected. -/
def execEccWriteback (chan : Chan) (s : State) : Out :=
  let x := s.chan chan
  match x.wb with
  | [] => .next s
  | a :: rest =>
    let s := s.setChan chan { x with wb := rest }
    .next { s with hbmErr := merase s.hbmErr (accKey chan a) }

/-- PATROL_SCRUB_READ (R275): the scrubber's next access, INTERVAL us of WT after the one before. -/
def execPatrolScrubRead (chan : Chan) (upsets : List Upset) (s : State) : Out :=
  let st := chan.val / 32
  if !s.flag F.HBMC_SCRUB_EN st || s.hState st != hENABLED then .next s
  else
    let x := s.chan chan
    let s := s.atWt (x.scrubWt + s.fget F.HBMC_SCRUB_INTERVAL st * 1000)
    let a := x.scrubPos
    let s := s.hbmUpset chan [a] upsets
    let s := (s.hbmDecode chan (s.hbmRaw chan a) 1).1
    let y := s.chan chan
    .next (s.setChan chan { y with scrubPos := (a + 1) % 41943040, scrubWt := s.clk.wt })

/-- Channels of a stack. -/
def stackChans (st : Nat) : List Nat := (List.range 32).map (32 * st + ·)

/-- A flush begins with the entries that are dirty now (R281). -/
def State.hbmFlush (s : State) (st : Nat) : State :=
  let dirty := (stackChans st).flatMap fun ch => ((s.chan ch).coal.filter (·.dirty)).map fun e => (ch, e.acc)
  let x := s.stack st
  ((s.setStack st { x with flush := dirty }).fset F.HBMC_CTRL_FLUSH 1 st).fset F.HBMC_STATUS_FLUSHING 1 st

/-- HBM_FLUSH_WRITE (R281). -/
def execHbmFlushWrite (stack : Stack) (s : State) : Out := .next (s.hbmFlush stack)

/-- HBM_FLUSH_END (R281): every entry that was dirty at the start has been written back. -/
def execHbmFlushEnd (stack : Stack) (s : State) : Out :=
  if !s.flag F.HBMC_STATUS_FLUSHING stack then .next s
  else
    let x := s.stack stack
    let s := (stackChans stack).foldl (fun s ch => s.coalFlush ch (fun a => x.flush.contains (ch, a))) s
    .next (((s.setStack stack { x with flush := [] }).fset F.HBMC_CTRL_FLUSH 0 stack).fset F.HBMC_STATUS_FLUSHING 0 stack)

/-- HBM_MAPOUT_WRITE (R287). -/
def execHbmMapoutWrite (stack : Stack) (s : State) : Out := .next (s.stackMapOut stack 4 0)

/-- A write of HBMC_CTRL.ENABLE (R283). -/
def State.hbmEnable (s : State) (st : Nat) (v : Bool) : State :=
  let s := s.fset F.HBMC_CTRL_ENABLE (b2n v) st
  let h := s.hState st
  let x := s.stack st
  if v then
    if h = hDISABLED then s.fset F.HBMC_STATUS_STATE hENABLING st
    else if h = hSTOPPING then s.fset F.HBMC_STATUS_ENABLE_PENDING 1 st
    else if h = hENABLING then s.setStack st { x with stopAfter := false }
    else s
  else if h = hENABLED then s.fset F.HBMC_STATUS_STATE hSTOPPING st
  else if h = hENABLING then s.setStack st { x with stopAfter := true }
  else if h = hSTOPPING then s.fset F.HBMC_STATUS_ENABLE_PENDING 0 st
  else s

/-- HBM_ENABLE_WRITE (R283). -/
def execHbmEnableWrite (stack : Stack) (value : Bool) (s : State) : Out := .next (s.hbmEnable stack value)

/-- HBM_ENABLING_END (R282, R283). -/
def execHbmEnablingEnd (stack : Stack) (s : State) : Out :=
  if s.hState stack ≠ hENABLING then .next s
  else
    let x := s.stack stack
    let s := (s.setStack stack { x with stopAfter := false })
    .next (s.fset F.HBMC_STATUS_STATE (if x.stopAfter then hSTOPPING else hENABLED) stack)

end Sys2Proof.Machine
end

