-- ==== Sys2Proof/Machine/RegWrite.lean ====
section
/-! DEFINITION. Register writes (R9 to R23, R47, R49): access codes, presets, and the effect that a write of each register has. Every
path by which a write comes ends in `State.regWrite`. -/

namespace Sys2Proof.Machine
open Sys2Proof

/-! ## Access codes (R14 to R18) -/

/-- May a field be written while LOCK and EXPERT are as given? -/
def Access.writable (a : Access) (lock expert : Bool) : Bool :=
  match a with
  | .RW => true
  | .RWS => true
  | .RWL => !lock
  | .RWX => expert && !lock
  | .W1C => true
  | .W1S => true
  | .RO => false
  | .WO => false
  | .RWN => false

/-- Is a value of a field an encoding that is not reserved (R15)? -/
def FieldDef.accepts (f : FieldDef) (n : Nat) : Bool := f.legal.isEmpty || f.legal.any fun p => decide (p.1 ≤ n ∧ n ≤ p.2)

/-- A register's value after one of its fields has been written with v. -/
def FieldDef.merge (lock expert : Bool) (v : Nat) (old : Nat) (f : FieldDef) : Nat :=
  let o := bits old f.hi f.lo
  let n := bits v f.hi f.lo
  if !f.acc.writable lock expert then old
  else
    match f.acc with
    | .W1C => setBits old f.hi f.lo (o - (o &&& n))
    | .W1S => setBits old f.hi f.lo (o ||| n)
    | _ => if f.accepts n then setBits old f.hi f.lo n else old

def State.locked (s : State) : Bool := s.flag F.MOD_CTRL_LOCK
def State.expert (s : State) : Bool := s.flag F.MOD_CTRL_EXPERT

/-- Value that a register takes from a write of v, by its access codes. -/
def State.merged (s : State) (r : RegRef) (v : Nat) : Nat :=
  r.id.defn.fields.foldl (FieldDef.merge s.locked s.expert v) (s.rd r.id r.i r.j r.k).toNat

/-- The _PROFILE register of a block (R21). -/
def Block.profile : Block → RegId
  | .MOD => .MOD_PROFILE
  | .RST => .RST_PROFILE
  | .CLK => .RST_PROFILE
  | .PWR => .PWR_PROFILE
  | .FLD => .FLD_PROFILE
  | .HBMC => .HBMC_PROFILE
  | .BRIM => .BRIM_PROFILE
  | .RED => .RED_PROFILE
  | .STRM => .STRM_PROFILE
  | .SCALE => .SCALE_PROFILE
  | .TRACT => .TRACT_PROFILE
  | .HOST => .HOST_PROFILE
  | .MGMT => .MGMT_PROFILE
  | .HLTH => .HLTH_PROFILE
  | .EP => .EP_PROFILE
  | .MX => .MX_PROFILE
  | .VX => .VX_PROFILE
  | .SP => .SP_PROFILE
  | .FB => .FB_PROFILE
  | .STP => .STP_PROFILE

/-- Instance of a block that holds the _PROFILE register: each core has its own (R46), the other blocks have one. -/
def profileInstance (b : Block) (i : Nat) : Nat := if coreBlock b || b == .FB then i else 0

/-- PRESET takes a value; the field is the same in every _PROFILE register (R21). -/
def State.setPreset (s : State) (b : Block) (i p : Nat) : State := s.fset ⟨b.profile, 3, 0⟩ p (profileInstance b i)

/-- Has a register an RWX field? -/
def RegId.hasRWX (r : RegId) : Bool := r.defn.fields.any fun f => f.acc == .RWX

/-- A register is written by its access codes; a write that an RWX register accepts makes the block's PRESET CUSTOM (R23). -/
def State.regStore (s : State) (r : RegRef) (v : Nat) : State :=
  let s' := s.wr r.id (BitVec.ofNat 64 (s.merged r v)) r.i r.j r.k
  if r.id.hasRWX && s.expert && !s.locked then s'.setPreset r.id.defn.blk r.i 0xF else s'

/-! ## Presets (R21 to R23) -/

/-- Fields of the BRIM presets (R374) in all six instances: RTB, HOP_LIMIT, WT_TRANSIT. -/
def State.brimPreset (s : State) (rtb hops transit : Nat) : State :=
  let s := (List.range 6).foldl (fun s p =>
    (((s.fset F.BRIM_CFG_RTB rtb p).fset F.BRIM_CFG_HOP_LIMIT hops p).fset F.BRIM_ARB_WT_LOCAL 1 p).fset
      F.BRIM_ARB_WT_TRANSIT transit p) s
  s.fset F.BRIM_TIME_PERIOD_MS 1

/-- The HBMC presets (R289). -/
def State.hbmPreset (s : State) (group glog scrub : Nat) : State :=
  let s := (s.fset F.HBMC_ILV_GROUP group).fset F.HBMC_ILV_GLOG glog
  (List.range 24).foldl (fun s st =>
    (((s.fset F.HBMC_SCRUB_EN scrub st).fset F.HBMC_SCRUB_INTERVAL 2000 st).fset F.HBMC_MAPOUT_THR_UE 64 st).fset
      F.HBMC_MAPOUT_THR_TIMEOUT 16 st) s

/-- The TRACT presets (R200). -/
def State.tractPreset (s : State) (extra tag bar : Nat) : State :=
  (List.range 16).foldl (fun s t =>
    ((s.fset F.TRACT_BAR_SLACK_EXTRA extra t).fset F.TRACT_TAG_TIMEOUT_US tag t).fset F.TRACT_BAR_TIMEOUT_MS bar t) s

/-- STRM_RK_CAP as it stands holds until the present 10 us interval ends (R332). -/
def State.capHeld (s : State) : State :=
  { s with rack := { s.rack with capHold := some (s.rkCap, s.clk.wt / 10000) } }

/-- Health settings as they stand hold until the present 10 ms interval ends (R427). -/
def State.hlthHeld (s : State) : State :=
  let now := s.clk.wt / 10000000
  let h := s.hlth
  let held := match h.heldUntil with
    | some k => decide (now ≤ k)
    | none => false
  if held then s
  else
    { s with hlth := { h with
        heldUntil := some now
        heldW := (List.range 128).foldl (fun m j => mput (presetWeightWord j) m j (s.rd .HLTH_WEIGHT_W 0 j).toNat) []
        heldCfg := (s.rd .HLTH_CFG).toNat, heldLoss := (s.rd .HLTH_LOSS_CFG).toNat
        heldStrikes := s.fget F.HLTH_CORE_CFG_STRIKES } }

/-- The HLTH presets (R427). -/
def State.hlthPreset (s : State) (thr strikes factor : Nat) : State :=
  let s := s.hlthHeld
  let s := (List.range 128).foldl (fun s j => s.wr .HLTH_WEIGHT_W (BitVec.ofNat 64 (presetWeightWord j)) 0 j) s
  let s := ((s.fset F.HLTH_CFG_RACK_THRESHOLD thr).fset F.HLTH_CFG_DSHIFT 4).fset F.HLTH_CFG_NF_W 4
  let s := (s.fset F.HLTH_CFG_SPIKE_W 96).fset F.HLTH_CORE_CFG_STRIKES strikes
  ((s.fset F.HLTH_LOSS_CFG_FACTOR factor).fset F.HLTH_LOSS_CFG_ALOG 4).fset F.HLTH_LOSS_CFG_WARM 16

/-- The PWR presets (R490). -/
def State.pwrPreset (s : State) (hyst down delta ms : Nat) : State :=
  (((s.fset F.PWR_GOV_HYST hyst).fset F.PWR_GOV_DOWN_N down).fset F.THERM_CFG_UNPARK_DELTA delta).fset F.THERM_CFG_UNPARK_MS ms

/-- The RED presets (R405). -/
def State.redPreset (s : State) (en vlog : Nat) : State :=
  (((s.fset F.RED_VFY_EN en).fset F.RED_VFY_VLOG vlog).fset F.RED_VFY_VTAU 16).fset F.RED_VFY_PROF 1

/-- The SP presets (R212, R213, R226): the plan waits to take effect. -/
def State.spPreset (s : State) (c lo hi : Nat) : State :=
  let s := (s.fset F.SP_PLAN_LO_ENTRIES lo c).fset F.SP_PLAN_HI_ENTRIES hi c
  let x := s.spCore c
  s.setSp c { x with planWait := true }

/-- Preset p of a block loaded into its RWX registers; nothing where the owning chapter leaves it undefined. -/
def State.presetLoad (s : State) (b : Block) (i p : Nat) : Option State :=
  match b, p with
  | .MX, 0 => some (s.wr .MX_CHECK (BitVec.ofNat 64 (64 + 30)) i)
  | .MX, 1 => some (s.wr .MX_CHECK (BitVec.ofNat 64 (64 + 34)) i)
  | .MX, 2 => some (s.wr .MX_CHECK (BitVec.ofNat 64 (64 + 24)) i)
  | .MX, 3 => some (s.wr .MX_CHECK (BitVec.ofNat 64 30) i)
  | .TRACT, 0 => some (s.tractPreset 0 1000 250)
  | .TRACT, 1 => some (s.tractPreset 1024 10000 2000)
  | .TRACT, 2 => some (s.tractPreset 0 100 25)
  | .SP, 0 => some (s.spPreset i 0xB29A_8315 0x6C97_8345)
  | .SP, 1 => some (s.spPreset i 0xB28A_3815 0x6C89_7845)
  | .SP, 2 => some (s.spPreset i 0xB2A1_9435 0x6C78_9435)
  | .SP, 3 => some (s.spPreset i 0xB231_7CA5 0x6948_7CA5)
  | .FB, 0 => some (s.fset F.FB_MERGE_MERGE_EN 1 i)
  | .FB, 1 => some (s.fset F.FB_MERGE_MERGE_EN 0 i)
  | .HBMC, 0 => some (s.hbmPreset 0 8 1)
  | .HBMC, 1 => some (s.hbmPreset 1 8 1)
  | .HBMC, 2 => some (s.hbmPreset 0 12 1)
  | .HBMC, 3 => some (s.hbmPreset 0 8 0)
  | .STRM, 0 => some ((s.capHeld.fset F.STRM_RK_CAP_BRIM_PCT 10).fset F.STRM_RK_CAP_HOST_PCT 10)
  | .STRM, 1 => some ((s.capHeld.fset F.STRM_RK_CAP_BRIM_PCT 5).fset F.STRM_RK_CAP_HOST_PCT 5)
  | .STRM, 2 => some ((s.capHeld.fset F.STRM_RK_CAP_BRIM_PCT 25).fset F.STRM_RK_CAP_HOST_PCT 25)
  | .BRIM, 0 => some (s.brimPreset 32 12 1)
  | .BRIM, 1 => some (s.brimPreset 32 12 4)
  | .BRIM, 2 => some (s.brimPreset 128 12 1)
  | .BRIM, 3 => some (s.brimPreset 32 3 1)
  | .RED, 0 => some (s.redPreset 1 12)
  | .RED, 1 => some (s.redPreset 1 8)
  | .RED, 2 => some (s.redPreset 1 16)
  | .RED, 3 => some (s.redPreset 0 12)
  | .HLTH, 0 => some (s.hlthPreset 128 8 0x20)
  | .HLTH, 1 => some (s.hlthPreset 64 4 0x20)
  | .HLTH, 2 => some (s.hlthPreset 192 8 0x30)
  | .HLTH, 3 => some (s.hlthPreset 255 8 0x20)
  | .PWR, 0 => some (s.pwrPreset 5 10 10 1)
  | .PWR, 1 => some (s.pwrPreset 10 100 10 1)
  | .PWR, 2 => some (s.pwrPreset 5 10 15 10)
  | .MOD, 0 => some s
  | .RST, 0 => some s
  | .CLK, 0 => some s
  | .FLD, 0 => some s
  | .SCALE, 0 => some s
  | .HOST, 0 => some s
  | .MGMT, 0 => some s
  | .EP, 0 => some s
  | .VX, 0 => some s
  | .STP, 0 => some s
  | _, _ => none

/-- A write of PRESET (R22, R23): nothing while LOCK is 1 or where the preset is undefined. -/
def State.presetWrite (s : State) (b : Block) (i p : Nat) : State :=
  if s.locked then s
  else
    match s.presetLoad b i p with
    | none => s
    | some s => s.setPreset b i p

/-! ## Effects of particular registers -/

/-- A write of MOD_EVT_RD (R49); vector 0 is signalled where the ring is left non-empty (R498). -/
def State.evtRdWrite (s : State) (v : Nat) : State :=
  let wr := s.fget F.MOD_EVT_WR_INDEX
  let left := fun (rd : Nat) => (wr + 8192 - rd % 8192) % 8192
  if left v ≤ left (s.fget F.MOD_EVT_RD_INDEX) then
    (let s := s.fset F.MOD_EVT_RD_INDEX (v % 8192)
     if left v = 0 then s else s.msix 0)
  else s

/-- A write of TRACT_CTRL (R547): FREE, then LOAD, then ENABLE. -/
def State.tractCtrl (s : State) (t v : Nat) : State :=
  let s := if bit v 1 then s.tractFree t else s
  let s := if bit v 2 then s.tractLoad t else s
  if bit v 0 then s.tractEnable t else s.tractOff t

/-- A write of RST_WDOG (R443): the write that sets EN restarts the count. -/
def State.wdogWrite (s : State) (r : RegRef) (v : Nat) : State :=
  let was := s.flag F.RST_WDOG_EN
  let s := s.regStore r v
  if !was && s.flag F.RST_WDOG_EN then s.wdogKick else s

/-- A write of HBMC_CTRL (R281, R283, R287): FLUSH, then MAPOUT, then ENABLE. -/
def State.hbmCtrl (s : State) (st v : Nat) : State :=
  let s := if bit v 2 then s.hbmFlush st else s
  let s := if bit v 1 then s.stackMapOut st 4 0 else s
  s.hbmEnable st (bit v 0)

/-- A write of STRM_GS_CTRL (R304): the other fields only while the stream is DISABLED, then ENABLE. -/
def State.gsCtrl (s : State) (r : RegRef) (v : Nat) : State :=
  let old := s.fget F.STRM_GS_CTRL_ENABLE 0 r.j
  let s := if s.gsState r.j = gsDISABLED then s.regStore r (setBits v 0 0 old) else s
  s.gsEnable r.j (bit v 0)

/-- Are the Racking fields open to writes (R331)? -/
def State.rkOpenToWrites (s : State) : Bool := s.rkState == rkDISABLED || s.rkState == rkIDLE

/-- A write of STRM_RK_CTRL (R323, R331). -/
def State.rkCtrl (s : State) (v : Nat) : State :=
  let s := if s.rkOpenToWrites then (s.fset F.STRM_RK_CTRL_TGT_HOST (bits v 2 2)).fset F.STRM_RK_CTRL_TGT_CASK (bits v 1 1) else s
  let s := if bit v 3 then s.fset F.STRM_RK_CTRL_NOW 1 else s
  s.rkEnable (bit v 0)

/-- A write of RED_WIN_CTRL (R379): the other fields only while the window is DISABLED, then ENABLE. -/
def State.winCtrl (s : State) (r : RegRef) (v : Nat) : State :=
  let old := s.fget F.RED_WIN_CTRL_ENABLE 0 r.j
  let s := if s.winState r.j = wDISABLED then s.regStore r (setBits v 0 0 old) else s
  s.winEnable r.j (bit v 0)

/-- Is any reduction window OPEN or CLOSING (R406)? -/
def State.winsBusy (s : State) : Bool :=
  (List.range 1024).any fun w => s.winState w == wOPEN || s.winState w == wCLOSING

/-- A write of BRIM_FLOW[k] (R15, R369). -/
def State.flowReg (s : State) (r : RegRef) (v : Nat) : State :=
  let m := s.merged r v
  s.bFlowWrite r.i r.j (bit m 31) (bits m 17 8) (bits m 7 0)

/-- A write of MON_CTRL (R527, R528). -/
def State.monCtrl (s : State) (r : RegRef) (v : Nat) : State :=
  let m := s.merged r v
  let s := s.fset F.MON_CTRL_FREEZE (bits m 30 30) 0 r.j
  let s := s.monSelect r.j (bits m 3 0) (bits m 13 4)
  if bit v 31 then s.monClear r.j else s

/-- Does the prefetch ring keep to R333, with STP_PF_CFG and STP_PF_BUF as given? -/
def ringOk (cfg buf : Nat) : Bool :=
  let pd := bits cfg 2 0 + 1
  decide (bits buf 16 0 + pd * (8 * bits buf 30 17) ≤ 81920) && decide (bits cfg 13 8 + pd ≤ 64)

/-- The stream-port settings of a core in no tract take effect at once (R312, R333). -/
def State.stpNow (s : State) (c : Nat) : State :=
  if (s.slotOf c).isSome then s
  else
    let base := s.fget F.STP_SAVE_BASE_ADDR c * 64
    let x := s.stpc c
    let s := s.setStp c { x with
      base := base, limit := s.fget F.STP_SAVE_LIMIT_ADDR c * 64, pfCfg := (s.rd .STP_PF_CFG c).toNat
      pfBuf := (s.rd .STP_PF_BUF c).toNat }
    if x.base = base then s else s.fset F.STP_SAVE_TOP_ADDR (base / 64) c

/-- A write of STP_PF_CFG or STP_PF_BUF: a ring that breaks R333 is a reserved encoding. -/
def State.ringWrite (s : State) (r : RegRef) (v : Nat) : State :=
  let m := s.merged r v
  let cfg := if r.id = .STP_PF_CFG then m else (s.rd .STP_PF_CFG r.i).toNat
  let buf := if r.id = .STP_PF_BUF then m else (s.rd .STP_PF_BUF r.i).toNat
  if ringOk cfg buf then (s.regStore r v).stpNow r.i else s

/-- A write of SP_PLAN_LO or SP_PLAN_HI (R213): an accepted one waits to take effect. -/
def State.planWrite (s : State) (r : RegRef) (v : Nat) : State :=
  let ok := s.expert && !s.locked
  let s := s.regStore r v
  if ok then (let x := s.spCore r.i; s.setSp r.i { x with planWait := true }) else s

/-- A write of STRM_RK_CAP (R331, R332). -/
def State.capWrite (s : State) (r : RegRef) (v : Nat) : State :=
  if s.rkOpenToWrites && s.expert && !s.locked then s.capHeld.regStore r v else s

/-- A write of PWR_CTRL (R469, R470). -/
def State.pwrCtrl (s : State) (v : Nat) : State := (s.fset F.PWR_CTRL_AUTO_SIMMER (bits v 4 4)).powerTarget (bits v 1 0)

/-- A write of FLD_CTRL (R482, R484). -/
def State.fldCtrl (s : State) (f v : Nat) : State := (if bit v 1 then s.maxClear f else s).parkWrite f (bit v 0)

/-- A write of BRIM_CTRL (R339, R340): ENABLE, then RETRAIN. -/
def State.brimCtrl (s : State) (p v : Nat) : State :=
  let s := s.bEnable p (bit v 0)
  if bit v 1 then s.bRetrain p 5 else s

/-! ## The write of a register -/

/-- A register is written whole with v (R10, R12), by a path that matters to RST_CMD alone (R442). -/
def State.regWrite (s : State) (path : CmdPath) (r : RegRef) (v : Nat) : State :=
  if r.id = r.id.defn.blk.profile then s.presetWrite r.id.defn.blk r.i (bits v 3 0)
  else
    match r.id with
    | .MOD_EVT_RD => s.evtRdWrite (bits v 12 0)
    | .RST_CMD => s.rstCmd path (bits v 31 24) (bits v 23 20) (bit v 15) (bits v 14 0)
    | .RST_WDOG => s.wdogWrite r v
    | .RST_WDOG_KICK => s.wdogKick
    | .RST_TRIM => if bit v 8 then s.fset F.RST_TRIM_FAILS 0 else s
    | .PWR_CTRL => s.pwrCtrl v
    | .PWR_PENV => s.rwnWrite 1 (bits v 7 0)
    | .THERM_PARK_OFS => s.rwnWrite 2 (bits v 4 0)
    | .SEC_SVN_FLOOR => s.rwnWrite 3 (bits v 31 0)
    | .SEC_ID_GEN => s.rwnWrite 4 (bits v 2 0)
    | .FLD_CTRL => s.fldCtrl r.i v
    | .HBMC_CTRL => s.hbmCtrl r.i v
    | .BRIM_CTRL => s.brimCtrl r.i v
    | .BRIM_TIME => (s.regStore r v).timeRoot (s.flag F.BRIM_TIME_ROOT)
    | .BRIM_FLOW => s.flowReg r v
    | .RED_CTRL => (s.regStore r v).syncBegin
    | .RED_STEP_PERIOD => if s.flag F.RED_CTRL_SCHED then s else s.regStore r v
    | .RED_STEP_NEXT => if s.flag F.RED_CTRL_SCHED then s else s.regStore r v
    | .RED_STEP_COUNT => if s.flag F.RED_CTRL_SCHED || s.winsBusy then s else s.regStore r v
    | .RED_RID => if r.j = 0 then s else s.regStore r v
    | .RED_WIN_CTRL => s.winCtrl r v
    | .RED_WIN_DEADLINE => if s.winState r.j = wDISABLED then s.regStore r v else s
    | .RED_WIN_K => if s.winState r.j = wDISABLED then s.regStore r v else s
    | .RED_WIN_BASE => if s.winState r.j = wDISABLED then s.regStore r v else s
    | .RED_WIN_OUT => if s.winState r.j = wDISABLED then s.regStore r v else s
    | .RED_WIN_CNT => if s.winState r.j = wDISABLED then s.regStore r v else s
    | .RED_WIN_VBASE => if s.winState r.j = wDISABLED then s.regStore r v else s
    | .RED_WIN_SIZE => if s.winState r.j = wDISABLED then s.regStore r v else s
    | .RED_WIN_EXPECT => if s.winState r.j = wDISABLED then s.regStore r v else s
    | .RED_WIN_NOTIFY => if s.winState r.j = wDISABLED then s.regStore r v else s
    | .STRM_RK_CTRL => s.rkCtrl v
    | .STRM_RK_CAP => s.capWrite r v
    | .STRM_RK_PERIOD => if s.rkOpenToWrites then s.regStore r v else s
    | .STRM_RK_CASK_MID => if s.rkOpenToWrites then s.regStore r v else s
    | .STRM_RK_CASK_BASE => if s.rkOpenToWrites then s.regStore r v else s
    | .STRM_RK_HOST_BASE => if s.rkOpenToWrites then s.regStore r v else s
    | .STRM_RK_BANK_LEN => if s.rkOpenToWrites then s.regStore r v else s
    | .STRM_RK_MAP_BASE => if s.rkOpenToWrites then s.regStore r v else s
    | .STRM_RK_RBASE => if s.rkOpenToWrites then s.regStore r v else s
    | .STRM_RK_RLEN => if s.rkOpenToWrites then s.regStore r v else s
    | .STRM_GS_CTRL => s.gsCtrl r v
    | .STRM_GS_MARGIN => if s.gsState r.j = gsDISABLED then s.regStore r v else s
    | .STRM_GS_DST => if s.gsState r.j = gsDISABLED then s.regStore r v else s
    | .STRM_GS_LTAB => if s.gsState r.j = gsDISABLED then s.regStore r v else s
    | .STRM_GS_NLAYERS => if s.gsState r.j = gsDISABLED then s.regStore r v else s
    | .TRACT_CTRL => s.tractCtrl r.i v
    | .TRACT_ORIGIN => if s.tstate r.i = tFREE then s.regStore r v else s
    | .TRACT_SIZE => if s.tstate r.i = tFREE then s.regStore r v else s
    | .TRACT_MODE => if s.tstate r.i = tFREE then s.regStore r v else s
    | .TRACT_ENTRY => if s.tstate r.i = tFREE then s.regStore r v else s
    | .TRACT_SWAP_BASE => if s.tstate r.i = tFREE then s.regStore r v else s
    | .TRACT_CODE => if s.tstate r.i = tFREE then s.regStore r v else s
    | .TRACT_TWIN_BASE => if s.tstate r.i = tFREE then s.regStore r v else s
    | .TRACT_TWIN_LEN => if s.tstate r.i = tFREE then s.regStore r v else s
    | .HOST_IN_GO => s.intakeGo r.j (bits v 31 0)
    | .HOST_IN_REL => s.intakeRelease r.j (bits v 31 0)
    | .MON_CTRL => s.monCtrl r v
    | .HLTH_LOSS => s.lossWrite (bits v 31 0)
    | .HLTH_LOSS_CFG =>
      let s := s.regStore r (setBits v 31 31 0)
      if bit v 31 then s.lossClear else s
    | .HLTH_NF_ADD => s.nonfinite (bits v 31 0)
    | .HLTH_CORE_FAIL => s.coreFailWrite (bit v 31) (bits v 14 0)
    | .EP_ARRIVE => s.setArrive r.i r.j (bits v 31 0)
    | .MX_CTRL => (s.fset F.MX_CTRL_SAT_EVT (bits v 1 1) r.i).mxEnable r.i (bit v 0)
    | .VX_CTRL => (s.regStore r (setBits v 0 0 (s.fget F.VX_CTRL_ENABLE r.i))).vxEnable r.i (bit v 0)
    | .STP_CTRL => s.stpEnable r.i (bit v 0)
    | .SP_PLAN_LO => s.planWrite r v
    | .SP_PLAN_HI => s.planWrite r v
    | .SP_BIST => if bit v 0 then s.bistStart r.i else s
    | .STP_PF_CFG => s.ringWrite r v
    | .STP_PF_BUF => s.ringWrite r v
    | .STP_SAVE_BASE => (s.regStore r v).stpNow r.i
    | .STP_SAVE_LIMIT => (s.regStore r v).stpNow r.i
    | _ => s.regStore r v

/-! ## Windows -/

/-- A write of word w of the MSI-X table (PCI Express). -/
def State.msixWrite (s : State) (w v : Nat) : State :=
  if w % 4 = 3 then
    (let m := s.host.msixMask.filter (· != w / 4)
     ({ s with host := { s.host with msixMask := if bit v 0 then m ++ [w / 4] else m } } : State).msixFlush)
  else { s with host := { s.host with msixTab := mput 0 s.host.msixTab w v } }

/-- A write of the word at offset o of the job table (R499, R500). -/
def State.jobWrite (s : State) (o v : Nat) : State :=
  let j := o / jobBytes
  let f := o % jobBytes
  if s.jobOwner j = 1 ∨ f = 8 ∨ f = 0xC ∨ f = 0x10 then s
  else if f = 0 then (if bit v 0 then s.jobOwnerWrite j else s.jobPut j 0 (leBytes 4 0))
  else s.jobPut j f (leBytes 4 v)

/-- A write of the word at a BAR0 offset of a window. -/
def State.windowWrite (s : State) (a v : Nat) : State :=
  if 0x380_2000 ≤ a ∧ a < 0x380_2400 then s.msixWrite ((a - 0x380_2000) / 4) v
  else if 0x381_0000 ≤ a ∧ a < 0x382_0000 then s.jobWrite (a - 0x381_0000) v
  else s

/-! ## Accesses (R10, R12) -/

/-- A 4-byte write to the low word of a 64-bit register that is no counter is held (R12). -/
def State.lowWrite (s : State) (r : RegRef) (v : Nat) : State := { s with wHold := mput 0 s.wHold r.addr (v + 1) }

/-- A 4-byte write to the high word sets the whole register, from the held low word or the present one (R12). -/
def State.highWrite (s : State) (path : CmdPath) (r : RegRef) (v : Nat) : State :=
  let h := mget 0 s.wHold r.addr
  let low := if h = 0 then (s.rd r.id r.i r.j r.k).toNat % 2 ^ 32 else h - 1
  ({ s with wHold := merase s.wHold r.addr } : State).regWrite path r (v * 2 ^ 32 + low)

/-- A write of the 4 bytes at offset a, and whether some block defines the offset. -/
def State.writeWord (s : State) (path : CmdPath) (a v : Nat) : State × Bool :=
  match regAt a with
  | none => (s.windowWrite a v, (s.windowWord a).isSome)
  | some r =>
    if !r.id.defn.wide then (s.regWrite path r v, true)
    else if r.id.defn.counter then (s, true)
    else if a = r.addr then (s.lowWrite r v, true)
    else (s.highWrite path r v, true)

/-- A write of the 8 bytes at offset a, a multiple of 8: a 64-bit register or counter, or two words of a window. -/
def State.writeWide (s : State) (path : CmdPath) (a v : Nat) : State × Bool :=
  match regAt a with
  | none => ((s.windowWrite a (v % 2 ^ 32)).windowWrite (a + 4) (v / 2 ^ 32), (s.windowWord a).isSome)
  | some r => if r.id.defn.wide then (s.regWrite path r v, true) else (s, true)

end Sys2Proof.Machine
end

