-- ==== Sys2Proof/Machine/Access.lean ====
section
/-! DEFINITION. Meanings of the commands that access registers: host writes (R10, R12, R17, R22, R49), the Epru's CSRR and CSRW
(R163), fabric REGRD and REGWR (R162, R251), count-limited settings (R524). -/

namespace Sys2Proof.Machine
open Sys2Proof

/-! ## Host and register-space writes (R10, R47) -/

/-- An access by BAR0 that the host makes (R464, R476): it reaches the block that holds the offset, or is discarded. -/
def State.hostMay (s : State) (a : Nat) : Bool :=
  match blockOf a with
  | none => false
  | some b => s.hostReach b

/-- A write of 4 or 8 bytes at offset a (R10): by the host, or through the register space, where an offset that no block defines is
unbacked (R47, R251). -/
def State.busWrite (s : State) (host wide : Bool) (a v : Nat) : State :=
  if host && !s.hostMay a then s
  else
    let (s', found) := if wide then s.writeWide .bar0 a v else s.writeWord .bar0 a v
    if found || host then s' else s.raiseLim 0x5001 kMODULE 0 (regWindow + a)

/-- REGISTER_WRITE (R10, R12, R15, R47): byte enables `be` of the 8 bytes at offset 8 × lane. Accepted are the four bytes of a 32-bit
register or of a half of a 64-bit register that is no counter, and the eight bytes of a 64-bit register or counter. -/
def execRegisterWrite (lane : BitVec 24) (be : BitVec 8) (data : BitVec 64) (host : Bool) (s : State) : Out :=
  let a := 8 * lane.toNat
  let v := data.toNat
  if be = 0xFF then .next (s.busWrite host true a v)
  else if be = 0x0F then .next (s.busWrite host false a (v % 2 ^ 32))
  else if be = 0xF0 then .next (s.busWrite host false (a + 4) (v / 2 ^ 32))
  else .next s

/-- The 64-bit register that is no counter at offset 8 × lane. -/
def splitReg (lane : BitVec 24) : Option RegRef :=
  match regAt (8 * lane.toNat) with
  | none => none
  | some r => if r.id.defn.wide && !r.id.defn.counter && decide (8 * lane.toNat = r.addr) then some r else none

/-- SPLIT_LOW_WORD_WRITE (R12). -/
def execSplitLowWordWrite (lane : BitVec 24) (low : BitVec 32) (s : State) : Out :=
  match splitReg lane with
  | none => .next s
  | some r => .next (s.lowWrite r low.toNat)

/-- SPLIT_HIGH_WORD_WRITE (R12). -/
def execSplitHighWordWrite (lane : BitVec 24) (high : BitVec 32) (s : State) : Out :=
  match splitReg lane with
  | none => .next s
  | some r => .next (s.highWrite .bar0 r high.toNat)

/-- MOD_LOCK_WRITE (R17). -/
def execModLockWrite (s : State) : Out := .next (s.fset F.MOD_CTRL_LOCK 1)

/-- PROFILE_PRESET_WRITE (R22, R23): the _PROFILE register at a BAR0 offset. -/
def execProfilePresetWrite (offset : BitVec 27) (preset : Fin 16) (s : State) : Out :=
  match regAt offset.toNat with
  | none => .next s
  | some r => .next (if r.id = r.id.defn.blk.profile then s.presetWrite r.id.defn.blk r.i preset else s)

/-- EVT_RD_WRITE (R49). -/
def execEvtRdWrite (index : BitVec 13) (s : State) : Out := .next (s.evtRdWrite index.toNat)

/-- RWN_WRITE (R19, R524): setting id 1 to 4 (here 0 to 3) and the value written to its field. -/
def execRwnWrite (setting : Fin 4) (value : BitVec 32) (s : State) : Out :=
  let f := rwnField (setting.val + 1)
  .next (s.rwnWrite (setting.val + 1) (bits value.toNat (f.hi - f.lo) 0))

/-- RWN_COMMIT (R524): the setting that waits first. -/
def execRwnCommit (s : State) : Out := .next s.rwnCommit

/-! ## CSRR and CSRW (R163) -/

/-- BAR0 offset of a core's own CORE block. -/
def coreBase (c : Nat) : Nat := 0x400_0000 + 0x800 * c

/-- What CSRR reads: all 64 bits at the low word of a 64-bit register or counter, that word alone elsewhere, 0 where no register is
defined. -/
def State.csrRead (s : State) (a : Nat) : State × Nat :=
  match regAt a with
  | some r => if r.id.defn.wide && decide (a = r.addr) then (s, s.regValue r) else (let (s, v) := s.readWord a; (s, v.getD 0))
  | none => (s, 0)

/-- What CSRW writes. -/
def State.csrWrite (s : State) (a v : Nat) : State :=
  match regAt a with
  | some r =>
    if r.id.defn.wide && decide (a = r.addr) then s.regWrite .bar0 r v else (s.writeWord .bar0 a (v % 2 ^ 32)).1
  | none => s

/-- CSRR (R163, R164). -/
def execCsrr (core : Core) (rd : RegNo) (offset : BitVec 11) (s : State) : Out :=
  match s.epBegin core [] with
  | none => .next s
  | some s =>
    if offset.toNat % 4 ≠ 0 then .next (s.epException core)
    else
      let (s, v) := s.csrRead (coreBase core + offset.toNat)
      .next ((s.setG core rd v (s.clk.tb + 8)).epDone core 1)

/-- CSRW (R163, R164). -/
def execCsrw (core : Core) (ra : RegNo) (offset : BitVec 11) (s : State) : Out :=
  match s.epBegin core [ra] with
  | none => .next s
  | some s =>
    if offset.toNat % 4 ≠ 0 then .next (s.epException core)
    else .next ((s.csrWrite (coreBase core + offset.toNat) (s.g core ra)).epDone core 1)

/-! ## REGRD and REGWR (R162, R251) -/

/-- BAR0 offset that a register-space address names, at its 4-byte word. -/
def regOffset (addr : Nat) : Nat := (addr - regWindow) / 4 * 4

/-- The path by which a fabric register write comes (R442): a program's counts as BAR0 (R162). -/
def regPath (src : Nat) : CmdPath :=
  if h : 0x8400 ≤ src ∧ src < 0x8406 then .brim ⟨src - 0x8400, by omega⟩ else .bar0

/-- The REGR of an endpoint, in the NCLK after it acts: from a CORE slot or from REG. -/
def State.regReply (s : State) (p a : Packet) : State :=
  if p.dest < 18000 then s.inject p.dest a (s.clk.tb + 2) else s.rimSend a (s.clk.tb + 2)

/-- A REGRD or REGWR is at its endpoint; whether the endpoint acts on it (R252). -/
def State.regTake (s : State) (p : Packet) : State × Bool :=
  if p.dest < 18000 then s.atPort p.dest p else if p.dest = destReg then (s.take p (.rim destReg), true) else (s, false)

/-- REGRD_DELIVER (R162, R251). -/
def execRegrdDeliver (packet : Packet) (s : State) : Out :=
  if packet.typ ≠ Packet.REGRD then .next s
  else
    let (s, ok) := s.regTake packet
    if !ok then .next s
    else
      let (s, v) := s.readWord (regOffset packet.addr)
      match v with
      | some v => .next (s.regReply packet (packetReply packet Packet.REGR stOK (leBytes 4 v)))
      | none =>
        let s := s.raiseLim 0x5001 kMODULE 0 packet.addr
        .next (s.regReply packet (packetReply packet Packet.REGR stADDRESS (zeros 4)))

/-- REGWR_DELIVER (R162, R251, R442). -/
def execRegwrDeliver (packet : Packet) (s : State) : Out :=
  if packet.typ ≠ Packet.REGWR then .next s
  else
    let (s, ok) := s.regTake packet
    if !ok then .next s
    else
      let (s, found) := s.writeWord (regPath packet.src) (regOffset packet.addr) (leNat (packet.data.take 4))
      if found then .next (s.regReply packet (packetReply packet Packet.REGR stOK))
      else
        let s := s.raiseLim 0x5001 kMODULE 0 packet.addr
        .next (s.regReply packet (packetReply packet Packet.REGR stADDRESS))

end Sys2Proof.Machine
end

