-- ==== Sys2Proof/Machine/Host.lean ====
section
/-! DEFINITION. Meanings of the host interface's commands (15) but the job table's. -/

namespace Sys2Proof.Machine
open Sys2Proof

/-! ## BAR2 (R494, R495) -/

/-- BAR2_READ (R464, R476, R492, R494): completions carry status 0, 1 unsupported request, 4 completer abort. -/
def execBar2Read (tag : Fin 16384) (offset : BitVec 41) (n : Fin 4097) (s : State) : Out :=
  let a := s.bar2Addr offset.toNat
  if !s.hostUp || n.val == 0 then .next s
  else if s.host.d3hot then .next (s.hostDone tag 1 [] false)
  else if !s.windowsOpen then .next (s.hostDone tag 4 [] false)
  else if !s.inStacks a n then .next ((s.unbackedModule a).hostDone tag 4 [] false)
  else
    let ps := (cutAt s.stackCut a n).map fun c => s.stackPacket Packet.RD (a + c.1) c.2 [] false
    .next (s.hostRequest tag n false false ps)

/-- BAR2_WRITE (R268, R277, R494): `be` are the byte enables. -/
def execBar2Write (offset : BitVec 41) (data : List Byte) (be : List Bool) (poison : Bool) (s : State) : Out :=
  let a := s.bar2Addr offset.toNat
  let n := data.length
  if !s.hostUp || n == 0 || s.host.d3hot || !s.windowsOpen then .next s
  else if !s.inStacks a n then .next (s.unbackedModule a)
  else
    let ps := (enabledRuns (be.take n)).flatMap fun r =>
      (cutAt s.stackCut (a + r.1) r.2).map fun c =>
        s.stackPacket Packet.WR (a + r.1 + c.1) c.2 ((data.drop (r.1 + c.1)).take c.2) poison
    .next (s.hostRequest 0 n false true ps)

/-! ## BAR4 (R225) -/

/-- BAR4_READ (R225, R475). -/
def execBar4Read (tag : Fin 16384) (offset : BitVec 34) (n : Fin 4097) (s : State) : Out :=
  let c := s.bar4Core offset.toNat
  let b := offset.toNat % slotBytes
  if !s.hostUp || n.val == 0 then .next s
  else if s.host.d3hot then .next (s.hostDone tag 1 [] false)
  else if !s.windowsOpen || !s.flag F.PWR_STATUS_CORES_READY then .next (s.hostDone tag 4 [] false)
  else if 18000 ≤ c ∨ 0x50_0000 < b + n then
    .next ((s.unbackedModule (spWindow + c * slotBytes + b)).hostDone tag 4 [] false)
  else if !s.rowAvail c then .next ((s.spBadAccess c 3).hostDone tag 4 [] false)
  else
    let ps := (cutAt 512 b n).map fun k => rowPacket Packet.RD c (b + k.1) k.2 []
    .next (s.hostRequest tag n true false ps)

/-- BAR4_WRITE (R225): whole aligned rows are stored; the bytes of other rows are discarded. -/
def execBar4Write (offset : BitVec 34) (data : List Byte) (be : List Bool) (s : State) : Out :=
  let c := s.bar4Core offset.toNat
  let b := offset.toNat % slotBytes
  let n := data.length
  if !s.hostUp || n == 0 || s.host.d3hot || !s.windowsOpen || !s.flag F.PWR_STATUS_CORES_READY then .next s
  else if 18000 ≤ c ∨ 0x50_0000 < b + n then .next (s.unbackedModule (spWindow + c * slotBytes + b))
  else if !s.rowAvail c then .next (s.spBadAccess c 3)
  else
    let on := fun (k : Nat × Nat) => (be.drop k.1).take k.2
    let cuts := (cutAt 512 b n).filter fun k => (on k).any id
    let whole := fun (k : Nat × Nat) => k.2 == 512 && (on k).all id && (on k).length == 512
    let s := if cuts.all whole then s else s.spBadAccess c 4
    let ps := (cuts.filter whole).map fun k => rowPacket Packet.WR c (b + k.1) k.2 ((data.drop k.1).take k.2)
    .next (s.hostRequest 0 n true true ps)

/-! ## Device-initiated DMA (R496, R497) -/

/-- HOST_DMA_WRITE (R496, R497): a WR at the host port. -/
def execHostDmaWrite (packet : Packet) (s : State) : Out :=
  let s := s.take packet (.rim destHost)
  let answer := fun (s : State) (st : Nat) => s.rimSend (packetReply packet Packet.WACK st) s.clk.tb
  match s.xlat (packet.addr - hostWindow) (packet.lenm1 + 1) with
  | none => .next (answer (s.unbackedModule packet.addr) stADDRESS)
  | some (a, ro) =>
    if ro || packet.wop != 0 then .next (answer s stREFUSED)
    else .next (answer (s.hostWrite a packet.data packet.poison) stOK)

/-- HOST_DMA_READ (R496): an RD at the host port. -/
def execHostDmaRead (packet : Packet) (s : State) : Out :=
  let s := s.take packet (.rim destHost)
  let o := packet.addr - hostWindow
  let n := packet.lenm1 + 1
  match s.xlat o n with
  | none =>
    .next ((s.unbackedModule packet.addr).rimSend (packetReply packet Packet.RDR stADDRESS (zeros n)) s.clk.tb)
  | some (a, _) => .next (s.dmaRead { id := 0, pkt := some packet, off := o, addr := a, n := n, issued := 0 })

/-- HOST_COMPLETION (R497): a completion for an outstanding read: `status` 0 successful, 1 UR, 2 CA. -/
def execHostCompletion (id : Nat) (status : Fin 3) (data : List Byte) (poison : Bool) (s : State) : Out :=
  match s.host.dma.find? (fun r => r.id == id) with
  | none => .next s
  | some r =>
    if status.val ≠ 0 then .next ((s.dmaError status r.off).dmaEnd r (zeros r.n) true true)
    else
      let s := if poison then s.dmaError 4 r.off else s
      let r := { r with got := (r.got ++ data).take r.n, poison := r.poison || poison }
      if r.got.length < r.n then
        .next { s with host := { s.host with dma := s.host.dma.map fun z => if z.id = r.id then r else z } }
      else .next (s.dmaEnd r r.got r.poison false)

/-- HOST_COMPLETION_TIMEOUT (R497): the oldest outstanding read. -/
def execHostCompletionTimeout (s : State) : Out :=
  match s.host.dma with
  | [] => .next s
  | r :: _ =>
    let s := s.atWt (r.issued + s.host.timeout)
    .next ((s.dmaError 3 r.off).dmaEnd r (zeros r.n) true true)

/-! ## Intake rings (R506 to R511) -/

/-- INTAKE_GO (R509). -/
def execIntakeGo (ring : Ring) (k : BitVec 32) (s : State) : Out := .next (s.intakeGo ring k.toNat)

/-- INTAKE_HEADER_ARRIVE (R510). -/
def execIntakeHeaderArrive (ring : Ring) (s : State) : Out :=
  match s.fetchOf ring with
  | none => .next s
  | some f => .next (if f.stage = 5 then s.fetchJudge f else s)

/-- End of the wait of a fetch (R510). -/
def State.fetchLimit (s : State) (f : Fetch) : Nat := f.go + s.ringNat f.ring 0x1C 4

/-- INTAKE_HEADER_RETRY (R510): 1 us after the last read, while WAIT_NS has not passed. -/
def execIntakeHeaderRetry (ring : Ring) (s : State) : Out :=
  match s.fetchOf ring with
  | none => .next s
  | some f =>
    if f.stage ≠ 1 ∨ s.fetchLimit f < f.readAt + 1000 then .next s
    else .next ((s.atWt (f.readAt + 1000)).fetchHeader f)

/-- INTAKE_WAIT_EXPIRE (R8, R510): WAIT_NS has passed since the GO and the header there is not FULL. -/
def execIntakeWaitExpire (ring : Ring) (s : State) : Out :=
  match s.fetchOf ring with
  | none => .next s
  | some f =>
    if f.stage ≠ 1 then .next s
    else .next ((s.atWt (s.fetchLimit f)).fetchPut f (headerCopy f.hdr f.k 0 1) 1)

/-- INTAKE_FETCH_COMPLETE (R510). -/
def execIntakeFetchComplete (ring : Ring) (s : State) : Out :=
  match s.fetchOf ring with
  | none => .next s
  | some f => .next (if f.stage = 3 ∧ f.left = 0 then s.fetchComplete f else s)

/-- INTAKE_RELEASE (R511). -/
def execIntakeRelease (ring : Ring) (k : BitVec 32) (s : State) : Out := .next (s.intakeRelease ring k.toNat)

/-! ## Configuration writes (R492, R493, R497, R498) -/

/-- CONFIGURATION_WRITE: a BAR2 size outside 1 GiB to 2 TiB and a timeout of 0 are no supported values and change nothing. -/
def execConfigurationWrite (write : CfgWrite) (s : State) : Out :=
  if !s.hostUp then .next s
  else
    match write with
    | .bar2 log => .next (if 30 ≤ log ∧ log ≤ 41 then { s with host := { s.host with bar2Log := log } } else s)
    | .power d3hot => .next { s with host := { s.host with d3hot := d3hot } }
    | .timeout ns => .next (if ns = 0 then s else { s with host := { s.host with timeout := ns } })
    | .msix enable mask => .next ({ s with host := { s.host with msixOn := enable, msixFn := mask } } : State).msixFlush

end Sys2Proof.Machine
end

