-- ==== Sys2Proof/Machine/Mgmt.lean ====
section
/-! DEFINITION. Meanings of the management, security and log commands (15, R512 to R526). An answer stands in `Mgmt.answer`: the
completion code of R514, then the data. -/

namespace Sys2Proof.Machine
open Sys2Proof

/-! ## Bindings (R512, R513) -/

/-- I3C_ADDRESS_ASSIGN (R512). -/
def execI3cAddressAssign (address : BitVec 7) (s : State) : Out := .next { s with mgmt := { s.mgmt with i3c := address.toNat } }

/-- MCTP_SET_ENDPOINT_ID (R513): the EID of the I3C or of the PCI Express binding; 0 and 0xFF are no EIDs (MCTP). -/
def execMctpSetEndpointId (pcie : Bool) (eid : BitVec 8) (s : State) : Out :=
  if eid = 0 ∨ eid = 0xFF then .next (s.answer [ccMALFORMED])
  else
    let m := s.mgmt
    .next (({ s with mgmt := if pcie then { m with eidPcie := eid.toNat } else { m with eidI3c := eid.toNat } } : State).answer [ccOK])

/-! ## PLDM (R513, R515, R516) -/

/-- PLDM_BASE_COMMAND (R513): it is answered; what the answer holds is the standard's and is left free. -/
def execPldmBaseCommand (_command : BitVec 8) (s : State) : Out :=
  let (v, s) := s.free
  .next (s.answer (ccOK :: leBytes 8 v.toNat))

/-- PLDM_GET_SENSOR_READING (R515); 0x80 is DSP0248's code for a sensor id that there is not. -/
def execPldmGetSensorReading (sensor : BitVec 16) (s : State) : Out :=
  match s.sensor sensor.toNat with
  | some v => .next (s.answer (ccOK :: leBytes 4 v))
  | none => .next (s.answer [0x80])

/-- PLDM_FIRMWARE_UPDATE (R516). -/
def execPldmFirmwareUpdate (device : Fin 2) (image : List Byte) (writeError : Bool) (s : State) : Out :=
  .next (s.firmwareUpdate device image writeError)

/-- PLDM_ACTIVATE_FIRMWARE (R516). -/
def execPldmActivateFirmware (device : Fin 2) (s : State) : Out :=
  if s.mgmt.proven.contains device.val then .next ((s.fset F.RST_BOOT_PREFER device).answer [ccOK])
  else .next (s.answer [ccREFUSED])

/-! ## SPDM (R519) -/

/-- SPDM_NEGOTIATE (R519): the version, and whether the requester offers Falcon-1024 and SHA3-512. -/
def execSpdmNegotiate (version : BitVec 8) (falcon sha3 : Bool) (s : State) : Out :=
  let ok := (version == 0x12 || version == 0x13) && falcon && sha3
  let m := s.mgmt
  let s : State := { s with mgmt := { m with spdm := if ok then some (version.toNat, true) else none } }
  .next (s.answer (if ok then [ccOK, version] else [ccREFUSED]))

/-- SPDM_GET_CERTIFICATE (R519): slot 0 alone holds a chain. -/
def execSpdmGetCertificate (slot : Fin 8) (s : State) : Out :=
  if s.mgmt.spdm.isNone ∨ slot.val ≠ 0 then .next (s.answer [ccREFUSED])
  else .next (s.answer (ccOK :: Config.certChain (s.fget F.SEC_ID_GEN_GEN)))

/-- SPDM_CHALLENGE (R519): the requester's nonce and the chain's digest, signed by the identity of the present generation. -/
def execSpdmChallenge (slot : Fin 8) (nonce : List Byte) (s : State) : Out :=
  if s.mgmt.spdm.isNone ∨ slot.val ≠ 0 then .next (s.answer [ccREFUSED])
  else
    let gen := s.fget F.SEC_ID_GEN_GEN
    let digest := Config.sha3 (Config.certChain gen)
    .next (s.answer (ccOK :: digest ++ Config.identitySign gen (nonce ++ digest)))

/-- SPDM_GET_MEASUREMENTS (R519): one measurement, or all with index 0xFF, signed with the requester's nonce; index 0 asks for their
number. -/
def execSpdmGetMeasurements (index : BitVec 8) (nonce : List Byte) (s : State) : Out :=
  let i := index.toNat
  if s.mgmt.spdm.isNone ∨ (9 < i ∧ i ≠ 255) then .next (s.answer [ccREFUSED])
  else
    let body :=
      if i = 0 then [9]
      else if i = 255 then (List.range 9).flatMap fun k => s.measurement (k + 1)
      else s.measurement i
    .next (s.answer (ccOK :: body ++ Config.identitySign (s.fget F.SEC_ID_GEN_GEN) (nonce ++ body)))

/-! ## Vendor-defined commands (R514) -/

/-- MCTP_RESET (R442, R514): the 32 bits of RST_CMD. -/
def execMctpReset (value : BitVec 32) (s : State) : Out :=
  let v := value.toNat
  let key := bits v 31 24
  let cls := bits v 23 20
  let target := bits v 14 0
  let bad := s.rstBad .mctp key cls (bit v 15) target
  .next ((s.rstCmd .mctp key cls (bit v 15) target).answer [if bad.isSome then ccREFUSED else ccOK])

/-- MCTP_WDOG_KICK (R443, R514). -/
def execMctpWdogKick (s : State) : Out := .next (s.wdogKick.answer [ccOK])

/-- Does a BAR0 offset lie in a block that REG_READ and REG_WRITE reach (R514)? -/
def mctpReach (a : Nat) : Bool :=
  match blockOf a with
  | some .MOD | some .RST | some .CLK | some .PWR | some .FLD | some .HOST | some .MGMT | some .HLTH => true
  | _ => false

/-- MCTP_REG_READ (R514): 4 bytes; an offset that is not 4-byte aligned is malformed, one in another block refused. -/
def execMctpRegRead (offset : BitVec 27) (s : State) : Out :=
  let a := offset.toNat
  if a % 4 ≠ 0 then .next (s.answer [ccMALFORMED])
  else if !mctpReach a then .next (s.answer [ccREFUSED])
  else
    let (s, v) := s.readWord a
    .next (s.answer (ccOK :: leBytes 4 (v.getD 0)))

/-- MCTP_REG_WRITE (R514): 4 bytes, as a host write. -/
def execMctpRegWrite (offset : BitVec 27) (value : BitVec 32) (s : State) : Out :=
  let a := offset.toNat
  if a % 4 ≠ 0 then .next (s.answer [ccMALFORMED])
  else if !mctpReach a then .next (s.answer [ccREFUSED])
  else .next ((s.writeWord .bar0 a value.toNat).1.answer [ccOK])

/-- DEBUG_UNLOCK (R521). -/
def execDebugUnlock (token : Token) (s : State) : Out := .next (s.debugUnlock token)

/-- KEY_REVOKE (R521, R522). -/
def execKeyRevoke (token : Token) (s : State) : Out := .next (s.keyRevoke token)

/-! ## Boundary scan (R520) -/

/-- The instruction that the port takes for the one shifted in: 0 BYPASS, 1 IDCODE, 2 SAMPLE/PRELOAD, 3 EXTEST, 4 CLAMP, 5 HIGHZ,
6 private read, 7 private write. -/
def State.jtagTakes (s : State) (i : Nat) : Nat :=
  if 3 ≤ i ∧ i ≤ 5 then (if s.boot.modRst then i else 0)
  else if i = 6 then (if 1 ≤ s.fget F.SEC_STATUS_DEBUG then i else 0)
  else if i = 7 then (if 2 ≤ s.fget F.SEC_STATUS_DEBUG then i else 0)
  else i

/-- The identification code (R520). -/
def State.idcode (s : State) : Nat := 1 + Config.jedec % 2 ^ 11 * 2 + 0x0B25 * 2 ^ 12 + s.fget F.MOD_ID_REV % 16 * 2 ^ 28

/-- JTAG_INSTRUCTION (R520). -/
def execJtagInstruction (instr : Fin 8) (s : State) : Out :=
  let i := s.jtagTakes instr
  let m := s.mgmt
  .next { s with mgmt := { m with jtag := i, idcode := if i = 1 then s.idcode else m.idcode } }

/-! ## Lifetime log (R525, R526) -/

/-- Bin of a field's temperature, in units of 0.25 °C (R525). -/
def tempBin (t : Nat) : Nat := min 31 (toSigned 12 t / 16).toNat

/-- A second has passed for the log: powered, each field's temperature, the power state. -/
def State.logSecond (s : State) : State :=
  let s := s.life 0x10 1
  let s := (List.range 25).foldl (fun s f =>
    let key := 0x40 + 4 * (32 * f + tempBin (s.fget F.FLD_TEMP_TEMP f))
    { s with log := { s.log with live := mupd 0 s.log.live key (fun n => min (n + 1) 0xFFFF_FFFF) } }) s
  (s.life (0xD00 + 8 * s.fget F.PWR_STATUS_STATE) 1).logShow

/-- LOG_SECOND_UPDATE (R525, R526): at the end of the present second of WT. -/
def execLogSecondUpdate (s : State) : Out := .next (s.atWt ((s.clk.wt / 10 ^ 9 + 1) * 10 ^ 9)).logSecond

/-- LOG_PERIODIC_COMMIT (R526): at the next multiple of 600 s of WT. -/
def execLogPeriodicCommit (s : State) : Out := .next (s.atWt ((s.clk.wt / (600 * 10 ^ 9) + 1) * (600 * 10 ^ 9))).logCommit

end Sys2Proof.Machine
end

