-- ==== Sys2Proof/Machine/Receive.lean ====
section
/-! DEFINITION. Answers reaching the requester (R162, R240, R247, R250, R353): RDR, WACK and REGR. -/

namespace Sys2Proof.Machine
open Sys2Proof

/-- Is the source of an answer a channel controller? -/
def fromChan (p : Packet) : Bool := decide (0x8000 ≤ p.src ∧ p.src < 0x8300)

/-- Is it a Brim port or the host port? -/
def fromEdge (p : Packet) : Bool := decide (0x8400 ≤ p.src ∧ p.src ≤ 0x8410)

/-- The rerun that an answered read latches in the receiving core (R181, R250, R284). -/
def State.readLatch (s : State) (c : Nat) (p : Packet) : State :=
  if p.src < 18000 then (if p.poison then s.latchRerun c 0 else s)
  else if (fromChan p || fromEdge p) && (p.poison || p.flags == stREFUSED) then s.latchRerun c 2
  else s

/-- A Brim port as the destination of an answer (R233). -/
def brimOf (d : Nat) : Option Nat := if 0x8400 ≤ d ∧ d < 0x8406 then some (d - 0x8400) else none

/-- The RDR of a core's FRD or prefetch (R247, R309): an FRD's data are written at its lines of the packet's cut. -/
def State.coreRdr (s : State) (c : Nat) (p : Packet) : State :=
  let s := (s.readLatch c p).coreAnswered c false
  if p.op % 4 = 2 then s.pfAnswer c p
  else
    match (s.fb c).ops.find? (fun o => opFab o.id == p.op && o.op == 3) with
    | none => s
    | some o =>
      match (s.cutRun o.target o.nlines)[p.rid]? with
      | none => s
      | some cut => s.fabWrite c p (64 * (o.line + cut.1)) 0 p.data false

/-- RDR_RECEIVE (R240, R247, R250): a read response at its requester. The responses to the injectors and to REG come by
GRIST_SOURCE_RESPONSE and RACK_COPY_RESPONSE. -/
def execRdrReceive (packet : Packet) (s : State) : Out :=
  let d := packet.dest
  if packet.typ ≠ Packet.RDR then .next s
  else if d < 18000 then
    let (s, ok) := s.atPort d packet
    .next (if ok then s.coreRdr d packet else s)
  else if d = destHost then .next ((s.take packet (.rim d)).hostAnswer packet)
  else
    match brimOf d with
    | some p => .next ((s.take packet (.rim d)).bServed p packet)
    | none => .next s

/-- A WACK at a core (R240, R247, R315): it releases one outstanding packet and counts toward its FWR, FRED or SAVE. -/
def State.coreWack (s : State) (c : Nat) (p : Packet) : State :=
  let s := if fromChan p && p.flags == stREFUSED then s.latchRerun c 2 else s
  let s := s.coreAnswered c true
  if p.op % 4 = 0 then s.fabOpDone c (p.op / 4)
  else if p.op % 4 = 1 then
    let x := s.stpc c
    s.setStp c { x with saves := x.saves.map fun v => if opSave v.id = p.op then { v with left := v.left - 1 } else v }
  else s

/-- WACK_RECEIVE (R240): at a core, at the host port (R494, R509), or at the Brim port that serves the request (R353). -/
def execWackReceive (packet : Packet) (s : State) : Out :=
  let d := packet.dest
  if packet.typ ≠ Packet.WACK then .next s
  else if d < 18000 then
    let (s, ok) := s.atPort d packet
    .next (if ok then s.coreWack d packet else s)
  else if d = destHost then
    let s := s.take packet (.rim d)
    .next (if packet.op % 8 = 0 then s.hostAnswer packet else s.fetchAck packet.op)
  else
    match brimOf d with
    | some p => .next ((s.take packet (.rim d)).bServed p packet)
    | none => .next s

/-- The answer of an Epru's RLD or RST (R162): the Epru goes on at the next CCLK edge. -/
def State.coreRegr (s : State) (c : Nat) (p : Packet) : State :=
  let n := upTo 4 s.clk.tb
  let go := fun (s : State) =>
    let e := s.core c
    let s := ((s.setCore c { e with wait := .none, next := n }).setEpState c epRUN).epDone c 0
    if s.epState c ≠ epRUN then s
    else
      let e := s.core c
      s.setCore c { e with next := n }
  match (s.core c).wait with
  | .rld rd => go (s.setG c rd (leNat p.data) n)
  | .rst => go s
  | _ => s

/-- REGR_RECEIVE (R162, R353): at the Epru that waits for it, or at the Brim port that serves the request. -/
def execRegrReceive (packet : Packet) (s : State) : Out :=
  let d := packet.dest
  if packet.typ ≠ Packet.REGR then .next s
  else if d < 18000 then
    let (s, ok) := s.atPort d packet
    .next (if ok then s.coreRegr d packet else s)
  else
    match brimOf d with
    | some p => .next ((s.take packet (.rim d)).bServed p packet)
    | none => .next s

end Sys2Proof.Machine
end

