-- ==== Sys2Proof/Machine/StepOps.lean ====
section
/-! DEFINITION. The step boundary (R399 to R404) and the change of shift (R195 to R199) as operations. -/

namespace Sys2Proof.Machine
open Sys2Proof

/-! ## Swap images (R197 to R199) -/

/-- Address of the swap image of core k of a slot's tract (R197). -/
def State.imageAt (s : State) (t k : Nat) : Nat := s.swapBase t + k * swapImage

/-- The private page of a core's image (R197): g1 to g31, PC, SEG_BASE offset, the arrival counters, TRACT_RERUN.COUNT and the kept
outcome, with MX_SR_SEQ and VX_RNG_SEQ untouched. A kept RERUN is written as the state that it restores (R182). -/
def State.imagePage (s : State) (t c : Nat) : List Byte :=
  let e := s.core c
  let p := (s.stpc c).pfCount
  let re := (s.tract t).kept
  let g := fun (r : Nat) => if re then mget 0 e.snap.g r else mget 0 e.g r
  let ctr := fun (n : Nat) =>
    if re then (mget 0 e.snap.ctr n + mget 0 e.ext n + mget 0 p n) % 2 ^ 32 else s.fget F.EP_ARRIVE_COUNT c n
  ((List.range 31).flatMap fun i => leBytes 8 (g (i + 1))) ++ leBytes 8 (if re then e.snap.pc else s.pc c)
    ++ leBytes 8 (s.clk.tb - e.segBase) ++ ((List.range 64).flatMap fun n => leBytes 4 (ctr n))
    ++ leBytes 4 (s.fget F.TRACT_RERUN_COUNT t) ++ leBytes 4 (b2n re)

/-- Tag state of a core: two bits a line, line 0 in bits [1:0] of byte 0 (R197). -/
def State.imageTags (s : State) (c : Nat) : List Byte :=
  (List.range (spLines / 4)).map fun i =>
    BitVec.ofNat 8 (((List.range 4).map fun q => mget 0 s.spTag (s.lineKey c (4 * i + q)) % 4 * 4 ^ q).sum)

/-- One core is written out in row mode (R197, R198). -/
def State.coreOut (s : State) (t k c : Nat) : State :=
  let a := s.imageAt t k
  let code := (List.range 16384).flatMap fun i => leBytes 4 (mget 0 (s.core c).istore i)
  let page := s.imagePage t c
  let tags := s.imageTags c
  ((((s.memPut a (s.spBytes c 0 0x50_0000)).memPut (a + 0x50_0000) code).memPut (a + 0x51_0000) tags).memPut (a + 0x51_8000) page)

/-- One core is read in (R197, R198): fresh codes, and the engines cleared (R109, R154). -/
def State.coreIn (s : State) (t k c : Nat) : State :=
  let a := s.imageAt t k
  let key := s.phys c
  let sp := s.memGet a 0x50_0000
  let code := s.memGet (a + 0x50_0000) 0x1_0000
  let tags := s.memGet (a + 0x51_0000) (spLines / 4)
  let page := s.memGet (a + 0x51_8000) 0x1000
  let n := fun (off k : Nat) => leNat ((page.drop off).take k)
  let s := ((s.mxClear c).vxClear c).spEngineClear c
  let s := { s with
    sp := mputs 0 s.sp (key * slotBytes) sp
    spCode := s.spCode.filter (fun e => e.1 / spLines != key)
    spTag := (List.range spLines).foldl (fun m i =>
      mput 0 m (key * spLines + i) ((tags.getD (i / 4) 0).toNat / 4 ^ (i % 4) % 4)) s.spTag }
  let s := (List.range 64).foldl (fun s i => s.fset F.EP_ARRIVE_COUNT (n (264 + 4 * i) 4) c i) s
  let g := (List.range 31).foldl (fun m i => mput 0 m (i + 1) (n (8 * i) 8)) []
  let ctr := (List.range 64).foldl (fun m i => mput 0 m i (n (264 + 4 * i) 4)) []
  let e := s.core c
  let snap : EpSnap := {
    g := g, pc := n 248 2 % 2 ^ 14, ctr := ctr, srSeq := s.fget F.MX_SR_SEQ_VALUE c, rngSeq := s.fget F.VX_RNG_SEQ_VALUE c }
  let ist := (List.range 16384).foldl (fun m i => mput 0 m i (leNat ((code.drop (4 * i)).take 4))) []
  let s := s.setCore c { istore := ist, g := g, snap := snap, defRel := e.defRel, segBase := s.clk.tb - n 256 8 }
  (s.fset F.EP_STATUS_PC (n 248 2 % 2 ^ 14) c).setEpState c epIDLE

/-- Outcome and rerun count that an image holds. -/
def State.imageKept (s : State) (t : Nat) : Bool × Nat :=
  let a := s.imageAt t 0 + 0x51_8000 + 520
  (s.memNat (a + 4) 4 % 2 == 1, s.memNat a 4 % 4)

/-! ## The change of shift (R196, R198) -/

/-- The running job's entry, if a job is RUNNING. -/
def State.jobRuns (s : State) : Option Nat := (List.range 4).find? fun j => s.jobState j == jRUNNING

/-- Shift number of the job's tract k, as LOAD read it (R195). -/
def State.tractShift (s : State) (k : Nat) : Nat := bits (leNat (((tractDesc s.host.jobs.entry k).drop 8).take 4)) 21 16
def State.jobCount (s : State) : Nat := leNat (mgets 0 s.host.jobs.entry 0x14 2)

/-- Number of shifts of the job (R195). -/
def State.shifts (s : State) : Nat :=
  ((List.range s.jobCount).map fun k => if s.tractShift k = 63 then 1 else s.tractShift k + 1).foldl max 1

/-- The first row of a slot's cores whose check fails: core, row and line (R224). -/
def State.swapBad (s : State) (t : Nat) : Option (Nat × Nat × Nat) :=
  (s.tractCores t).findSome? fun c =>
    (List.range 10240).findSome? fun r => (s.rowBad c r).map fun l => (c, r, l)

/-- A slot leaves its tract: it is FREE (R198, R201). -/
def State.slotLeave (s : State) (t : Nat) : State :=
  let s := (s.tractCores t).foldl State.coreStop s
  let s := s.slotDefaults t
  let s := { s with host := { s.host with jobs := { s.host.jobs with slots := merase s.host.jobs.slots t } } }
  (((s.fset F.TRACT_STATUS_STATE tFREE t).fset F.TRACT_STATUS_ENABLE_PENDING 0 t).fset F.TRACT_STATUS_PARK_PENDING 0 t).setTract t {}

/-- An outgoing tract is written out; a failed check faults it with cause 0x0A, and it stays (R171, R198, R224). -/
def State.tractOut (s : State) (t k : Nat) : State :=
  let x := s.tract t
  let s := if x.stepHeld then
      s.barrierDone t { tb := upTo 4 s.clk.tb, rerun := false, barrier := true, step := true }
    else s
  match s.swapBad t with
  | some (c, r, l) => (s.rowDetect c r l 1).slotFault t c 0x0A 0
  | none =>
    let cores := s.tractCores t
    let s := (cores.zip (List.range cores.length)).foldl (fun s c => s.coreOut t c.2 c.1) s
    let s := s.slotLeave t
    let o := s.host.jobs.out
    { s with host := { s.host with jobs := { s.host.jobs with out := o.filter (· != k) ++ [k] } } }

/-- An incoming tract takes a slot (R190, R198, R199, R201): refilled, validated, read in and to be released. A tract that no change
of shift has written out begins as from LOADED (R192). -/
def State.tractIn (s : State) (t k : Nat) : State :=
  let s := s.slotFill t (tractDesc s.host.jobs.entry k)
  match s.tractBad t with
  | some r => (s.slotDefaults t).raise 0x4005 kTRACT t r
  | none =>
    let first := !s.host.jobs.out.contains k
    let s := ((s.fset F.TRACT_STATUS_STATE tRUNNING t).fset F.TRACT_CTRL_ENABLE 1 t).jobSlotSet t k
    let cores := s.tractCores t
    let bad := (cores.zip (List.range cores.length)).find? fun c => s.memPoison (s.imageAt t c.2) swapImage
    match bad with
    | some c => s.slotFault t c.1 0x0A 0
    | none =>
      let s := (cores.zip (List.range cores.length)).foldl (fun s c => s.coreIn t c.2 c.1) s
      let line := s.fget F.TRACT_CODE_LINE t
      let n := s.fget F.TRACT_CODE_LINESM1 t + 1
      let s := if first then cores.foldl (fun s c => s.ifill c line n 0) s else s
      let (kept, reruns) := if first then (false, 0) else s.imageKept t
      let s := s.fset F.TRACT_RERUN_COUNT reruns t
      let x := s.tract t
      s.setTract t { x with kept := kept, keptStep := true, rel := some { tb := 0, rerun := kept, first := first, step := true } }

/-- Slots of the job in ascending order whose tracts are of a shift, and can be written out. -/
def State.outgoing (s : State) (n : Nat) : List (Nat × Nat) :=
  s.jobSlots.filter fun e =>
    s.tractShift e.2 == n && s.tstate e.1 != tFREE && s.tstate e.1 != tHALTED && s.tstate e.1 != tFAULTED

/-- The change from shift n to shift m (R198): incoming tracts take the slots that outgoing tracts leave, then FREE slots. -/
def State.shiftChange (s : State) (n m : Nat) : State :=
  let out := s.outgoing n
  let s := out.foldl (fun s e => s.tractOut e.1 e.2) s
  let left := (out.map (·.1)).filter fun t => s.tstate t == tFREE
  let slots := left ++ s.freeSlots.filter fun t => !left.contains t
  let incoming := (List.range s.jobCount).filter fun k => s.tractShift k == m
  let s := (incoming.zip slots).foldl (fun s e => s.tractIn e.2 e.1) s
  (left.filter fun t => s.tstate t == tFREE).foldl (fun s t => s.gsTractFree t) s

/-- Action 7 (R196): a shift ends with the last of its SHIFT_LEN steps. -/
def State.shiftStep (s : State) : State :=
  match s.jobRuns with
  | none => s
  | some _ =>
    let j := s.host.jobs
    let len := leNat (mgets 0 j.entry 0x18 4)
    let due := decide (len ≤ j.steps + 1)
    let s := { s with host := { s.host with jobs := { j with steps := if due then 0 else j.steps + 1 } } }
    if !due || decide (s.shifts ≤ 1) then s
    else
      let m := (j.shift + 1) % s.shifts
      let s := s.shiftChange j.shift m
      { s with host := { s.host with jobs := { s.host.jobs with shift := m } } }

/-! ## Step-boundary processing (R399 to R404) -/

/-- Slots marked in RED_STEP_TRACTS that are RUNNING or STOPPING (R400). -/
def State.stepSlots (s : State) : List Nat :=
  (List.range 16).filter fun t =>
    bit (s.fget F.RED_STEP_TRACTS_MASK) t && (s.tstate t == tRUNNING || s.tstate t == tSTOPPING)

/-- May processing begin, S apart (R400)? -/
def State.stepReady (s : State) : Bool :=
  let ts := s.stepSlots
  ts.all (fun t => (s.tract t).stepHeld) && (s.flag F.RED_CTRL_SCHED || !ts.isEmpty)

/-- No AMAX is in a merge stage or on its way to SCALE (R244). -/
def State.noAmax (s : State) : Bool :=
  !(s.flights.any fun f => f.pkt.typ == Packet.AMAX)
    && s.fbc.all fun e => !(e.2.merge.any fun m => m.pkt.typ == Packet.AMAX) && !(e.2.held.any fun p => p.typ == Packet.AMAX)

/-- Action 8: a window opens for the new step (R379, R385, R404). -/
def State.winOpen (s : State) (b w : Nat) : State :=
  let dln := b + s.fget F.RED_WIN_DEADLINE_NS 0 w
  let x := s.win w
  let s := s.setWin w { x with
    step := (s.rd .RED_STEP_COUNT).toNat, dln := dln, closeAt := dln, closing := false, lateSeen := false, late := 0, taken := [] }
  if dln < s.clk.wt then (s.setWinState w wCLOSING).raise 0x8006 kMODULE 0 (w + 1 * 2 ^ 16) else s.setWinState w wOPEN

/-- Processing ends: vector 3, and every STEP barrier and every incoming tract is to be released (R180, R198, R402, R498). -/
def State.stepEnd (s : State) : State :=
  let s := ({ s with red := { s.red with proc := none } }.fset F.RED_STATUS_PHASE 0).msix 3
  (List.range 16).foldl (fun s t =>
    let x := s.tract t
    let tb := upTo 4 (s.clk.tb + s.slack t)
    if x.stepHeld then
      s.setTract t { x with
        stepHeld := false, rel := some { tb := tb, rerun := false, barrier := true, step := true, sent := s.clk.tb } }
    else
      match x.rel with
      | some r => if r.tb = 0 then s.setTract t { x with rel := some { r with tb := tb } } else s
      | none => s) s

/-- Actions 3 to 8, once no window is CLOSING and no AMAX is held (R402). -/
def State.stepFinish (s : State) (b : Nat) : State :=
  let s := s.scaleUpdateAll.rackBoundary
  let s := if s.flag F.HOST_CTRL_POLL_EN ∧ s.flag F.MOD_STATUS_READY then s.jobPoll else s
  let s := s.shiftStep
  let s := { s with red := { s.red with vfy := (s.rd .RED_VFY).toNat } }
  let s := (List.range 1024).foldl (fun s w =>
    if s.winState w = wARMED ∨ s.winState w = wCLOSED then s.winOpen b w else s) s
  s.stepEnd

/-- Processing in progress goes on as far as it can (R402). -/
def State.stepContinue (s : State) : State :=
  match s.red.proc with
  | none => s
  | some (b, _) =>
    if (List.range 1024).any fun w => s.winState w == wCLOSING then s
    else if !s.noAmax then { s with red := { s.red with proc := some (b, 3) } }
    else s.stepFinish b

/-- Actions 1 and 2 (R399, R400, R402, R537). -/
def State.stepBegin (s : State) : State :=
  let sched := s.flag F.RED_CTRL_SCHED
  let b := if sched then s.stepS else s.clk.wt
  let n := (s.rd .RED_STEP_COUNT).toNat
  let s := (s.wr .RED_STEP_COUNT (BitVec.ofNat 64 (n + 1))).wr .RED_STEP_LAST (BitVec.ofNat 64 s.clk.wt)
  let s := { s with pins := { s.pins with stepOut := s.clk.wt + 1000 } }
  let s :=
    if !sched then s
    else
      let d := ((s.red.deltas.filter fun x => x.1 == n).map (·.2)).sum
      let s := { s with red := { s.red with deltas := s.red.deltas.filter fun x => x.1 != n } }
      let s := s.wr .RED_STEP_NEXT (BitVec.ofInt 64 ((b : Int) + s.stepP + d))
      if b < s.clk.wt then (s.count .RED_STEP_OVERRUNS).raise 0x8008 kMODULE 0 (s.clk.wt - b) else s
  let s := { s with red := { s.red with proc := some (b, 2) } }.fset F.RED_STATUS_PHASE 1
  (List.range 1024).foldl (fun s w =>
    if s.winState w ≠ wOPEN then s
    else ((s.setWin w { s.win w with closeAt := s.clk.wt }).setWinState w wCLOSING).raise 0x8006 kMODULE 0 (w + 2 * 2 ^ 16)) s

end Sys2Proof.Machine
end

