-- ==== Sys2Proof/Machine/Recovery.lean ====
section
/-! DEFINITION. Changes of the spare map while the module runs (12, R417 to R421): spare substitution and re-placement. -/

namespace Sys2Proof.Machine
open Sys2Proof

/-! ## What a substitution moves (R32, R47) -/

/-- Values that stay with their positions: each listed key takes the value of the old key that stood at its position, or the
default value. -/
def mmove {α : Type} [DecidableEq α] (d : α) (m : SMap α) (l : List (Nat × Option Nat)) : SMap α :=
  l.foldl (fun m' e => mput d m' e.1 (match e.2 with
    | some k => mget d m k
    | none => d)) m

/-- Logical cores of a segment. -/
def segCores (seg : Nat) : List Nat := (List.range 30).map fun j => seg / 5 * 150 + 30 * (seg % 5) + j

/-- The content of each position's engines, router and scratchpad ports stays there as the logical cores move; registers and
the records of the stream port go with the logical core (R47). -/
def State.coresMove (before after : State) (seg : Nat) : State :=
  let l := (segCores seg).map fun c => (c, before.logical (after.phys c))
  { after with
    ep := mmove {} after.ep l
    mx := mmove {} after.mx l
    vx := mmove {} after.vx l
    spc := mmove {} after.spc l
    fbc := mmove {} after.fbc l }

/-- Phases 2 and 3 at a spare that passes: its scratchpad is zero but for the firmware, with fresh codes and clear tags (R418). -/
def State.spareFresh (s : State) (pos : Nat) : State :=
  { s with
    sp := s.sp.filter fun e => e.1 / slotBytes != pos
    spCode := s.spCode.filter fun e => e.1 / spLines != pos
    spTag := s.spTag.filter fun e => e.1 / spLines != pos }.firmwareAt pos

/-- Phases 5 and 6: the spare at position q takes the place of position p (R32, R418). -/
def State.substitute (s : State) (seg p q : Nat) : State :=
  let t := ((s.spareFresh (posOf seg q)).markFailed seg p).spareSwap seg p q
  let t := s.coresMove t seg
  match t.logical (posOf seg q) with
  | some c => (t.ifill c 0 1024 0).setEpState c epIDLE
  | none => t

/-- A halted slot is validated and becomes LOADED with ENABLE 0 (R418, R421); one that fails stays HALTED. -/
def State.slotRestore (s : State) (t : Nat) : State :=
  match s.tractBad t with
  | some r => s.raise 0x4005 kTRACT t r
  | none => ((s.fset F.TRACT_STATUS_STATE tLOADED t).fset F.TRACT_CTRL_ENABLE 0 t).setTract t {}

/-- Slots of a change that are still HALTED (R421). -/
def State.haltedOf (s : State) (ch : Change) : List Nat :=
  (List.range 16).filter fun t => bit ch.slots t && s.tstate t == tHALTED

/-- The change that firmware handles is complete. -/
def State.changeDone (s : State) : State :=
  let s := { s with hlth := { s.hlth with changes := s.hlth.changes.drop 1 } }
  s.recovery.setDegraded

/-! ## Spare substitution (R418) -/

/-- A spare fails phase 2 (code 0) or phase 4. -/
def State.spareLost (s : State) (pos code : Nat) : State :=
  let s := if code = 0 then (s.raise 0x2005 kPHYS pos 0).coreFailed pos 2 else (s.raise 0xA00A kPHYS pos code).coreFailed pos 5
  (s.spareGen.spareFailed (segOfPos pos) (posIn pos)).spareGen

/-- Attempts at a substitution, each with the BIST's outcome and the known-answer run's code (0 passes): the spare that passes. -/
def State.spareTry (s : State) (seg p : Nat) : List (Bool × Fin 7) → State × Option Nat
  | [] => (s, s.nearSpare seg p)
  | (bist, kar) :: rest =>
    match s.nearSpare seg p with
    | none => (s, none)
    | some q =>
      if !bist then (s.spareLost (posOf seg q) 0).spareTry seg p rest
      else if kar.val ≠ 0 then (s.spareLost (posOf seg q) kar.val).spareTry seg p rest
      else (s, some q)

/-- SPARE_SUBSTITUTION (R32, R417, R418): the change that firmware handles, in a segment with a healthy spare. -/
def execSpareSubstitution (tries : List (Bool × Fin 7)) (s : State) : Out :=
  match s.hlth.changes with
  | [] => .next s
  | ch :: _ =>
    let seg := segOfPos ch.pos
    let p := posIn ch.pos
    if (s.spares seg).isEmpty then .next s
    else
      match s.spareTry seg p tries with
      | (s, none) => .next s.recovery
      | (s, some q) =>
        let c := (s.logical ch.pos).getD 0
        let detail := seg + p * 2 ^ 10 + q * 2 ^ 16
        let s := ((s.spareGen.substitute seg p q).logRecord 2 ch.pos detail).spareGen
        let s := (s.haltedOf ch).foldl State.slotRestore s
        let s := (s.raise 0xA011 kCORE c (detail + ch.slots * 2 ^ 32)).count .HLTH_SUBSTITUTIONS
        .next s.changeDone

/-! ## Re-placement (R33, R419, R420) -/

/-- Rectangle of slot t. -/
def State.slotRect (s : State) (t : Nat) : Nat × Nat × Nat × Nat :=
  (s.fget F.TRACT_ORIGIN_ROW t, s.fget F.TRACT_ORIGIN_COL t, s.fget F.TRACT_SIZE_ROW t, s.fget F.TRACT_SIZE_COL t)

/-- Rectangle of the job's tract k, as recorded in the job table. -/
def State.tractRect (s : State) (k : Nat) : Nat × Nat × Nat × Nat :=
  let d := tractDesc s.host.jobs.entry k
  let o := leNat (d.take 4)
  let z := leNat ((d.drop 4).take 4)
  (bits o 22 16, bits o 7 0, bits z 22 16, bits z 7 0)

/-- Is core c in a rectangle? -/
def inBox (r : Nat × Nat × Nat × Nat) (c : Nat) : Bool :=
  decide (r.1 ≤ c / 150 ∧ c / 150 < r.1 + r.2.2.1 ∧ r.2.1 ≤ c % 150 ∧ c % 150 < r.2.1 + r.2.2.2)

/-- Do tracts of shifts a and b stand on the wafer together (R195, R419)? -/
def shiftsMeet (a b : Nat) : Bool := a == b || a == 63 || b == 63

/-- Is a rectangle a new place for a tract of a shift, that stands in `slot` and is the job's `own` (R419)? `lost` are the
unusable cores. -/
def State.originOk (s : State) (lost : List Nat) (box : Nat × Nat × Nat × Nat) (slot own : Option Nat) (shift : Nat) : Bool :=
  decide (box.1 + box.2.2.1 ≤ 120 ∧ box.2.1 + box.2.2.2 ≤ 150)
    && !lost.any (inBox box)
    && (List.range 16).all (fun u => some u == slot || s.tstate u == tFREE || !rectsOverlap box (s.slotRect u))
    && (List.range s.jobCount).all fun k =>
      some k == own || !shiftsMeet shift (s.tractShift k) || !rectsOverlap box (s.tractRect k)

/-- The first origin in ascending core order that qualifies (R419). -/
def State.originFor (s : State) (size : Nat × Nat) (slot own : Option Nat) (shift : Nat) : Option (Nat × Nat) :=
  let lost := (List.range 18000).filter s.unusable
  ((List.range 18000).find? fun c => s.originOk lost (c / 150, c % 150, size.1, size.2) slot own shift).map fun c => (c / 150, c % 150)

/-- The new origin is written into the tract's entry of the job table (R504). -/
def State.originRecord (s : State) (k row col : Nat) : State :=
  let d := leBytes 4 (col + row * 2 ^ 16)
  let s := { s with host := { s.host with jobs := { s.host.jobs with entry := mputs 0 s.host.jobs.entry (0x1000 + 128 * k) d } } }
  match (List.range 4).find? (fun j => decide (1 ≤ s.jobState j ∧ s.jobState j ≤ 3)) with
  | some j => s.jobPut j (0x1000 + 128 * k) d
  | none => s

/-- DETAIL of TRACT_REPLACED (R428). -/
def replacedDetail (row col oldRow oldCol : Nat) (away : Bool) : Nat :=
  col + row * 2 ^ 16 + oldCol * 2 ^ 32 + oldRow * 2 ^ 48 + b2n away * 2 ^ 63

/-- The job's tract that stands in slot t. -/
def State.tractOfSlot (s : State) (t : Nat) : Option Nat := (s.jobSlots.find? fun e => e.1 == t).map (·.2)

/-- The tract of slot t is re-placed (R419, R421). -/
def State.slotReplace (s : State) (t : Nat) : State :=
  let own := s.tractOfSlot t
  let old := s.slotRect t
  let fail := fun (why : Nat) => s.raise 0xA013 kTRACT t (s.fget F.TRACT_MODE_JOB_TRACT t + why * 2 ^ 12)
  match s.originFor (old.2.2.1, old.2.2.2) (some t) own (s.fget F.TRACT_MODE_SHIFT t) with
  | none => fail 0
  | some (row, col) =>
    let s' := (s.fset F.TRACT_ORIGIN_ROW row t).fset F.TRACT_ORIGIN_COL col t
    match s'.tractBad t with
    | some why => fail why
    | none =>
      let s := s'.slotRestore t
      let s := match own with
        | some k => s.originRecord k row col
        | none => s
      (s.raise 0xA012 kTRACT t (replacedDetail row col old.1 old.2.1 false)).count .HLTH_REPLACEMENTS

/-- The job's tract k, which is not resident, is re-placed in the job table (R420). No slot names it, so the SOURCE of its event is
a free value. -/
def State.awayReplace (s : State) (k : Nat) : State :=
  let old := s.tractRect k
  let (v, s) := s.free
  match s.originFor (old.2.2.1, old.2.2.2) none (some k) (s.tractShift k) with
  | none => s.raise 0xA013 kTRACT (v.toNat % 16) (k + 2 ^ 8)
  | some (row, col) =>
    ((s.originRecord k row col).raise 0xA012 kTRACT (v.toNat % 16) (replacedDetail row col old.1 old.2.1 true)).count .HLTH_REPLACEMENTS

/-- RE_PLACEMENT (R33, R417, R419, R420): the change that firmware handles, in a segment with no healthy spare. -/
def execRePlacement (s : State) : Out :=
  match s.hlth.changes with
  | [] => .next s
  | ch :: _ =>
    let seg := segOfPos ch.pos
    let p := posIn ch.pos
    if !(s.spares seg).isEmpty then .next s
    else
      let c := (s.logical ch.pos).getD 0
      let s := (((s.spareGen.markFailed seg p).logRecord 3 ch.pos (seg + p * 2 ^ 10)).spareGen).setDegraded
      let covers := fun (t : Nat) => s.inRect t c
      let halted := s.haltedOf ch
      let here := (List.range 16).filter fun t => covers t && (halted.contains t || s.tstate t == tLOADED)
      let away := (List.range s.jobCount).filter fun k =>
        !s.jobSlots.any (fun e => e.2 == k) && inBox (s.tractRect k) c
      let s := (halted.filter fun t => !covers t).foldl State.slotRestore s
      let s := here.foldl State.slotReplace s
      .next (away.foldl State.awayReplace s).changeDone

end Sys2Proof.Machine
end

