-- ==== Sys2Proof/Machine/StepBound.lean ====
section
/-! DEFINITION. Meanings of the commands of the step boundary (11) and of the releases of barriers and deferred bundles (05). -/

namespace Sys2Proof.Machine
open Sys2Proof

/-- STEP_BOUNDARY_PROCESSING (R399, R400, R402): it begins at the later of S and the marked slots' arrivals, or goes on. -/
def execStepBoundaryProcessing (s : State) : Out :=
  if s.red.proc.isSome then .next s.stepContinue
  else if !s.stepReady then .next s
  else
    let s := if s.flag F.RED_CTRL_SCHED then s.atWt s.stepS else s
    .next s.stepBegin.stepContinue

/-- CLOSE_OUT_END (R390 to R395, R402). -/
def execCloseOutEnd (win : Win) (s : State) : Out := .next (s.closeEnd win).stepContinue

/-- AMAX_APPLY (R79, R244, R410): an amax report at the scale unit. -/
def execAmaxApply (packet : Packet) (s : State) : Out := .next (s.amaxApply packet).stepContinue

/-- BARRIER_RELEASE (R176, R180, R192, R295): the release to come of a slot, at its ACLK. -/
def execBarrierRelease (slot : Slot) (s : State) : Out :=
  match (s.tract slot).rel with
  | none => .next s
  | some r =>
    if r.tb = 0 then .next s
    else
      let (s, begun) := s.tractRelease slot r
      .next (if begun && (r.first || r.step) then s.gsRelease slot else s)

/-- A bundle whose opcode is reserved in its queue is rejected by its engine (R112, R153, R170, R249). -/
def State.reservedRelease (s : State) (c q payload : Nat) : State :=
  let s := (s.popBundle c q payload).1
  let op := bits payload 79 76
  match q with
  | 0 => s.rejectBundle c 0x3002 op 1
  | 1 => s.rejectBundle c 0x4010 op 1
  | _ => s.fabReject c op 1

/-- Is the opcode of a payload reserved in queue q (R170)? -/
def opReserved (q payload : Nat) : Bool :=
  let op := bits payload 79 76
  match q with
  | 0 => decide (5 ≤ op)
  | 1 => decide (7 ≤ op)
  | _ => decide (5 ≤ op ∧ op ≤ 7) || decide (14 ≤ op)

/-- RESERVED_OPCODE_RELEASE (R170). -/
def execReservedOpcodeRelease (core : Core) (queue : Fin 3) (payload : BitVec 80) (s : State) : Out :=
  .next (if opReserved queue payload.toNat then s.reservedRelease core queue payload.toNat else s)

/-- DEFERRED_BUNDLE_RELEASE (R171): the first of a core's deferred bundles, one per ACLK from the release ACLK of the commit. -/
def execDeferredBundleRelease (core : Core) (s : State) : Out :=
  match (s.core core).defRel with
  | [] => .next s
  | b :: _ =>
    let p := b.payload
    match bits p 79 76 with
    | 0 => .next (s.srNop core 3 p)
    | 1 => .next (s.larrive core 3 p)
    | 2 => .next (s.fabBundle core 3 p)
    | 3 => .next (s.fabBundle core 3 p)
    | 4 => .next (s.fabBundle core 3 p)
    | 8 => .next (s.gneed core 3 p)
    | 9 => .next (s.grel core 3 p)
    | 10 => .next (s.save core 3 p)
    | 11 => .next (s.pfstart core 3 p)
    | 12 => .next (s.aneed core 3 p)
    | 13 => .next (s.arel core 3 p)
    | _ => .next (s.reservedRelease core 3 p)

end Sys2Proof.Machine
end

