-- ==== Sys2Proof/Machine/Vector.lean ====
section
/-! DEFINITION. Meanings of the vector engine's commands (04). -/

namespace Sys2Proof.Machine
open Sys2Proof

/-- VX_NOP (R152). -/
def execVxNop (core : Core) (payload : BitVec 76) (s : State) : Out :=
  let s := (s.popBundle core 1 (withOp 0 payload)).1
  match lowestReason [(payload.toNat != 0, 1), (s.vxOff core, 2)] with
  | some r => .next (s.vxReject core 0 r)
  | none => .next s

/-- VSETL (R119). -/
def execVsetl (core : Core) (payload : BitVec 76) (s : State) : Out :=
  let p := withOp 1 payload
  let s := (s.popBundle core 1 p).1
  match lowestReason [(bits p 64 0 != 0, 1), (s.vxOff core, 2)] with
  | some r => .next (s.vxReject core 1 r)
  | none =>
    let ew := bits p 75 75
    .next (s.wr .VX_VL (BitVec.ofNat 64 (min (bits p 74 65) (vlMax ew) + ew * 2 ^ 16)) core)

/-- CHAIN (R149, R152, R153). -/
def execChain (core : Core) (payload : BitVec 76) (s : State) : Out :=
  let p := withOp 2 payload
  let (s, rel, _) := s.popBundle core 1 p
  let x := s.vxc core
  let q : VxChain := {
    id := x.nextId, payload := p, rel := rel, n := s.fget F.VX_VL_VL core
    posQ := s.fget F.VX_POS_Q_BASE core, posK := s.fget F.VX_POS_K_BASE core
    window := s.fget F.VX_POS_CFG_WINDOW core, rlog := s.fget F.VX_POS_CFG_RLOG core, docId := x.docId }
  let load := x.loads.reverse.find? (fun l =>
    decide (bits l.payload 75 70 ≤ q.cid ∧ q.cid ≤ bits l.payload 75 70 + bits l.payload 69 64))
  let d := mget [] x.desc q.cid
  let bad := bits p 2 0 != 0 || q.opA == .bad || q.opB == .bad || q.opD == .bad
  let n := min q.n (vlMax (dEw d))
  match lowestReason [(bad, 1), (s.vxOff core, 2),
      (load.isNone && (chainReason q d n) == some 3, 3), (load.isNone && (chainReason q d n) == some 4, 4)] with
  | some r => .next (s.vxReject core 2 r)
  | none =>
    let s := (s.setVx core { x with
      nextId := x.nextId + 1, chains := x.chains ++ [{ q with waitLoad := load.map (·.id) }] }).fset F.VX_STATUS_DRAINED 0 core
    match load with
    | some _ => .next s
    | none => .next (s.vxAccept core q d 0 (rel + 6))

/-- VX_BEAT_ENTRY (R149): the next beat of the oldest chain that has beats to enter, or one ACLK of waiting. -/
def execVxBeatEntry (core : Core) (s : State) : Out :=
  let x := s.vxc core
  match x.chains.find? (fun q => !q.entered) with
  | none => .next s
  | some q =>
    if q.desc = [] then .next s
    else
      let b := q.ents.length
      let nat := max q.nextEntry (if b = 0 then max (max (q.rel + 8) (x.lastBeat.elim 0 (· + 1))) (max x.macroEnd q.ready) else 0)
      let stalled := ((s.atTb nat).count .VX_STALL_ACLK 1 core).setVx core { x with
        chains := x.chains.map fun y => if y.id = q.id then { y with nextEntry := nat + 1 } else y }
      let a := s.srcBeat core q q.opA pVX_A (dAfmt q.desc) (dAscale q.desc) b
      let bb := s.srcBeat core q q.opB pVX_B (dBfmt q.desc) (dBscale q.desc) b
      let cfmt := if dEw q.desc = 0 then 0 else 1 + dCfmt q.desc
      let cc := if q.cValid then s.srcBeat core q (.reg q.creg) pVX_B cfmt 0xFFF b else some ([], 0)
      let idxOk := match q.idxReg with
        | some r => !x.owedAny q.id r
        | none => true
      match a, bb, cc with
      | some (av, ta), some (bv, tb), some (cv, _) =>
        let t := max (max nat s.clk.tb) (max ta tb)
        let s' := s.atTb t
        let buf := match q.opD with
          | .line _ => decide (32 ≤ (s.spCore core).vxBeats.length)
          | _ => false
        if !idxOk || buf || !x.docsReady q then .next stalled
        else
          let s' := if t = nat then s' else s'.count .VX_STALL_ACLK (t - nat) core
          let idx := match q.idxReg with
            | some r => if b = 0 then (x.regElems r q.elemBytes 0 q.n).map (· % 512) else q.idx
            | none => []
          let q' := { q with
            ents := t :: q.ents, nextEntry := t + 1, a := q.a ++ av, b := q.b ++ bv, c := q.c ++ cv, idx := idx }
          let wend := if q'.entered then wholeEnd q'.desc q'.ents.reverse else 0
          .next (s'.setVx core { x with
            chains := x.chains.map (fun y => if y.id = q.id then q' else y)
            lastBeat := some t
            macroEnd := if q'.entered then (if wend = 0 then 0 else wend + 1) else x.macroEnd })
      | _, _, _ => .next stalled

/-- When the chain's next unwritten beat is written, if that is known. -/
def VxChain.nextWrite (q : VxChain) : Option Nat :=
  if q.wrote < q.ents.length && (!q.hasWhole || q.entered) then some (q.times.getD q.wrote 0) else none

/-- The chain with the earliest next write. -/
def Vx.nextWriter (x : Vx) : Option (VxChain × Nat) :=
  x.chains.foldl (fun best q =>
    match q.nextWrite, best with
    | none, _ => best
    | some t, none => some (q, t)
    | some t, some (q0, t0) => if t < t0 then some (q, t) else some (q0, t0)) none

/-- VX_BEAT_WRITTEN (R120, R123, R128, R148, R150): the beat whose result is written next. -/
def execVxBeatWritten (core : Core) (s : State) : Out :=
  match (s.vxc core).nextWriter with
  | none => .next s
  | some (q, t) =>
    let s := s.atTb t
    let b := q.wrote
    let len := beatLen (dEw q.desc)
    let i0 := b * len
    let i1 := min q.n (i0 + len)
    let env := s.vxEnv core q
    let res := chainEval env
    let last := decide (q.beats ≤ b + 1)
    let s := (res.effs.filter (fun e => decide (i0 ≤ e.1 ∧ e.1 < i1))).foldl (fun s e => s.vxEff core e) s
    let els := ((res.outs.getLastD []).drop i0).take (i1 - i0)
    let dmask := dDmask q.desc
    let keep := els.map fun e => !dmask || e.live
    let fmt := dDfmt q.desc
    let cs := (els.zip (List.range els.length)).map fun p =>
      cvtVal fmt (dDrnd q.desc) env.dexp p.1.v (env.hash 8 (i0 + p.2) % 65536)
    let x := s.vxc core
    let s := s.setVx core { x with chains := x.chains.map fun y => if y.id = q.id then { y with wrote := b + 1 } else y }
    let s := match res.lse with
      | some (r, vals) =>
        if !last then s
        else
          let w := q.elemBytes
          let code := fun v => if w = 4 then v else (cvtVal 1 0 none v 0).code
          let x := s.vxc core
          s.setVx core { x with v := mputs 0 x.v (r * 1024) (vals.flatMap fun v => leBytes w (code v)) }
      | none => s
    let sat := ((cs.zip keep).filter (fun p => p.1.counted && p.2)).length
    let satOn := fun (s : State) => match env.dexp with
      | some _ => s.recSaturated (dDscale q.desc) sat
      | none => s.vxSaturated core sat
    match res.packed, q.opD with
    | some bytes, .line l =>
      if !last then .next s
      else
        let n := (bytes.length + 63) / 64
        let x := s.vxc core
        let s := s.setVx core { x with nextBeat := x.nextBeat + n }
        .next ((List.range n).foldl (fun s i =>
          let part := (bytes.drop (64 * i)).take 64
          s.present core pVX_W (l + i) (.vxW (x.nextBeat + i) 0)
            (some ⟨fullMask, part ++ zeros (64 - part.length), 0, false⟩) s.clk.tb) s)
    | _, .line l =>
      let s := satOn s
      let w := fmtBytes fmt
      let data := cs.flatMap fun r => leBytes w r.code
      let kb := keep.flatMap fun k => List.replicate w k
      let x := s.vxc core
      let s := s.setVx core { x with nextBeat := x.nextBeat + 1 }
      let lines := (cutKeep (l * 64 + i0 * w) data kb).filter (fun y => y.2.1 != 0)
      .next ((lines.zip (List.range lines.length)).foldl (fun s y =>
        s.present core pVX_W y.1.1 (.vxW x.nextBeat y.2) (some ⟨y.1.2.1, y.1.2.2, 0, false⟩) s.clk.tb) s)
    | _, .reg r =>
      let s := satOn s
      let w := q.elemBytes
      let x := s.vxc core
      let v := ((cs.zip keep).zip (List.range cs.length)).foldl (fun m p =>
        if p.1.2 then mputs 0 m (r * 1024 + (i0 + p.2) * w) (leBytes w p.1.1.code) else m) x.v
      .next ((s.setVx core { x with v := v }).vxDocs core)
    | _, _ => .next s

/-- VX_CHAIN_COMPLETE (R121, R136, R150): of the chains whose beats are all written, the one that completes first. -/
def execVxChainComplete (core : Core) (s : State) : Out :=
  let x := s.vxc core
  let done := fun (q : VxChain) =>
    if q.beats = 0 then
      max (max (q.rel + 8) (x.lastBeat.elim 0 (· + 1))) (max x.macroEnd q.ready) + chainL q.desc + 1
    else max (q.times.getLastD 0) q.sumEnd
  let ready := x.chains.filter fun q => q.entered && decide (q.beats ≤ q.wrote)
  match ready.foldl (fun best q =>
      match best with
      | none => some q
      | some b => if done q < done b then some q else some b) none with
  | none => .next s
  | some q =>
    let t := done q
    let s := s.atTb t
    let s := s.vxSettle core (q.id + 1)
    let x := s.vxc core
    let s := s.setVx core { x with
      chains := x.chains.filter (fun y => y.id != q.id)
      lastDone := some (max t (x.lastDone.getD 0))
      drains := x.drains.map (·.passDone q.id t)
      stopping := x.stopping.map (·.passDone q.id t) }
    let y := s.spCore core
    let mine := fun u : SpUse =>
      match u with
      | .vxSrc id _ _ => id == q.id
      | _ => false
    let s := s.setSp core { y with rx := y.rx.filter (fun r => !mine r.use) }
    let s := s.count .VX_CHAINS 1 core
    let rec_ := dAmxrec q.desc
    let written := ((chainEval (s.vxEnv core q)).outs.getLastD []).filter fun e => !dDmask q.desc || e.live
    let amax := (written.filter (fun e => fin32 e.v)).foldl (fun a e => max a (e.v % 2 ^ 31)) 0
    let nf := (written.filter (fun e => !fin32 e.v)).length
    let s := if rec_ = 0xFFF ∨ q.n = 0 ∨ q.opD = .none then s
      else s.coreSend core (amaxPacket core rec_ amax nf) s.clk.tb
    let s := if bit q.payload 9 then s.arrive core (bits q.payload 8 3) else s
    .next (s.vxDocs core)

/-- CHLOAD (R152, R153): its lines are presented on VX_A, one an NCLK, from six ACLK after the release. -/
def execChload (core : Core) (payload : BitVec 76) (s : State) : Out :=
  let p := withOp 3 payload
  let (s, rel, _) := s.popBundle core 1 p
  let n := bits p 69 64 + 1
  let line := bits p 63 47
  match lowestReason [(bits p 46 0 != 0 || decide (64 < bits p 75 70 + n) || decide (81920 < line + n), 1),
      (s.vxOff core, 2)] with
  | some r => .next (s.vxReject core 3 r)
  | none =>
    let x := s.vxc core
    let s := s.setVx core { x with nextLoad := x.nextLoad + 1, loads := x.loads ++ [⟨x.nextLoad, p, rel⟩] }
    .next ((List.range n).foldl
      (fun s i => s.present core pVX_A (line + i) (.chload x.nextLoad i) none (rel + 6 + 2 * i)) s)

/-- VX_CHLOAD_COMPLETE (R152, R153): two ACLK after the last line of the oldest CHLOAD; the chains that waited for it are
tested. -/
def execVxChloadComplete (core : Core) (s : State) : Out :=
  match (s.vxc core).loads with
  | [] => .next s
  | l :: rest =>
    let n := bits l.payload 69 64 + 1
    let got := (List.range n).map fun i => (s.spCore core).got (.chload l.id i)
    if got.any (·.isNone) then .next s
    else
      let t := got.foldl (fun a g => max a (g.elim 0 (·.tb))) 0 + 2
      let s := s.atTb t
      let x := s.vxc core
      let cid := bits l.payload 75 70
      let desc := (got.zip (List.range n)).foldl (fun m g => mput [] m (cid + g.2) (g.1.elim [] (·.data))) x.desc
      let y := s.spCore core
      let mine := fun u : SpUse =>
        match u with
        | .chload id _ => id == l.id
        | _ => false
      let s := s.setSp core { y with rx := y.rx.filter (fun r => !mine r.use) }
      let s := s.setVx core { x with loads := rest, desc := desc }
      let waiting := x.chains.filter (fun q => q.waitLoad == some l.id)
      .next (waiting.foldl (fun s q =>
        let x := s.vxc core
        if !(x.chains.any (fun y => y.id == q.id)) then s
        else
          let d := mget [] x.desc q.cid
          match chainReason q d (min q.n (vlMax (dEw d))) with
          | some r => (s.setVx core { x with chains := x.chains.filter (fun y => y.id != q.id) }).vxReject core 2 r
          | none => s.vxAccept core q d (t + 1) (max t (q.rel + 6))) s)

/-- POS_BASE (R140): POS with SEL 0b00, or with the reserved SEL 0b10. -/
def execPosBase (core : Core) (selHigh : Bool) (payload : BitVec 74) (s : State) : Out :=
  let p := 4 * 2 ^ 76 + b2n selHigh * 2 ^ 75 + payload.toNat
  let s := (s.popBundle core 1 p).1
  match lowestReason [(selHigh || bits p 33 0 != 0, 1), (s.vxOff core, 2)] with
  | some r => .next (s.vxReject core 4 r)
  | none => .next ((s.fset F.VX_POS_Q_BASE (bits p 73 54) core).fset F.VX_POS_K_BASE (bits p 53 34) core)

/-- POS_WINDOW (R141): POS with SEL 0b01, or with the reserved SEL 0b11. -/
def execPosWindow (core : Core) (selHigh : Bool) (payload : BitVec 74) (s : State) : Out :=
  let p := 4 * 2 ^ 76 + b2n selHigh * 2 ^ 75 + 2 ^ 74 + payload.toNat
  let s := (s.popBundle core 1 p).1
  match lowestReason [(selHigh || bits p 49 0 != 0 || decide (9 < bits p 53 50), 1), (s.vxOff core, 2)] with
  | some r => .next (s.vxReject core 4 r)
  | none => .next ((s.fset F.VX_POS_CFG_WINDOW (bits p 73 54) core).fset F.VX_POS_CFG_RLOG (bits p 53 50) core)

/-- DOCLD (R152, R153). -/
def execDocld (core : Core) (payload : BitVec 76) (s : State) : Out :=
  let p := withOp 5 payload
  let s := (s.popBundle core 1 p).1
  match lowestReason [(bits p 61 0 != 0 || decide (256 < bits p 70 62), 1), (s.vxOff core, 2)] with
  | some r => .next (s.vxReject core 5 r)
  | none =>
    let x := s.vxc core
    let id := x.docId + 1
    let s := s.setVx core { x with docId := id, docWait := x.docWait ++ [⟨id, p, x.nextId⟩] }
    .next ((s.fset F.VX_DOC_COUNT_COUNT (bits p 70 62) core).vxDocs core)

/-- VDRAIN (R151). -/
def execVdrain (core : Core) (payload : BitVec 76) (s : State) : Out :=
  let p := withOp 6 payload
  let (s, rel, _) := s.popBundle core 1 p
  match lowestReason [(bits p 68 0 != 0, 1), (s.vxOff core, 2)] with
  | some r => .next (s.vxReject core 6 r)
  | none =>
    let x := s.vxc core
    .next (s.setVx core { x with drains := x.drains ++ [x.drainNow rel (bit p 75) (bits p 74 69)] })

/-- VX_VDRAIN_COMPLETE (R151). -/
def execVxVdrainComplete (core : Core) (s : State) : Out :=
  let x := s.vxc core
  match x.drains with
  | [] => .next s
  | d :: rest =>
    match d.t with
    | none => .next s
    | some b =>
      let s := s.atTb (max (d.d + 8) b)
      let x := s.vxc core
      let s := (s.setVx core { x with drains := rest }).fset F.VX_STATUS_DRAINED 1 core
      .next (if d.arrive then s.arrive core d.ctr else s)

/-- VX_ENABLE_WRITE (R155). -/
def execVxEnableWrite (core : Core) (value : Bool) (s : State) : Out := .next (s.vxEnable core value)

/-- VX_STOPPING_END (R155). -/
def execVxStoppingEnd (core : Core) (s : State) : Out :=
  let x := s.vxc core
  match x.stopping with
  | none => .next s
  | some d =>
    match d.t with
    | none => .next s
    | some b =>
      let s := s.atTb (max (d.d + 8) b)
      let x := s.vxc core
      if s.flag F.VX_STATUS_ENABLE_PENDING core then
        .next (((s.setVx core { x with stopping := none, enabling := some (s.clk.tb + 1) }).fset
          F.VX_STATUS_ENABLE_PENDING 0 core).fset F.VX_STATUS_STATE eENABLING core)
      else .next ((s.setVx core { x with stopping := none }).fset F.VX_STATUS_STATE eDISABLED core)

/-- VX_ENABLING_END (R155). -/
def execVxEnablingEnd (core : Core) (s : State) : Out :=
  let x := s.vxc core
  match x.enabling with
  | none => .next s
  | some b =>
    let s := s.atTb (b + 16)
    let x := s.vxc core
    .next ((s.setVx core { x with enabling := none }).fset F.VX_STATUS_STATE eENABLED core)

end Sys2Proof.Machine
end

