-- ==== Sys2Proof/Machine/Dispatch.lean ====
section
/-! DEFINITION. One arm for each command: a direct call of its meaning. -/

namespace Sys2Proof.Machine
open Sys2Proof

/-- The effect of a command on everything but the queue. -/
def exec (i : Instr) (s : State) : Host.Outcome State Fault Refusal :=
  match i with
  | .registerWrite lane be data host => Sys2Proof.Machine.execRegisterWrite lane be data host s
  | .counterLowRead tag lane => Sys2Proof.Machine.execCounterLowRead tag lane s
  | .splitLowWordWrite lane low => Sys2Proof.Machine.execSplitLowWordWrite lane low s
  | .splitHighWordWrite lane high => Sys2Proof.Machine.execSplitHighWordWrite lane high s
  | .modLockWrite => Sys2Proof.Machine.execModLockWrite s
  | .profilePresetWrite offset preset => Sys2Proof.Machine.execProfilePresetWrite offset preset s
  | .rwnWrite setting value => Sys2Proof.Machine.execRwnWrite setting value s
  | .rwnCommit => Sys2Proof.Machine.execRwnCommit s
  | .evtRdWrite index => Sys2Proof.Machine.execEvtRdWrite index s
  | .amaxApply packet => Sys2Proof.Machine.execAmaxApply packet s
  | .mxNop core payload => Sys2Proof.Machine.execMxNop core payload s
  | .mxLoad core payload => Sys2Proof.Machine.execMxLoad core payload s
  | .mxLoadBegin core => Sys2Proof.Machine.execMxLoadBegin core s
  | .mxLoadComplete core => Sys2Proof.Machine.execMxLoadComplete core s
  | .mxPass core payload => Sys2Proof.Machine.execMxPass core payload s
  | .mxPassFirstEntry core => Sys2Proof.Machine.execMxPassFirstEntry core s
  | .mxVectorEntry core => Sys2Proof.Machine.execMxVectorEntry core s
  | .mxVectorComplete core => Sys2Proof.Machine.execMxVectorComplete core s
  | .mxOutputRowServed core => Sys2Proof.Machine.execMxOutputRowServed core s
  | .mxPassComplete core => Sys2Proof.Machine.execMxPassComplete core s
  | .mxEpi core payload => Sys2Proof.Machine.execMxEpi core payload s
  | .mxDrain core payload => Sys2Proof.Machine.execMxDrain core payload s
  | .mxDrainComplete core => Sys2Proof.Machine.execMxDrainComplete core s
  | .mxEnableWrite core value => Sys2Proof.Machine.execMxEnableWrite core value s
  | .mxStoppingEnd core => Sys2Proof.Machine.execMxStoppingEnd core s
  | .mxEnablingEnd core => Sys2Proof.Machine.execMxEnablingEnd core s
  | .vxNop core payload => Sys2Proof.Machine.execVxNop core payload s
  | .vsetl core payload => Sys2Proof.Machine.execVsetl core payload s
  | .chain core payload => Sys2Proof.Machine.execChain core payload s
  | .vxBeatEntry core => Sys2Proof.Machine.execVxBeatEntry core s
  | .vxBeatWritten core => Sys2Proof.Machine.execVxBeatWritten core s
  | .vxChainComplete core => Sys2Proof.Machine.execVxChainComplete core s
  | .chload core payload => Sys2Proof.Machine.execChload core payload s
  | .vxChloadComplete core => Sys2Proof.Machine.execVxChloadComplete core s
  | .posBase core selHigh payload => Sys2Proof.Machine.execPosBase core selHigh payload s
  | .posWindow core selHigh payload => Sys2Proof.Machine.execPosWindow core selHigh payload s
  | .docld core payload => Sys2Proof.Machine.execDocld core payload s
  | .vdrain core payload => Sys2Proof.Machine.execVdrain core payload s
  | .vxVdrainComplete core => Sys2Proof.Machine.execVxVdrainComplete core s
  | .vxEnableWrite core value => Sys2Proof.Machine.execVxEnableWrite core value s
  | .vxStoppingEnd core => Sys2Proof.Machine.execVxStoppingEnd core s
  | .vxEnablingEnd core => Sys2Proof.Machine.execVxEnablingEnd core s
  | .add core rd ra rb => Sys2Proof.Machine.execAdd core rd ra rb s
  | .sub core rd ra rb => Sys2Proof.Machine.execSub core rd ra rb s
  | .and core rd ra rb => Sys2Proof.Machine.execAnd core rd ra rb s
  | .or core rd ra rb => Sys2Proof.Machine.execOr core rd ra rb s
  | .xor core rd ra rb => Sys2Proof.Machine.execXor core rd ra rb s
  | .sll core rd ra rb => Sys2Proof.Machine.execSll core rd ra rb s
  | .srl core rd ra rb => Sys2Proof.Machine.execSrl core rd ra rb s
  | .sra core rd ra rb => Sys2Proof.Machine.execSra core rd ra rb s
  | .mul core rd ra rb => Sys2Proof.Machine.execMul core rd ra rb s
  | .mulhu core rd ra rb => Sys2Proof.Machine.execMulhu core rd ra rb s
  | .slt core rd ra rb => Sys2Proof.Machine.execSlt core rd ra rb s
  | .sltu core rd ra rb => Sys2Proof.Machine.execSltu core rd ra rb s
  | .seq core rd ra rb => Sys2Proof.Machine.execSeq core rd ra rb s
  | .flt core rd ra rb => Sys2Proof.Machine.execFlt core rd ra rb s
  | .fle core rd ra rb => Sys2Proof.Machine.execFle core rd ra rb s
  | .feq core rd ra rb => Sys2Proof.Machine.execFeq core rd ra rb s
  | .addi core rd ra imm => Sys2Proof.Machine.execAddi core rd ra imm s
  | .andi core rd ra imm => Sys2Proof.Machine.execAndi core rd ra imm s
  | .ori core rd ra imm => Sys2Proof.Machine.execOri core rd ra imm s
  | .xori core rd ra imm => Sys2Proof.Machine.execXori core rd ra imm s
  | .shiSll core rd ra amount => Sys2Proof.Machine.execShiSll core rd ra amount s
  | .shiSrl core rd ra amount => Sys2Proof.Machine.execShiSrl core rd ra amount s
  | .shiSra core rd ra amount => Sys2Proof.Machine.execShiSra core rd ra amount s
  | .lui core rd imm => Sys2Proof.Machine.execLui core rd imm s
  | .ld core rd ra imm => Sys2Proof.Machine.execLd core rd ra imm s
  | .lw core rd ra imm => Sys2Proof.Machine.execLw core rd ra imm s
  | .sd core rd ra imm => Sys2Proof.Machine.execSd core rd ra imm s
  | .sw core rd ra imm => Sys2Proof.Machine.execSw core rd ra imm s
  | .epruStoreWrite core => Sys2Proof.Machine.execEpruStoreWrite core s
  | .rld core rd ra imm => Sys2Proof.Machine.execRld core rd ra imm s
  | .rst core rd ra imm => Sys2Proof.Machine.execRst core rd ra imm s
  | .beq core ra rb off => Sys2Proof.Machine.execBeq core ra rb off s
  | .bne core ra rb off => Sys2Proof.Machine.execBne core ra rb off s
  | .blt core ra rb off => Sys2Proof.Machine.execBlt core ra rb off s
  | .bge core ra rb off => Sys2Proof.Machine.execBge core ra rb off s
  | .bltu core ra rb off => Sys2Proof.Machine.execBltu core ra rb off s
  | .bgeu core ra rb off => Sys2Proof.Machine.execBgeu core ra rb off s
  | .jal core rd off => Sys2Proof.Machine.execJal core rd off s
  | .jr core rd ra imm => Sys2Proof.Machine.execJr core rd ra imm s
  | .csrr core rd offset => Sys2Proof.Machine.execCsrr core rd offset s
  | .csrw core ra offset => Sys2Proof.Machine.execCsrw core ra offset s
  | .rdtTb core rd => Sys2Proof.Machine.execRdtTb core rd s
  | .rdtWt core rd => Sys2Proof.Machine.execRdtWt core rd s
  | .rdtSegBase core rd => Sys2Proof.Machine.execRdtSegBase core rd s
  | .rdtCoreIndex core rd => Sys2Proof.Machine.execRdtCoreIndex core rd s
  | .rdtTractSlot core rd => Sys2Proof.Machine.execRdtTractSlot core rd s
  | .rdtSegmentNumber core rd => Sys2Proof.Machine.execRdtSegmentNumber core rd s
  | .rdtRerunCount core rd => Sys2Proof.Machine.execRdtRerunCount core rd s
  | .issue core rd ra rb => Sys2Proof.Machine.execIssue core rd ra rb s
  | .biss core rd ra rb => Sys2Proof.Machine.execBiss core rd ra rb s
  | .issueQueueWaitEnd core => Sys2Proof.Machine.execIssueQueueWaitEnd core s
  | .waitc core ra imm => Sys2Proof.Machine.execWaitc core ra imm s
  | .waitcSatisfied core => Sys2Proof.Machine.execWaitcSatisfied core s
  | .setc core ra imm => Sys2Proof.Machine.execSetc core ra imm s
  | .rdc core rd imm => Sys2Proof.Machine.execRdc core rd imm s
  | .ifill core ra rb fn => Sys2Proof.Machine.execIfill core ra rb fn s
  | .barSeg core => Sys2Proof.Machine.execBarSeg core s
  | .barStep core => Sys2Proof.Machine.execBarStep core s
  | .reqr core cause => Sys2Proof.Machine.execReqr core cause s
  | .tfault core code => Sys2Proof.Machine.execTfault core code s
  | .srNop core payload => Sys2Proof.Machine.execSrNop core payload s
  | .larrive core payload => Sys2Proof.Machine.execLarrive core payload s
  | .deferredBundleRelease core => Sys2Proof.Machine.execDeferredBundleRelease core s
  | .barrierArrival core => Sys2Proof.Machine.execBarrierArrival core s
  | .barPacketForward core => Sys2Proof.Machine.execBarPacketForward core s
  | .brelReceive core => Sys2Proof.Machine.execBrelReceive core s
  | .barrierRelease slot => Sys2Proof.Machine.execBarrierRelease slot s
  | .barrierTimeout slot => Sys2Proof.Machine.execBarrierTimeout slot s
  | .tagBlockTimeout core port bank => Sys2Proof.Machine.execTagBlockTimeout core port bank s
  | .tractLoad slot => Sys2Proof.Machine.execTractLoad slot s
  | .tractFree slot => Sys2Proof.Machine.execTractFree slot s
  | .tractEnable slot => Sys2Proof.Machine.execTractEnable slot s
  | .tractDisable slot => Sys2Proof.Machine.execTractDisable slot s
  | .tractCodeFillComplete slot => Sys2Proof.Machine.execTractCodeFillComplete slot s
  | .scratchpadAccessServed core port bank => Sys2Proof.Machine.execScratchpadAccessServed core port bank s
  | .rowAccessServed core group => Sys2Proof.Machine.execRowAccessServed core group s
  | .spInjArmWrite core => Sys2Proof.Machine.execSpInjArmWrite core s
  | .spBistStart core => Sys2Proof.Machine.execSpBistStart core s
  | .spBistComplete core row line => Sys2Proof.Machine.execSpBistComplete core row line s
  | .bar4Read tag offset n => Sys2Proof.Machine.execBar4Read tag offset n s
  | .bar4Write offset data be => Sys2Proof.Machine.execBar4Write offset data be s
  | .routerHop core packet => Sys2Proof.Machine.execRouterHop core packet s
  | .mergeStageEntry core packet => Sys2Proof.Machine.execMergeStageEntry core packet s
  | .mergeStageExit core => Sys2Proof.Machine.execMergeStageExit core s
  | .rimRingHop stop packet => Sys2Proof.Machine.execRimRingHop stop packet s
  | .fbWrDeliver core packet => Sys2Proof.Machine.execFbWrDeliver core packet s
  | .fbRdDeliver core packet => Sys2Proof.Machine.execFbRdDeliver core packet s
  | .fbRedDeliver core packet => Sys2Proof.Machine.execFbRedDeliver core packet s
  | .regrdDeliver packet => Sys2Proof.Machine.execRegrdDeliver packet s
  | .regwrDeliver packet => Sys2Proof.Machine.execRegwrDeliver packet s
  | .rdrReceive packet => Sys2Proof.Machine.execRdrReceive packet s
  | .wackReceive packet => Sys2Proof.Machine.execWackReceive packet s
  | .regrReceive packet => Sys2Proof.Machine.execRegrReceive packet s
  | .fwr core payload => Sys2Proof.Machine.execFwr core payload s
  | .frd core payload => Sys2Proof.Machine.execFrd core payload s
  | .fred core payload => Sys2Proof.Machine.execFred core payload s
  | .linkFlitError link => Sys2Proof.Machine.execLinkFlitError link s
  | .heartbeatSend link => Sys2Proof.Machine.execHeartbeatSend link s
  | .linkHeartbeatLapse link => Sys2Proof.Machine.execLinkHeartbeatLapse link s
  | .bowWriteInject east fy => Sys2Proof.Machine.execBowWriteInject east fy s
  | .bowLineAtTap core => Sys2Proof.Machine.execBowLineAtTap core s
  | .hbmRead chan upsets => Sys2Proof.Machine.execHbmRead chan upsets s
  | .hbmWrite chan upsets => Sys2Proof.Machine.execHbmWrite chan upsets s
  | .hbmAccumulate chan upsets => Sys2Proof.Machine.execHbmAccumulate chan upsets s
  | .hbmReadClear chan access upsets => Sys2Proof.Machine.execHbmReadClear chan access upsets s
  | .channelRequestAccept packet => Sys2Proof.Machine.execChannelRequestAccept packet s
  | .hbmReadComplete chan => Sys2Proof.Machine.execHbmReadComplete chan s
  | .hbmRequestTimeout chan => Sys2Proof.Machine.execHbmRequestTimeout chan s
  | .eccWriteback chan => Sys2Proof.Machine.execEccWriteback chan s
  | .patrolScrubRead chan upsets => Sys2Proof.Machine.execPatrolScrubRead chan upsets s
  | .hbmFlushWrite stack => Sys2Proof.Machine.execHbmFlushWrite stack s
  | .hbmFlushEnd stack => Sys2Proof.Machine.execHbmFlushEnd stack s
  | .hbmMapoutWrite stack => Sys2Proof.Machine.execHbmMapoutWrite stack s
  | .hbmEnableWrite stack value => Sys2Proof.Machine.execHbmEnableWrite stack value s
  | .hbmEnablingEnd stack => Sys2Proof.Machine.execHbmEnablingEnd stack s
  | .hbmStoppingEnd stack => Sys2Proof.Machine.execHbmStoppingEnd stack s
  | .stackTempSample stack celsius => Sys2Proof.Machine.execStackTempSample stack celsius s
  | .gsEnableWrite stream value => Sys2Proof.Machine.execGsEnableWrite stream value s
  | .gsStoppingEnd stream => Sys2Proof.Machine.execGsStoppingEnd stream s
  | .gristPositionFetch stream => Sys2Proof.Machine.execGristPositionFetch stream s
  | .gristSourceResponse packet => Sys2Proof.Machine.execGristSourceResponse packet s
  | .gneed core payload => Sys2Proof.Machine.execGneed core payload s
  | .grel core payload => Sys2Proof.Machine.execGrel core payload s
  | .save core payload => Sys2Proof.Machine.execSave core payload s
  | .saveComplete core => Sys2Proof.Machine.execSaveComplete core s
  | .pfstart core payload => Sys2Proof.Machine.execPfstart core payload s
  | .pfRecordFetch core => Sys2Proof.Machine.execPfRecordFetch core s
  | .pfRecordComplete core => Sys2Proof.Machine.execPfRecordComplete core s
  | .aneed core payload => Sys2Proof.Machine.execAneed core payload s
  | .arel core payload => Sys2Proof.Machine.execArel core payload s
  | .stpEnableWrite core value => Sys2Proof.Machine.execStpEnableWrite core value s
  | .stpStoppingEnd core => Sys2Proof.Machine.execStpStoppingEnd core s
  | .stpEnablingEnd core => Sys2Proof.Machine.execStpEnablingEnd core s
  | .rackGranuleCopy => Sys2Proof.Machine.execRackGranuleCopy s
  | .rackCopyResponse packet => Sys2Proof.Machine.execRackCopyResponse packet s
  | .rkEnableWrite value => Sys2Proof.Machine.execRkEnableWrite value s
  | .rkNowWrite value => Sys2Proof.Machine.execRkNowWrite value s
  | .brimEnableWrite port value => Sys2Proof.Machine.execBrimEnableWrite port value s
  | .brimRetrainWrite port => Sys2Proof.Machine.execBrimRetrainWrite port s
  | .blockLockLoss port group => Sys2Proof.Machine.execBlockLockLoss port group s
  | .brimTrainingAttemptEnd port lockA lockB => Sys2Proof.Machine.execBrimTrainingAttemptEnd port lockA lockB s
  | .brimGroupRetry port locks => Sys2Proof.Machine.execBrimGroupRetry port locks s
  | .brimStoppingEnd port => Sys2Proof.Machine.execBrimStoppingEnd port s
  | .brimDataFlit port flit => Sys2Proof.Machine.execBrimDataFlit port flit s
  | .brimIdleFlit port flit => Sys2Proof.Machine.execBrimIdleFlit port flit s
  | .brimPeerFlit port msg => Sys2Proof.Machine.execBrimPeerFlit port msg s
  | .brimTimeFlit port reply t1 t2 t3 => Sys2Proof.Machine.execBrimTimeFlit port reply t1 t2 t3 s
  | .timeExchangeStart => Sys2Proof.Machine.execTimeExchangeStart s
  | .ptpMessage port msg => Sys2Proof.Machine.execPtpMessage port msg s
  | .brimReplayTimeout port => Sys2Proof.Machine.execBrimReplayTimeout port s
  | .brimFrameReceive port good corr uncorr etype packet => Sys2Proof.Machine.execBrimFrameReceive port good corr uncorr etype packet s
  | .pfcPauseFrame port iface enables times => Sys2Proof.Machine.execPfcPauseFrame port iface enables times s
  | .brimPacketTransmit port => Sys2Proof.Machine.execBrimPacketTransmit port s
  | .brimRequestQueue port packet => Sys2Proof.Machine.execBrimRequestQueue port packet s
  | .brimWr port packet => Sys2Proof.Machine.execBrimWr port packet s
  | .brimRd port packet => Sys2Proof.Machine.execBrimRd port packet s
  | .brimRegrd port packet => Sys2Proof.Machine.execBrimRegrd port packet s
  | .brimRegwr port packet => Sys2Proof.Machine.execBrimRegwr port packet s
  | .brimRdr port packet => Sys2Proof.Machine.execBrimRdr port packet s
  | .brimWack port packet => Sys2Proof.Machine.execBrimWack port packet s
  | .brimRegr port packet => Sys2Proof.Machine.execBrimRegr port packet s
  | .brimRacc port packet => Sys2Proof.Machine.execBrimRacc port packet s
  | .remoteTagTimeout tag => Sys2Proof.Machine.execRemoteTagTimeout tag s
  | .tagCoolEnd tag => Sys2Proof.Machine.execTagCoolEnd tag s
  | .brimFlowWrite port flow value => Sys2Proof.Machine.execBrimFlowWrite port flow value s
  | .redToRacc port packet => Sys2Proof.Machine.execRedToRacc port packet s
  | .raccAccept packet => Sys2Proof.Machine.execRaccAccept packet s
  | .localRedAccept packet => Sys2Proof.Machine.execLocalRedAccept packet s
  | .countUpdate chan => Sys2Proof.Machine.execCountUpdate chan s
  | .redWinEnableWrite win value => Sys2Proof.Machine.execRedWinEnableWrite win value s
  | .windowClearingComplete win => Sys2Proof.Machine.execWindowClearingComplete win s
  | .windowDeadline win => Sys2Proof.Machine.execWindowDeadline win s
  | .closeOutStart win => Sys2Proof.Machine.execCloseOutStart win s
  | .closeOutEnd win => Sys2Proof.Machine.execCloseOutEnd win s
  | .stepBoundaryProcessing => Sys2Proof.Machine.execStepBoundaryProcessing s
  | .stepSyncEdge => Sys2Proof.Machine.execStepSyncEdge s
  | .syncWindowEnd => Sys2Proof.Machine.execSyncWindowEnd s
  | .stepOutEnd => Sys2Proof.Machine.execStepOutEnd s
  | .corePulseLapse pos => Sys2Proof.Machine.execCorePulseLapse pos s
  | .hlthCoreFailWrite phys index => Sys2Proof.Machine.execHlthCoreFailWrite phys index s
  | .coreFailureDeclaration => Sys2Proof.Machine.execCoreFailureDeclaration s
  | .spareSubstitution tries => Sys2Proof.Machine.execSpareSubstitution tries s
  | .rePlacement => Sys2Proof.Machine.execRePlacement s
  | .hlthLossWrite loss => Sys2Proof.Machine.execHlthLossWrite loss s
  | .hlthLossClear => Sys2Proof.Machine.execHlthLossClear s
  | .hlthNfAddWrite count => Sys2Proof.Machine.execHlthNfAddWrite count s
  | .hydrometerUpdate => Sys2Proof.Machine.execHydrometerUpdate s
  | .pwrOkLow => Sys2Proof.Machine.execPwrOkLow s
  | .pwrOkRelease => Sys2Proof.Machine.execPwrOkRelease s
  | .busbarUvloFall => Sys2Proof.Machine.execBusbarUvloFall s
  | .busbarUvloRise => Sys2Proof.Machine.execBusbarUvloRise s
  | .perstNAssert => Sys2Proof.Machine.execPerstNAssert s
  | .perstNDeassert => Sys2Proof.Machine.execPerstNDeassert s
  | .modRstNLow => Sys2Proof.Machine.execModRstNLow s
  | .modRstNHigh => Sys2Proof.Machine.execModRstNHigh s
  | .rstCmdWarm path key => Sys2Proof.Machine.execRstCmdWarm path key s
  | .rstCmdCompute path key => Sys2Proof.Machine.execRstCmdCompute path key s
  | .rstCmdTract path key target => Sys2Proof.Machine.execRstCmdTract path key target s
  | .rstCmdCore path key phys target => Sys2Proof.Machine.execRstCmdCore path key phys target s
  | .wdogKickWrite => Sys2Proof.Machine.execWdogKickWrite s
  | .watchdogExpiry => Sys2Proof.Machine.execWatchdogExpiry s
  | .pllLossOfLock field => Sys2Proof.Machine.execPllLossOfLock field s
  | .clockLoss domain field => Sys2Proof.Machine.execClockLoss domain field s
  | .clockGood field => Sys2Proof.Machine.execClockGood field s
  | .domainRelease domain field => Sys2Proof.Machine.execDomainRelease domain field s
  | .startUpPhaseEnd facts => Sys2Proof.Machine.execStartUpPhaseEnd facts s
  | .karReport pos part signature => Sys2Proof.Machine.execKarReport pos part signature s
  | .karDeadline pos => Sys2Proof.Machine.execKarDeadline pos s
  | .readySet => Sys2Proof.Machine.execReadySet s
  | .startUpMapCommit => Sys2Proof.Machine.execStartUpMapCommit s
  | .trimRetryWrite => Sys2Proof.Machine.execTrimRetryWrite s
  | .skimLevelChange => Sys2Proof.Machine.execSkimLevelChange s
  | .pwrTargetWrite target => Sys2Proof.Machine.execPwrTargetWrite target s
  | .powerRungEnter => Sys2Proof.Machine.execPowerRungEnter s
  | .powerRungReached => Sys2Proof.Machine.execPowerRungReached s
  | .powerExitComplete => Sys2Proof.Machine.execPowerExitComplete s
  | .autoSimmerIdle => Sys2Proof.Machine.execAutoSimmerIdle s
  | .coresReadySet => Sys2Proof.Machine.execCoresReadySet s
  | .powerSample watts millivolts => Sys2Proof.Machine.execPowerSample watts millivolts s
  | .rampStep => Sys2Proof.Machine.execRampStep s
  | .fieldTempSample field reading vcore watts => Sys2Proof.Machine.execFieldTempSample field reading vcore watts s
  | .fldParkWrite field value => Sys2Proof.Machine.execFldParkWrite field value s
  | .fieldParkComplete field => Sys2Proof.Machine.execFieldParkComplete field s
  | .fieldUnparkComplete field => Sys2Proof.Machine.execFieldUnparkComplete field s
  | .fldMaxClrWrite field => Sys2Proof.Machine.execFldMaxClrWrite field s
  | .bar2Read tag offset n => Sys2Proof.Machine.execBar2Read tag offset n s
  | .bar2Write offset data be poison => Sys2Proof.Machine.execBar2Write offset data be poison s
  | .hostDmaWrite packet => Sys2Proof.Machine.execHostDmaWrite packet s
  | .hostDmaRead packet => Sys2Proof.Machine.execHostDmaRead packet s
  | .hostCompletion id status data poison => Sys2Proof.Machine.execHostCompletion id status data poison s
  | .hostCompletionTimeout => Sys2Proof.Machine.execHostCompletionTimeout s
  | .jobOwnerWrite job => Sys2Proof.Machine.execJobOwnerWrite job s
  | .jobTablePoll => Sys2Proof.Machine.execJobTablePoll s
  | .jobLoad job hostTable => Sys2Proof.Machine.execJobLoad job hostTable s
  | .jobStart job => Sys2Proof.Machine.execJobStart job s
  | .jobStop job => Sys2Proof.Machine.execJobStop job s
  | .jobUnload job => Sys2Proof.Machine.execJobUnload job s
  | .jobCommandComplete job => Sys2Proof.Machine.execJobCommandComplete job s
  | .intakeGo ring k => Sys2Proof.Machine.execIntakeGo ring k s
  | .intakeHeaderArrive ring => Sys2Proof.Machine.execIntakeHeaderArrive ring s
  | .intakeHeaderRetry ring => Sys2Proof.Machine.execIntakeHeaderRetry ring s
  | .intakeWaitExpire ring => Sys2Proof.Machine.execIntakeWaitExpire ring s
  | .intakeFetchComplete ring => Sys2Proof.Machine.execIntakeFetchComplete ring s
  | .intakeRelease ring k => Sys2Proof.Machine.execIntakeRelease ring k s
  | .i3cAddressAssign address => Sys2Proof.Machine.execI3cAddressAssign address s
  | .mctpSetEndpointId pcie eid => Sys2Proof.Machine.execMctpSetEndpointId pcie eid s
  | .pldmBaseCommand command => Sys2Proof.Machine.execPldmBaseCommand command s
  | .pldmGetSensorReading sensor => Sys2Proof.Machine.execPldmGetSensorReading sensor s
  | .pldmFirmwareUpdate device image writeError => Sys2Proof.Machine.execPldmFirmwareUpdate device image writeError s
  | .pldmActivateFirmware device => Sys2Proof.Machine.execPldmActivateFirmware device s
  | .spdmNegotiate version falcon sha3 => Sys2Proof.Machine.execSpdmNegotiate version falcon sha3 s
  | .spdmGetCertificate slot => Sys2Proof.Machine.execSpdmGetCertificate slot s
  | .spdmChallenge slot nonce => Sys2Proof.Machine.execSpdmChallenge slot nonce s
  | .spdmGetMeasurements index nonce => Sys2Proof.Machine.execSpdmGetMeasurements index nonce s
  | .mctpReset value => Sys2Proof.Machine.execMctpReset value s
  | .mctpWdogKick => Sys2Proof.Machine.execMctpWdogKick s
  | .mctpRegRead offset => Sys2Proof.Machine.execMctpRegRead offset s
  | .mctpRegWrite offset value => Sys2Proof.Machine.execMctpRegWrite offset value s
  | .debugUnlock token => Sys2Proof.Machine.execDebugUnlock token s
  | .keyRevoke token => Sys2Proof.Machine.execKeyRevoke token s
  | .jtagInstruction instr => Sys2Proof.Machine.execJtagInstruction instr s
  | .logSecondUpdate => Sys2Proof.Machine.execLogSecondUpdate s
  | .logPeriodicCommit => Sys2Proof.Machine.execLogPeriodicCommit s
  | .monClearWrite mon => Sys2Proof.Machine.execMonClearWrite mon s
  | .monSourceChange mon src sel => Sys2Proof.Machine.execMonSourceChange mon src sel s
  | .pllLock field => Sys2Proof.Machine.execPllLock field s
  | .referenceNclk core => Sys2Proof.Machine.execReferenceNclk core s
  | .configurationWrite write => Sys2Proof.Machine.execConfigurationWrite write s
  | .reservedOpcodeRelease core queue payload => Sys2Proof.Machine.execReservedOpcodeRelease core queue payload s
  | .epruReservedInstruction core => Sys2Proof.Machine.execEpruReservedInstruction core s

end Sys2Proof.Machine
end

