-- ==== Sys2Proof/Safety.lean ====
section
/-! DEFINITION. The words in which claims about the module are made: that a command answers a next state, what it leaves as it
was, and the canonical form of the memories. -/

namespace Sys2Proof.Machine
open Sys2Proof

/-- The command answers a next state of which P holds. -/
def Gives (c : Instr) (s : State) (P : State → Prop) : Prop := ∃ t, exec c s = .next t ∧ P t

/-- Every register is as before, but for those at the offsets named. -/
def RegsKept (s t : State) (but : List Nat) : Prop := ∀ a d, a ∉ but → mget d t.regs a = mget d s.regs a

/-- Every byte of every scratchpad reads as before, and so do the codes and tags of its lines (R203, R218, R219). -/
def SpKept (s t : State) : Prop :=
  (∀ a, mget 0 t.sp a = mget 0 s.sp a) ∧ (∀ k, mget 0 t.spCode k = mget 0 s.spCode k)
    ∧ ∀ k, mget 0 t.spTag k = mget 0 s.spTag k

/-- Every byte of every stack reads as before, and so do the poison bits and stored error symbols (R266, R272, R276). -/
def StacksKept (s t : State) : Prop :=
  (∀ a, mget 0 t.hbm a = mget 0 s.hbm a) ∧ (∀ k, mget 0 t.hbmPoison k = mget 0 s.hbmPoison k)
    ∧ ∀ k, mget [] t.hbmErr k = mget [] s.hbmErr k

/-- Every byte of the scratchpads and of the stacks reads as before. -/
def MemKept (s t : State) : Prop := SpKept s t ∧ StacksKept s t

/-- The memories of scratchpads and stacks are in canonical form. -/
def MemOk (s : State) : Prop := Memory.wf s.sp = true ∧ Memory.wf s.hbm = true

/-- A run of bytes of one scratchpad, by its addresses in the byte map. -/
def spRange (s : State) (core b n a : Nat) : Prop := s.spByte core b ≤ a ∧ a < s.spByte core b + n

/-- The event ring has room (R48). -/
def EvtRoom (s : State) : Prop := (s.fget F.MOD_EVT_WR_INDEX + 8192 - s.fget F.MOD_EVT_RD_INDEX) % 8192 < 4096

/-- The event stands in the ring where the next entry was to go (R48, R49). -/
def Raised (s t : State) (code kind idx detail : Nat) : Prop :=
  let e := mget EvtEntry.zero t.ring (s.fget F.MOD_EVT_WR_INDEX % 4096)
  e.code = code ∧ e.kind = kind ∧ e.idx = idx ∧ e.detail = detail % 2 ^ 64

/-- Counter r of an instance has risen by n, or stands at its largest value (R13). -/
def Counted (s t : State) (r : RegId) (i n : Nat) : Prop := (t.rd r i).toNat = min ((s.rd r i).toNat + n) (2 ^ 64 - 1)

/-- Nothing differs but the registers named. -/
def OnlyRegs (regs : List Nat) (s t : State) : Prop := RegsKept s t regs ∧ { t with regs := s.regs } = s

/-! ## The Epru -/

/-- The registers that running an Epru instruction writes of itself: its status, its two counters, and the count of skimmed
edges when time passes (R158, R161, R433). -/
def epRegs (c : Nat) : List Nat :=
  [RegId.EP_STATUS.addr c 0 0, RegId.EP_WAIT_CCLK.addr c 0 0, RegId.EP_INSTRUCTIONS.addr c 0 0, RegId.CLK_SKIMMED.addr 0 0 0]

/-- Nothing differs but the clocks, the registers `epRegs`, and the Epru of core c. -/
def EpFrame (c : Nat) (s t : State) : Prop :=
  RegsKept s t (epRegs c) ∧ MemKept s t ∧ (∀ d, d ≠ c → t.core d = s.core d)
    ∧ { t with clk := s.clk, regs := s.regs, ep := s.ep } = s

/-- The Epru of core c runs, and its next instruction is not beyond the last one (R164). -/
def EpReady (s : State) (c : Nat) : Prop := s.epState c = epRUN ∧ s.pc c < 16383

/-- An instruction of core c has written v, modulo 2^64, to register rd, which may be read n CCLK later, and the Epru goes on with
the next instruction; every other register of it is as before (R157 to R161). -/
def EpWrote (c : Nat) (rd : RegNo) (v n : Nat) (s t : State) : Prop :=
  t.g c rd = (if rd.val = 0 then 0 else v % 2 ^ 64)
    ∧ (rd.val ≠ 0 → mget 0 (t.core c).ready rd = t.clk.tb + 4 * n)
    ∧ (∀ r : RegNo, r ≠ rd → t.g c r = s.g c r)
    ∧ t.pc c = s.pc c + 1 ∧ t.epState c = epRUN ∧ (t.core c).next = t.clk.tb + 4

/-- No tag window of the core's tract holds the line, or the core is in no tract (R185). -/
def Untagged (s : State) (c line : Nat) : Prop := ∀ t, s.slotOf c = some t → s.tagWindow t line = none

/-- The next instruction of core c begins in the present ACLK: a CCLK edge, with the Epru free and every register readable (R158,
R161). -/
def EpStartsNow (s : State) (c : Nat) : Prop :=
  s.clk.tb % 4 = 0 ∧ (s.core c).next ≤ s.clk.tb ∧ ∀ r, mget 0 (s.core c).ready r ≤ s.clk.tb

/-- A bundle that core c writes in ACLK t, its TS increased by `add`, meets R166 (a queue, reserved bits 0, no DEFER, TS of 40 bits and
not descending, room in the queue, idempotent) and R168 (its release is at least 4 ACLK away, has fewer than four bundles, and
follows the deferred ones). -/
def BundleOnTime (s : State) (c b add t : Nat) : Prop :=
  let e := s.core c
  let q := bQ b
  let ts := bTs b + add
  let rel := e.segBase + ts
  q < 3 ∧ bits b 125 124 = 0 ∧ bits b 82 80 = 0 ∧ bDefer b = false ∧ ts < 2 ^ 40 ∧ mget 0 e.lastTs q ≤ ts
    ∧ (q = 2 → s.idempotent c (bPayload b) (s.fabTarget c (bPayload b)) = true ∧ e.srFree ≤ rel)
    ∧ (e.queue q).length < queueCap q ∧ t + 4 ≤ rel
    ∧ ((mget (0, 0) e.lastRel q).1 = rel → (mget (0, 0) e.lastRel q).2 < 4)

/-- A bundle that goes to the deferred buffer (R171). -/
def BundleDeferred (b add : Nat) : Prop :=
  bQ b = 2 ∧ bits b 125 124 = 0 ∧ bits b 82 80 = 0 ∧ bDefer b = true ∧ bTs b + add = 0

/-- The bundle stands last in its queue, with its release ACLK and its target address; the other queues are as before. -/
def Queued (c b add : Nat) (s t : State) : Prop :=
  (t.core c).queue (bQ b) = (s.core c).queue (bQ b) ++ [⟨(s.core c).segBase + (bTs b + add), bPayload b,
      if bQ b = 2 then s.fabTarget c (bPayload b) else 0⟩]
    ∧ ∀ q, q < 3 → q ≠ bQ b → (t.core c).queue q = (s.core c).queue q

/-! ## Engines -/

/-- Nothing differs but the clocks, CLK_SKIMMED and the registers named, and of core c its matrix engine, its Epru's queues and its
scratchpad's requests. -/
def MxFrame (c : Nat) (regs : List Nat) (s t : State) : Prop :=
  RegsKept s t (RegId.CLK_SKIMMED.addr 0 0 0 :: regs) ∧ MemKept s t
    ∧ (∀ d, d ≠ c → t.mxc d = s.mxc d ∧ t.core d = s.core d ∧ t.spCore d = s.spCore d)
    ∧ { t with clk := s.clk, regs := s.regs, ep := s.ep, mx := s.mx, spc := s.spc } = s

/-- The same for the vector engine of core c. -/
def VxFrame (c : Nat) (regs : List Nat) (s t : State) : Prop :=
  RegsKept s t (RegId.CLK_SKIMMED.addr 0 0 0 :: regs) ∧ MemKept s t
    ∧ (∀ d, d ≠ c → t.vxc d = s.vxc d ∧ t.core d = s.core d ∧ t.spCore d = s.spCore d)
    ∧ { t with clk := s.clk, regs := s.regs, ep := s.ep, vx := s.vx, spc := s.spc } = s

end Sys2Proof.Machine
end

