-- ==== Sys2Proof/Certificates/Slice0/Obligations.lean ====
section
/-! DEFINITION. The statements for the provers. -/

open Sys2Proof Sys2Proof.Machine

/-! ## The Epru (05) -/

/-- R160: what the sixteen register-register instructions leave in RD, with its latency, and their frame. -/
def Claim.EpruRegisterResults : Prop :=
  ∀ (s : State) (c : Core) (rd ra rb : RegNo), EpReady s c →
    let a := s.g c ra
    let b := s.g c rb
    let wrote := fun v n t => EpWrote c rd v n s t ∧ EpFrame c s t
    Gives (.add c rd ra rb) s (wrote (a + b) 1) ∧ Gives (.sub c rd ra rb) s (wrote (a + 2 ^ 64 - b) 1)
    ∧ Gives (.and c rd ra rb) s (wrote (a &&& b) 1) ∧ Gives (.or c rd ra rb) s (wrote (a ||| b) 1)
    ∧ Gives (.xor c rd ra rb) s (wrote (a ^^^ b) 1)
    ∧ Gives (.sll c rd ra rb) s (wrote (a * 2 ^ (b % 64)) 1) ∧ Gives (.srl c rd ra rb) s (wrote (a / 2 ^ (b % 64)) 1)
    ∧ Gives (.sra c rd ra rb) s (wrote ((toSigned 64 a / 2 ^ (b % 64)) % 2 ^ 64).toNat 1)
    ∧ Gives (.mul c rd ra rb) s (wrote (a * b) 3) ∧ Gives (.mulhu c rd ra rb) s (wrote (a * b / 2 ^ 64) 3)
    ∧ Gives (.slt c rd ra rb) s (wrote (if toSigned 64 a < toSigned 64 b then 1 else 0) 1)
    ∧ Gives (.sltu c rd ra rb) s (wrote (if a < b then 1 else 0) 1)
    ∧ Gives (.seq c rd ra rb) s (wrote (if a = b then 1 else 0) 1)
    ∧ Gives (.flt c rd ra rb) s (wrote (if (v32 (a % 2 ^ 32)).lt (v32 (b % 2 ^ 32)) = true then 1 else 0) 1)
    ∧ Gives (.fle c rd ra rb) s (wrote (if (v32 (a % 2 ^ 32)).lt (v32 (b % 2 ^ 32)) = true
        ∨ (v32 (a % 2 ^ 32)).eqv (v32 (b % 2 ^ 32)) = true then 1 else 0) 1)
    ∧ Gives (.feq c rd ra rb) s (wrote (if (v32 (a % 2 ^ 32)).eqv (v32 (b % 2 ^ 32)) = true then 1 else 0) 1)

/-- R160: what the immediate instructions, LUI and the RDT sources leave in RD, and their frame. -/
def Claim.EpruImmediateResults : Prop :=
  ∀ (s : State) (c : Core) (rd ra : RegNo) (imm : BitVec 16) (n : BitVec 6), EpReady s c →
    let a := s.g c ra
    let wrote := fun v t => EpWrote c rd v 1 s t ∧ EpFrame c s t
    Gives (.addi c rd ra imm) s (wrote (a + (toSigned 16 imm.toNat % 2 ^ 64).toNat))
    ∧ Gives (.andi c rd ra imm) s (wrote (a &&& imm.toNat)) ∧ Gives (.ori c rd ra imm) s (wrote (a ||| imm.toNat))
    ∧ Gives (.xori c rd ra imm) s (wrote (a ^^^ imm.toNat))
    ∧ Gives (.shiSll c rd ra n) s (wrote (a * 2 ^ n.toNat)) ∧ Gives (.shiSrl c rd ra n) s (wrote (a / 2 ^ n.toNat))
    ∧ Gives (.shiSra c rd ra n) s (wrote ((toSigned 64 a / 2 ^ n.toNat) % 2 ^ 64).toNat)
    ∧ Gives (.lui c rd imm) s (wrote (toSigned 32 (imm.toNat * 2 ^ 16) % 2 ^ 64).toNat)
    ∧ Gives (.rdtTb c rd) s (fun t => wrote t.clk.tb t) ∧ Gives (.rdtWt c rd) s (fun t => wrote t.clk.wt t)
    ∧ Gives (.rdtCoreIndex c rd) s (wrote c.val)
    ∧ Gives (.rdtSegBase c rd) s (wrote (if s.slotOf c = none then 0 else (s.core c).segBase))
    ∧ Gives (.rdtTractSlot c rd) s (wrote (match s.slotOf c with | some t => t | none => 2 ^ 64 - 1))
    ∧ Gives (.rdtSegmentNumber c rd) s (wrote (match s.slotOf c with | some t => (s.rd .TRACT_SEG t).toNat | none => 0))
    ∧ Gives (.rdtRerunCount c rd) s (wrote (match s.slotOf c with | some t => s.fget F.TRACT_RERUN_COUNT t | none => 0))

/-- R160: what the register-register instructions, the immediate instructions, LUI and RDT leave in RD, with their latency, and
that they leave every other register, every register of the map and every byte of memory as it was. -/
def Obligations.EpruResults : Prop := Claim.EpruRegisterResults ∧ Claim.EpruImmediateResults

/-- R160: the branches go to PC + OFF in 2 CCLK when their condition holds and to PC + 1 in 1 CCLK when it does not; no register is
written. -/
def Claim.EpruBranches : Prop :=
  ∀ (s : State) (c : Core) (ra rb : RegNo) (off : BitVec 16), EpReady s c →
    0 ≤ (s.pc c : Int) + toSigned 16 off.toNat → (s.pc c : Int) + toSigned 16 off.toNat ≤ 16383 →
    let a := s.g c ra
    let b := s.g c rb
    let goes := fun (taken : Bool) (t : State) =>
      (t.pc c : Int) = (if taken then s.pc c + toSigned 16 off.toNat else s.pc c + 1)
      ∧ (t.core c).next = t.clk.tb + (if taken then 8 else 4) ∧ t.epState c = epRUN
      ∧ (∀ r : RegNo, t.g c r = s.g c r) ∧ EpFrame c s t
    Gives (.beq c ra rb off) s (goes (decide (a = b))) ∧ Gives (.bne c ra rb off) s (goes (decide (a ≠ b)))
    ∧ Gives (.blt c ra rb off) s (goes (decide (toSigned 64 a < toSigned 64 b)))
    ∧ Gives (.bge c ra rb off) s (goes (decide (toSigned 64 b ≤ toSigned 64 a)))
    ∧ Gives (.bltu c ra rb off) s (goes (decide (a < b))) ∧ Gives (.bgeu c ra rb off) s (goes (decide (b ≤ a)))

/-- R160: JAL and JR save PC + 1 in RD and go to the target in 2 CCLK; R164: a target beyond 16,383 is an exception, which
outside a tract stops the Epru at the instruction and saves nothing. -/
def Claim.EpruJumps : Prop :=
  ∀ (s : State) (c : Core) (rd ra : RegNo) (off : BitVec 21) (imm : BitVec 16), s.epState c = epRUN →
    let jumps := fun (pc : Int) (t : State) =>
      if 0 ≤ pc ∧ pc ≤ 16383 then
        (t.pc c : Int) = pc ∧ t.g c rd = (if rd.val = 0 then 0 else s.pc c + 1) ∧ (t.core c).next = t.clk.tb + 8
        ∧ t.epState c = epRUN ∧ (∀ r : RegNo, r ≠ rd → t.g c r = s.g c r) ∧ EpFrame c s t
      else s.slotOf c = none → t.epState c = epSTOPPED ∧ t.pc c = s.pc c ∧ (∀ r : RegNo, t.g c r = s.g c r) ∧ EpFrame c s t
    Gives (.jal c rd off) s (jumps (s.pc c + toSigned 21 off.toNat))
    ∧ Gives (.jr c rd ra imm) s (jumps (toSigned 64 ((s.g c ra + (toSigned 16 imm.toNat % 2 ^ 64).toNat) % 2 ^ 64)))

/-- R160, R164: where the branches, JAL and JR go and in what time, what JAL and JR save, and that a target beyond 16,383 stops
an Epru that is in no tract. -/
def Obligations.EpruControlFlow : Prop := Claim.EpruBranches ∧ Claim.EpruJumps

/-- R160, R162, R210: LD and LW read the little-endian bytes of the scratchpad as the stores waiting in the store buffer leave
them; a line in no tag window, whose code is right, changes nothing beyond the core's Epru and its scratchpad port. -/
def Claim.EpruLoads : Prop :=
  ∀ (s : State) (c : Core) (rd ra : RegNo) (imm : BitVec 16), EpReady s c →
    let a := s.epAddr c ra imm.toNat
    Untagged s c (a / 64) → s.lineBad c (a / 64) = false → a ≤ 0x4F_FFFF →
    let loads := fun (n : Nat) (t : State) =>
      EpWrote c rd (s.epLoad c a n) (s.loadTime c) s t ∧ (t.core c).wait = .none ∧ RegsKept s t (epRegs c) ∧ MemKept s t
      ∧ (∀ d, d ≠ c.val → t.core d = s.core d ∧ t.spCore d = s.spCore d)
      ∧ { t with clk := s.clk, regs := s.regs, ep := s.ep, spc := s.spc } = s
    (a % 8 = 0 → Gives (.ld c rd ra imm) s (loads 8)) ∧ (a % 4 = 0 → Gives (.lw c rd ra imm) s (loads 4))

/-- R210: SD and SW put the low bytes of RD into the store buffer while it has room; no byte of memory changes until the store's
slot. -/
def Claim.EpruStoresAreBuffered : Prop :=
  ∀ (s : State) (c : Core) (rd ra : RegNo) (imm : BitVec 16), EpReady s c → (s.core c).stores.length < 8 →
    let a := s.epAddr c ra imm.toNat
    a ≤ 0x4F_FFFF →
    let stores := fun (n : Nat) (t : State) =>
      (t.core c).stores = (s.core c).stores ++ [⟨a, n, s.g c rd % 2 ^ (8 * n), t.clk.tb⟩]
      ∧ t.pc c = s.pc c + 1 ∧ t.epState c = epRUN ∧ (∀ r : RegNo, t.g c r = s.g c r) ∧ EpFrame c s t
    (a % 8 = 0 → Gives (.sd c rd ra imm) s (stores 8)) ∧ (a % 4 = 0 → Gives (.sw c rd ra imm) s (stores 4))

/-- R210: the oldest store of the buffer writes its bytes, little-endian, in its slot, and no other byte of any scratchpad changes;
the line's code is fresh where it was right. -/
def Claim.EpruStoreWrites : Prop :=
  ∀ (s : State) (c : Core) (st : EpStore) (rest : List EpStore), (s.core c).stores = st :: rest →
    st.byte % 64 + st.size ≤ 64 → Untagged s c (st.byte / 64) → s.lineBad c (st.byte / 64) = false →
    s.flag F.SP_CTRL_INJ_ARM c = false → (s.slotFor c pEPRU (st.byte / 64 % 32) (max st.tb s.clk.tb)).isSome →
    Gives (.epruStoreWrite c) s fun t =>
      (t.core c).stores = rest ∧ t.spBytes c st.byte st.size = leBytes st.size st.value
      ∧ (∀ a, ¬ spRange s c st.byte st.size a → mget 0 t.sp a = mget 0 s.sp a)
      ∧ (∀ k, mget 0 t.spCode k = mget 0 s.spCode k) ∧ StacksKept s t
      ∧ RegsKept s t [RegId.CLK_SKIMMED.addr 0 0 0] ∧ (∀ d, d ≠ c.val → t.core d = s.core d)

/-- R162, R251: RLD and RST send a REGRD or a REGWR of 4 B to the CORE slot or to REG, and the Epru waits for the answer. -/
def Claim.EpruRegisterSpace : Prop :=
  ∀ (s : State) (c : Core) (rd ra : RegNo) (imm : BitVec 16), s.epState c = epRUN →
    let a := s.epAddr c ra imm.toNat
    a < 0x800_0000 → a % 4 = 0 →
    let sends := fun (w : EpWait) (p : Packet) (t : State) =>
      t.epState c = epWAIT_REG ∧ (t.core c).wait = w ∧ t.pc c = s.pc c
      ∧ t.flights = s.flights ++ [⟨p, .router c, upTo 2 t.clk.tb + 4, 4⟩]
      ∧ RegsKept s t (RegId.FB_INJECTED.addr c 0 0 :: epRegs c) ∧ MemKept s t
    let dest := if 0x400_0000 ≤ a ∧ a < 0x400_0000 + 18000 * 0x800 then (a - 0x400_0000) / 0x800 else destReg
    Gives (.rld c rd ra imm) s (sends (.rld rd)
      { typ := Packet.REGRD, dest := dest, src := c, addr := 0x2000_0000_0000 + a, lenm1 := 3 })
    ∧ Gives (.rst c rd ra imm) s (sends .rst
      { typ := Packet.REGWR, dest := dest, src := c, addr := 0x2000_0000_0000 + a, lenm1 := 3, data := leBytes 4 (s.g c rd) })

/-- R163: CSRR reads a 64-bit register or counter whole at its low word and the high word alone, and a 32-bit register alone; CSRW sets a read-write
register, here an arrival counter, and leaves a read-only register as it was. -/
def Claim.EpruCoreRegisters : Prop :=
  ∀ (s : State) (c : Core) (ra rd : RegNo) (off : BitVec 11), EpReady s c → off.toNat % 4 = 0 →
    let at_ := coreBase c + off.toNat
    (∀ r : RegRef, regAt at_ = some r → r.id ≠ .EP_INSTRUCTIONS → r.id ≠ .EP_WAIT_CCLK →
      (r.id.defn.wide = true → at_ = r.addr → Gives (.csrr c rd off) s (fun t => EpWrote c rd (s.regValue r) 2 s t ∧ EpFrame c s t))
      ∧ (r.id.defn.wide = false →
          Gives (.csrr c rd off) s (fun t => EpWrote c rd (s.regValue r % 2 ^ 32) 2 s t ∧ EpFrame c s t))
      ∧ (r.id.defn.wide = true → at_ ≠ r.addr → mget 0 s.rHold r.addr = 0 →
          Gives (.csrr c rd off) s (fun t => EpWrote c rd (s.regValue r / 2 ^ 32) 2 s t ∧ EpFrame c s t)))
    ∧ (∀ n : Ctr, at_ = RegId.EP_ARRIVE.addr c n 0 →
        Gives (.csrw c ra off) s (fun t =>
          t.fget F.EP_ARRIVE_COUNT c n = s.g c ra % 2 ^ 32 ∧ t.pc c = s.pc c + 1
          ∧ RegsKept s t (RegId.EP_ARRIVE.addr c n 0 :: epRegs c) ∧ MemKept s t))
    ∧ (at_ = RegId.MX_PASSES.addr c 0 0 + 4 ∨ at_ = RegId.MX_STATUS.addr c 0 0 →
        Gives (.csrw c ra off) s (fun t => t.pc c = s.pc c + 1 ∧ EpFrame c s t))

/-- R162, R163, R251: RLD and RST send register requests into the fabric; CSRR and CSRW reach the core's own registers. -/
def Obligations.EpruRegisterAccess : Prop := Claim.EpruRegisterSpace ∧ Claim.EpruCoreRegisters

/-- R166, R171: a bundle that meets R166 and R168 enters its queue with its release ACLK SEG_BASE + TS and, for the fabric, its
target address; one with DEFER = 1 enters the deferred buffer. The bundle is RA and RB with RD added to its TS. -/
def Claim.EpruIssue : Prop :=
  ∀ (s : State) (c : Core) (rd ra rb : RegNo), EpReady s c → EpStartsNow s c →
    let b := s.g c ra + s.g c rb * 2 ^ 64
    (BundleOnTime s c b (s.g c rd) s.clk.tb →
      Gives (.issue c rd ra rb) s (fun t => Queued c b (s.g c rd) s t ∧ t.pc c = s.pc c + 1 ∧ t.epState c = epRUN
        ∧ MemKept s t ∧ RegsKept s t (epRegs c)))
    ∧ (BundleDeferred b (s.g c rd) → (s.core c).defq.length < 32 →
      Gives (.issue c rd ra rb) s (fun t =>
        (t.core c).defq = (s.core c).defq ++ [⟨0, bPayload b, s.fabTarget c (bPayload b)⟩]
        ∧ t.pc c = s.pc c + 1 ∧ t.epState c = epRUN ∧ EpFrame c s t))

/-- R166: BISS writes RB bundles from scratchpad byte RA, one a CCLK, and RD is added to each TS. -/
def Claim.EpruBlockIssue : Prop :=
  ∀ (s : State) (c : Core) (rd ra rb : RegNo), EpReady s c → EpStartsNow s c →
    let a := s.g c ra
    let n := s.g c rb
    1 ≤ n → n ≤ 64 → a % 16 = 0 → a + 16 * n ≤ 0x50_0000 → (∀ l, s.lineBad c l = false) →
    let bundle := fun k => s.epLoad c (a + 16 * k) 16
    ((n = 1 → BundleOnTime s c (bundle 0) (s.g c rd) s.clk.tb →
      Gives (.biss c rd ra rb) s (fun t => Queued c (bundle 0) (s.g c rd) s t ∧ t.pc c = s.pc c + 1
        ∧ t.epState c = epRUN ∧ MemKept s t ∧ RegsKept s t (epRegs c)))
    ∧ ((∀ k, k < n → BundleDeferred (bundle k) (s.g c rd)) → (s.core c).defq.length + n ≤ 32 →
      Gives (.biss c rd ra rb) s (fun t =>
        (t.core c).defq = (s.core c).defq ++ (List.range n).map (fun k =>
          ⟨0, bPayload (bundle k), s.fabTarget c (bPayload (bundle k))⟩)
        ∧ t.pc c = s.pc c + 1 ∧ t.epState c = epRUN ∧ (t.core c).next = s.clk.tb + 4 * n ∧ EpFrame c s t)))

/-- R169: a bundle that waited for its queue is written at the first CCLK edge strictly after the release of an entry, and the Epru
runs again. -/
def Claim.EpruQueueWaitEnds : Prop :=
  ∀ (s : State) (c : Core) (b add : Nat), (s.core c).wait = .queue [b] add → s.pc c < 16383 →
    ((s.core c).queue (bQ b)).length < queueCap (bQ b) →
    let e := s.core c
    let t0 := upTo 4 (max e.next (mget 0 e.relAt (bQ b) + 1))
    BundleOnTime s c b add t0 →
    Gives (.issueQueueWaitEnd c) s fun t =>
      Queued c b add s t ∧ t.epState c = epRUN ∧ t.pc c = s.pc c + 1 ∧ (t.core c).wait = .none ∧ (t.core c).next = t0 + 4
      ∧ MemKept s t ∧ RegsKept s t [RegId.EP_STATUS.addr c 0 0, RegId.CLK_SKIMMED.addr 0 0 0]

/-- R166, R169, R171: ISS and BISS put bundles into their queues, or into the deferred buffer, and an issue that waited for its
queue goes on at the release of an entry. -/
def Obligations.EpruIssues : Prop := Claim.EpruIssue ∧ Claim.EpruBlockIssue ∧ Claim.EpruQueueWaitEnds

/-- R172, R174, R175: SETC sets a counter modulo 2^32 and RDC reads it; WAITC goes on where (counter − RA) mod 2^32 is below 2^31
and waits elsewhere, until the increment that satisfies it. -/
def Claim.EpruArrivalCounters : Prop :=
  ∀ (s : State) (c : Core) (ra rd : RegNo) (imm : BitVec 16), s.pc c < 16383 →
    let n := imm.toNat
    let count := s.fget F.EP_ARRIVE_COUNT c n
    (s.epState c = epRUN → n < 64 →
      Gives (.setc c ra imm) s (fun t => t.fget F.EP_ARRIVE_COUNT c n = s.g c ra % 2 ^ 32 ∧ t.pc c = s.pc c + 1
        ∧ (∀ r : RegNo, t.g c r = s.g c r) ∧ RegsKept s t (RegId.EP_ARRIVE.addr c n 0 :: epRegs c) ∧ MemKept s t)
      ∧ Gives (.rdc c rd imm) s (fun t => EpWrote c rd count 1 s t ∧ EpFrame c s t)
      ∧ Gives (.waitc c ra imm) s (fun t =>
          (if ((count : Int) - s.g c ra) % 2 ^ 32 < 2 ^ 31 then t.epState c = epRUN ∧ t.pc c = s.pc c + 1
           else t.epState c = epWAIT_CTR ∧ t.pc c = s.pc c ∧ (t.core c).wait = .ctr n (s.g c ra))
          ∧ EpFrame c s t))
    ∧ (∀ m v at_, (s.core c).wait = .ctr m v → (s.core c).sat = some at_ →
      Gives (.waitcSatisfied c) s (fun t =>
        t.epState c = epRUN ∧ t.pc c = s.pc c + 1 ∧ (t.core c).wait = .none ∧ upTo 4 (at_ + 4) ≤ (t.core c).next
        ∧ RegsKept s t [RegId.EP_STATUS.addr c 0 0, RegId.CLK_SKIMMED.addr 0 0 0] ∧ MemKept s t))

/-- R160, R162: IFILL copies FN + 1 lines of the scratchpad into the instruction store word by word, and no other word changes. -/
def Claim.EpruInstructionFill : Prop :=
  ∀ (s : State) (c : Core) (ra rb : RegNo) (fn : BitVec 10), EpReady s c →
    let n := fn.toNat + 1
    let a := s.g c ra
    let d := s.g c rb
    a % 64 = 0 → d % 64 = 0 → d + 64 * n ≤ 0x1_0000 → a + 64 * n ≤ 0x50_0000 → (∀ l, s.lineBad c l = false) →
    Gives (.ifill c ra rb fn) s fun t =>
      (∀ i, i < 16 * n → mget 0 (t.core c).istore (d / 4 + i) = leNat (s.spBytes c (a + 4 * i) 4))
      ∧ (∀ w, w < d / 4 ∨ d / 4 + 16 * n ≤ w → mget 0 (t.core c).istore w = mget 0 (s.core c).istore w)
      ∧ t.pc c = s.pc c + 1 ∧ (∀ r : RegNo, t.g c r = s.g c r) ∧ EpFrame c s t

/-- R160, R162, R210: what loads read, how stores wait in the store buffer, what a store's slot writes, and what IFILL copies
into the instruction store. -/
def Obligations.EpruMemoryAccess : Prop := Claim.EpruLoads ∧ Claim.EpruStoresAreBuffered ∧ Claim.EpruStoreWrites ∧ Claim.EpruInstructionFill

/-- R177, R181, R194: in a RUNNING tract, BAR waits at the barrier of its KIND, REQR latches a rerun with the program's cause, and
TFAULT faults the tract with cause 0x0B and its CODE; in a core of no slot each is an exception that stops the Epru (R164). -/
def Claim.EpruBarrierRerunFault : Prop :=
  ∀ (s : State) (c : Core) (code : BitVec 8), EpReady s c →
    (∀ slot : Slot, s.slotOf c = some slot.val → s.tstate slot = tRUNNING →
      let waits := fun (k : Nat) (t : State) =>
        t.epState c = epWAIT_BAR ∧ (t.core c).wait = .bar k ∧ t.pc c = s.pc c + 1 ∧ EpFrame c s t
      Gives (.barSeg c) s (waits 0) ∧ Gives (.barStep c) s (waits 1)
      ∧ Gives (.reqr c code) s (fun t =>
          (t.core c).rerun = ((s.core c).rerun ||| 2 ^ 5) ∧ t.pc c = s.pc c + 1 ∧ t.epState c = epRUN ∧ EpFrame c s t)
      ∧ Gives (.tfault c code) s (fun t =>
          t.tstate slot = tFAULTED ∧ (t.rd .TRACT_FAULT_INFO slot).toNat = 0x0B + code.toNat * 2 ^ 8 + c.val * 2 ^ 16))
    ∧ (s.slotOf c = none →
      let stops := fun (t : State) => t.epState c = epSTOPPED ∧ t.pc c = s.pc c ∧ EpFrame c s t
      Gives (.barSeg c) s stops ∧ Gives (.barStep c) s stops ∧ Gives (.reqr c code) s stops ∧ Gives (.tfault c code) s stops)

/-- R172, R174, R175: the arrival counters, when one has reached a target and what WAITC then does; R177, R181, R194: BAR, REQR
and TFAULT. -/
def Obligations.EpruWaitsAndCounters : Prop := Claim.EpruArrivalCounters ∧ Claim.EpruBarrierRerunFault

/-- R162, R163, R164: reserved instructions, addresses and counter numbers that break the rules, and a BISS of no bundle stop an
Epru in no tract at the instruction, with no register and no byte of memory written. -/
def Obligations.EpruExceptions : Prop :=
  ∀ (s : State) (c : Core) (rd ra rb : RegNo) (imm : BitVec 16) (off : BitVec 11), s.epState c = epRUN → s.slotOf c = none →
    let stops := fun (t : State) =>
      t.epState c = epSTOPPED ∧ t.pc c = s.pc c ∧ (∀ r : RegNo, t.g c r = s.g c r) ∧ MemKept s t
      ∧ RegsKept s t (epRegs c) ∧ (∀ d, d ≠ c.val → t.core d = s.core d)
    let a := s.epAddr c ra imm.toNat
    Gives (.epruReservedInstruction c) s stops
    ∧ (0x4F_FFFF < a ∨ a % 8 ≠ 0 → Gives (.ld c rd ra imm) s stops ∧ Gives (.sd c rd ra imm) s stops)
    ∧ (0x4F_FFFF < a ∨ a % 4 ≠ 0 → Gives (.lw c rd ra imm) s stops ∧ Gives (.sw c rd ra imm) s stops)
    ∧ (0x800_0000 ≤ a ∨ a % 4 ≠ 0 → Gives (.rld c rd ra imm) s stops ∧ Gives (.rst c rd ra imm) s stops)
    ∧ (64 ≤ imm.toNat → Gives (.waitc c ra imm) s stops ∧ Gives (.setc c ra imm) s stops ∧ Gives (.rdc c rd imm) s stops)
    ∧ (off.toNat % 4 ≠ 0 → Gives (.csrr c rd off) s stops ∧ Gives (.csrw c ra off) s stops)
    ∧ (s.g c rb = 0 ∨ 64 < s.g c rb ∨ s.g c ra % 16 ≠ 0 → Gives (.biss c rd ra rb) s stops)

/-! ## The matrix engine (03) -/

/-- R89, R99, R108, R110, R112: a released bundle of the matrix queue that meets every condition leaves the queue and takes its
effect: NOP none, LOAD a bank to be filled, PASS a released pass (DRAINED falls), EPI its slot's payload, DRAIN a drain that covers
every pass released before it. -/
def Claim.MatrixBundlesTakeEffect : Prop :=
  ∀ (s : State) (c : Core) (p : BitVec 76), s.fget F.MX_STATUS_STATE c = eENABLED →
    let v := p.toNat
    let popped := fun (op : Nat) (t : State) =>
      (t.core c).mq = (s.core c).mq.eraseP (fun b => b.payload == op * 2 ^ 76 + v)
    (v = 0 → Gives (.mxNop c p) s (fun t => popped 0 t ∧ t.mxc c = s.mxc c ∧ MxFrame c [] s t))
    ∧ (bits v 41 0 = 0 → (mxFamily (bits v 57 54)).isSome → bits v 75 59 + tileLines (bits v 57 54) ≤ 81920 →
        badRec (bits v 53 42) = false →
        Gives (.mxLoad c p) s (fun t => popped 1 t
          ∧ (∃ l, (t.mxc c).loads = (s.mxc c).loads ++ [l] ∧ l.payload = 2 ^ 76 + v ∧ l.begun = false ∧ l.got = [])
          ∧ MxFrame c [] s t))
    ∧ (bits v 18 0 = 0 → (mxFamily (bits v 50 47)).isSome → bits v 26 24 ≤ 5 → badRec (bits v 46 35) = false →
        ({ id := 0, payload := 2 * 2 ^ 76 + v : MxPass }).lastLine ≤ 81919 → (s.mxc c).passes = [] →
        Gives (.mxPass c p) s (fun t => popped 2 t ∧ t.fget F.MX_STATUS_DRAINED c = 0
          ∧ (∃ q, (t.mxc c).passes = [q] ∧ q.payload = 2 * 2 ^ 76 + v ∧ q.released = true ∧ q.begun = false
              ∧ (t.mxc c).relId = q.id + 1)
          ∧ MxFrame c [RegId.MX_STATUS.addr c 0 0] s t))
    ∧ (bits v 14 0 = 0 → (bits v 73 70 = 8 ∨ (mxFamily (bits v 73 70)).isSome) →
        (bits v 73 70 ≠ 8 → (Rnd.ofCode (bits v 69 67)).isSome) → bits v 37 36 ≠ 3 → bits v 34 33 ≠ 3 → bits v 54 38 ≤ 81919 →
        bits v 32 16 ≤ 81919 → badRec (bits v 66 55) = false → (bits v 73 70 = 8 → bits v 66 55 = 0xFFF) →
        (bit v 35 = true → bits v 66 55 ≠ 0xFFF) →
        (bits v 37 36 = 1 → bits v 73 70 = 8 ∨ bits v 73 70 = 0 ∨ bits v 73 70 = 1) →
        (bits v 37 36 = 2 → bits v 73 70 = 0 ∨ bits v 73 70 = 1) →
        Gives (.mxEpi c p) s (fun t => popped 3 t ∧ mget 0 (t.mxc c).epi (bits v 75 74) = 3 * 2 ^ 76 + v
          ∧ (∀ k, k ≠ bits v 75 74 → mget 0 (t.mxc c).epi k = mget 0 (s.mxc c).epi k) ∧ MxFrame c [] s t))
    ∧ (bits v 68 0 = 0 →
        Gives (.mxDrain c p) s (fun t => popped 4 t
          ∧ (∃ d, (t.mxc c).drains = (s.mxc c).drains ++ [d] ∧ d.upto = (s.mxc c).relId ∧ d.arrive = bit v 75
              ∧ d.ctr = bits v 74 69)
          ∧ MxFrame c [] s t))

/-- R112, R194: a bundle released while the engine is not ENABLED is rejected with reason 0x2 and the tract that runs it faults
with cause 0x04; nothing of the bundle takes effect. -/
def Claim.MatrixRejectsWhileOff : Prop :=
  ∀ (s : State) (c : Core) (slot : Slot) (p : BitVec 76), s.fget F.MX_STATUS_STATE c ≠ eENABLED → s.slotOf c = some slot.val →
    s.tstate slot = tRUNNING → (s.fget F.MOD_EVT_WR_INDEX + 8192 - s.fget F.MOD_EVT_RD_INDEX) % 8192 < 4096 →
    p.toNat = 0 →
    let w := s.fget F.MOD_EVT_WR_INDEX
    let rejects := fun (op : Nat) (t : State) =>
      (let e := mget EvtEntry.zero t.ring (w % 4096)
       e.code = 0x3002 ∧ e.kind = kCORE ∧ e.idx = c ∧ e.detail = op + 2 * 2 ^ 8)
      ∧ t.tstate slot = tFAULTED ∧ t.fget F.TRACT_FAULT_INFO_CAUSE slot = 0x04 ∧ t.fget F.TRACT_FAULT_INFO_CORE slot = c
      ∧ MemKept s t
    Gives (.mxNop c p) s (rejects 0) ∧ Gives (.mxDrain c p) s (rejects 4)

/-- R89, R99, R108, R110, R112: what each released bundle of the matrix queue does, and that one released while the engine is
off is rejected and faults its tract. -/
def Obligations.MatrixBundles : Prop := Claim.MatrixBundlesTakeEffect ∧ Claim.MatrixRejectsWhileOff

/-- R111: the states of a stoppable engine: ENABLE = 1 enables a DISABLED engine in 16 ACLK and is remembered by one that is
STOPPING; ENABLE = 0 stops an ENABLED engine once its drain would complete. -/
def Claim.MatrixEngineEnables : Prop :=
  ∀ (s : State) (c : Core),
    let st := s.fget F.MX_STATUS_STATE c
    let stepsTo := fun (n : Nat) (t : State) => t.fget F.MX_STATUS_STATE c = n
      ∧ MxFrame c [RegId.MX_STATUS.addr c 0 0, RegId.MX_CTRL.addr c 0 0] s t
    Gives (.mxEnableWrite c true) s (fun t => t.flag F.MX_CTRL_ENABLE c = true
      ∧ stepsTo (if st = eDISABLED then eENABLING else st) t ∧ (st = eDISABLED → (t.mxc c).enabling = some s.clk.tb)
      ∧ (st = eSTOPPING → t.flag F.MX_STATUS_ENABLE_PENDING c = true))
    ∧ Gives (.mxEnableWrite c false) s (fun t => t.flag F.MX_CTRL_ENABLE c = false
      ∧ stepsTo (if st = eENABLED then eSTOPPING else if st = eENABLING then eDISABLED else st) t
      ∧ (st = eSTOPPING → t.flag F.MX_STATUS_ENABLE_PENDING c = false)
      ∧ (st = eENABLED → ∃ d, (t.mxc c).stopping = some d ∧ d.upto = (s.mxc c).relId))
    ∧ (∀ b, (s.mxc c).enabling = some b → Gives (.mxEnablingEnd c) s (fun t => stepsTo eENABLED t ∧ (t.mxc c).enabling = none))
    ∧ (∀ d b, (s.mxc c).stopping = some d → d.t = some b → (s.mxc c).vecs = [] →
        Gives (.mxStoppingEnd c) s (fun t => (t.mxc c).stopping = none ∧ t.flag F.MX_STATUS_ENABLE_PENDING c = false
          ∧ stepsTo (if s.flag F.MX_STATUS_ENABLE_PENDING c then eENABLING else eDISABLED) t))

/-- R91, R92: a LOAD that waits for no swap begins: it empties the shadow bank, records the format and the scale record, and
presents the lines of its tile; the bank is full when every line has been captured. -/
def Claim.MatrixLoads : Prop :=
  ∀ (s : State) (c : Core) (l : MxLoad),
    ((s.mxc c).loads = [l] → l.begun = false → l.waits = none →
      Gives (.mxLoadBegin c) s (fun t =>
        t.fget F.MX_STATUS_SHADOW_FULL c = 0 ∧ (t.mxc c).shadow.hfmt = bits l.payload 57 54
        ∧ (t.mxc c).shadow.hscale = bits l.payload 53 42 ∧ (t.mxc c).shadow.cap = 0
        ∧ (t.mxc c).loads = [{ l with begun := true }]
        ∧ (bit l.payload 58 = false → ((mget [] (t.spCore c).reqs pMX_HELD).filter (fun r =>
            match r.use with | .held _ _ => true | _ => false)).map (·.line)
            = (List.range (tileLines (bits l.payload 57 54))).map (fun i => bits l.payload 75 59 + i))
        ∧ MxFrame c [RegId.MX_STATUS.addr c 0 0] s t))
    ∧ ((s.mxc c).loads = [l] → l.begun = true → tileLines (bits l.payload 57 54) ≤ l.got.length →
      Gives (.mxLoadComplete c) s (fun t => t.fget F.MX_STATUS_SHADOW_FULL c = 1 ∧ (t.mxc c).loads = []
        ∧ MxFrame c [RegId.MX_STATUS.addr c 0 0] s t))

/-- R93, R95, R97: with SWAP and a full shadow bank the first entry of a pass takes the shadow bank as the held tile; every
vector's entry forms the 32 column sums of the tile with the vector, beginning from the Underback where TOP = 1, and with
OUT = 0 parks them in the Underback. -/
def Claim.MatrixVectorsEnter : Prop :=
  ∀ (s : State) (c : Core) (p : MxPass), (s.mxc c).passes = [p] → p.slide = 0 → p.out = false →
    let u := p.ents.length
    let entry := fun (tile : MxTile) (check : Nat) (t : State) =>
      ∃ w : MxVec, (t.mxc c).vecs = (s.mxc c).vecs ++ [w] ∧ w.pass = p.id ∧ w.v = u
        ∧ w.outs = (vectorSum p.mfmt tile (s.mxElem c p u) ((List.range 32).map fun n =>
            if p.top then mget 0 (s.mxc c).ub ((p.ubBase + u) % 256 * 32 + n) else 0) (bit check 6) (bits check 5 0)).outs
        ∧ (∀ n, n < 32 → mget 0 (t.mxc c).ub ((p.ubBase + u) % 256 * 32 + n) = w.outs.getD n 0)
        ∧ (∀ n, n / 32 ≠ (p.ubBase + u) % 256 → mget 0 (t.mxc c).ub n = mget 0 (s.mxc c).ub n)
        ∧ MemKept s t
    ((s.mxComplete c p u).isSome → p.begun = true → u < p.nEnter → (∀ n, s.mxFull c n = false) →
      Gives (.mxVectorEntry c) s (entry p.tile p.check))
    ∧ ((s.mxComplete c p 0).isSome → p.begun = false → p.released = true → u = 0 → (∀ n, s.mxFull c n = false) →
      p.swap = true → (s.mxc c).shadow.hfmt ≠ 15 → mxFamily (s.mxc c).shadow.hfmt = mxFamily p.mfmt →
      s.flag F.MX_STATUS_SHADOW_FULL c = true →
      Gives (.mxPassFirstEntry c) s (fun t => entry (s.mxc c).shadow (s.rd .MX_CHECK c).toNat t
        ∧ (t.mxc c).held = (s.mxc c).shadow ∧ t.flag F.MX_STATUS_HELD_VALID c = true))

/-- R91 to R93, R95, R97: a LOAD fills the shadow bank; a pass takes it as its held tile and forms the column sums of each
vector. -/
def Obligations.MatrixLoadsAndVectors : Prop := Claim.MatrixLoads ∧ Claim.MatrixVectorsEnter

/-- R106, R107: the oldest vector leaves the collector; a mismatch of the array check is counted, its D and A stand in the MISMATCH
registers, and the core latches a rerun with cause bit 1; a skipped check is counted. -/
def Claim.MatrixVectorsComplete : Prop :=
  ∀ (s : State) (c : Core) (w : MxVec) (rest : List MxVec) (p : MxPass), (s.mxc c).vecs = w :: rest →
    (s.mxc c).passes.find? (fun q => q.id == w.pass) = some p → p.out = false → w.d < 2 ^ 64 → w.a < 2 ^ 64 →
    Gives (.mxVectorComplete c) s fun t =>
      (t.mxc c).vecs = rest ∧ MemKept s t ∧ (t.mxc c).ub = (s.mxc c).ub
      ∧ (t.rd .MX_CHECK_MISMATCHES c).toNat
          = (if w.verdict = 1 then min ((s.rd .MX_CHECK_MISMATCHES c).toNat + 1) (2 ^ 64 - 1)
             else (s.rd .MX_CHECK_MISMATCHES c).toNat)
      ∧ (t.rd .MX_CHECK_SKIPS c).toNat
          = (if w.verdict = 2 then min ((s.rd .MX_CHECK_SKIPS c).toNat + 1) (2 ^ 64 - 1) else (s.rd .MX_CHECK_SKIPS c).toNat)
      ∧ (w.verdict = 1 → (t.rd .MX_MISMATCH_D c).toNat = w.d ∧ (t.rd .MX_MISMATCH_A c).toNat = w.a
          ∧ (t.core c).rerun = ((s.core c).rerun ||| 2 ^ 1))
      ∧ (w.verdict ≠ 1 → t.core c = s.core c)

/-- R105, R546: the oldest output row that holds a place is written, a line at a time, in the slots of MX_COLL. -/
def Claim.MatrixOutputRowServed : Prop :=
  ∀ (s : State) (c : Core) (r : SpReq) (w : SpWr), mget [] (s.spCore c).reqs pMX_COLL = [r] → r.use = .out 0 0 → r.wr = some w →
    w.wop = 0 → w.data.length = 64 → w.mask = 2 ^ 64 - 1 → w.poison = false → Untagged s c r.line →
    s.flag F.SP_CTRL_INJ_ARM c = false → (s.spCore c).rowHeld (r.line % 32 / 8) = false →
    (s.slotFor c pMX_COLL (r.line % 32) (max r.tb s.clk.tb)).isSome →
    Gives (.mxOutputRowServed c) s fun t =>
      t.spLine c r.line = w.data ∧ mget [] (t.spCore c).reqs pMX_COLL = []
      ∧ (∀ a, ¬ spRange s c (64 * r.line) 64 a → mget 0 t.sp a = mget 0 s.sp a)
      ∧ StacksKept s t ∧ RegsKept s t [RegId.CLK_SKIMMED.addr 0 0 0]

/-- R103, R108, R115: the oldest pass completes once its last vector has left the collector, and MX_PASSES counts it; the oldest
DRAIN completes once the vectors it covers have, sets DRAINED, and with ARRIVE increments its counter. -/
def Claim.MatrixPassesAndDrainsComplete : Prop :=
  ∀ (s : State) (c : Core),
    (∀ p rest, (s.mxc c).passes = p :: rest → p.nEnter ≤ p.ents.length → (s.mxc c).vecs.all (fun v => v.pass != p.id) = true →
      Gives (.mxPassComplete c) s (fun t => (t.mxc c).passes = rest
        ∧ (t.rd .MX_PASSES c).toNat = min ((s.rd .MX_PASSES c).toNat + 1) (2 ^ 64 - 1) ∧ MemKept s t
        ∧ (p.out = false → MxFrame c [RegId.MX_PASSES.addr c 0 0] s t)))
    ∧ (∀ d rest b, (s.mxc c).drains = d :: rest → d.t = some b → d.ctr < 64 → (s.mxc c).vecs.all (fun v => d.upto ≤ v.pass) = true →
      Gives (.mxDrainComplete c) s (fun t => (t.mxc c).drains = rest ∧ t.fget F.MX_STATUS_DRAINED c = 1
        ∧ t.fget F.EP_ARRIVE_COUNT c d.ctr
          = (if d.arrive then (s.fget F.EP_ARRIVE_COUNT c d.ctr + 1) % 2 ^ 32 else s.fget F.EP_ARRIVE_COUNT c d.ctr)
        ∧ MxFrame c [RegId.MX_STATUS.addr c 0 0, RegId.EP_ARRIVE.addr c d.ctr 0] s t))

/-- R103, R105 to R108, R115, R546: vectors leave the collector and are checked, output rows are written, passes and drains
complete. -/
def Obligations.MatrixOutputs : Prop := Claim.MatrixVectorsComplete ∧ Claim.MatrixOutputRowServed ∧ Claim.MatrixPassesAndDrainsComplete

/-! ## The vector engine (04) -/

/-- R119, R140, R141, R151, R152: a released bundle of the vector queue that meets every condition leaves the queue and takes its
effect on the engine's settings. -/
def Claim.VectorBundlesTakeEffect : Prop :=
  ∀ (s : State) (c : Core) (p : BitVec 76) (w : BitVec 74), s.fget F.VX_STATUS_STATE c = eENABLED →
    let v := p.toNat
    let u := w.toNat
    let popped := fun (payload : Nat) (t : State) =>
      (t.core c).vq = (s.core c).vq.eraseP (fun b => b.payload == payload) ∧ MemKept s t
    (v = 0 → Gives (.vxNop c p) s (fun t => popped 0 t ∧ t.vxc c = s.vxc c ∧ VxFrame c [] s t))
    ∧ (bits v 64 0 = 0 → Gives (.vsetl c p) s (fun t => popped (2 ^ 76 + v) t
        ∧ t.fget F.VX_VL_EW c = bits v 75 75
        ∧ t.fget F.VX_VL_VL c = min (bits v 74 65) (if bits v 75 75 = 0 then 256 else 512)
        ∧ t.vxc c = s.vxc c ∧ VxFrame c [RegId.VX_VL.addr c 0 0] s t))
    ∧ (bits u 33 0 = 0 → Gives (.posBase c false w) s (fun t => popped (4 * 2 ^ 76 + u) t
        ∧ t.fget F.VX_POS_Q_BASE c = bits u 73 54 ∧ t.fget F.VX_POS_K_BASE c = bits u 53 34
        ∧ t.vxc c = s.vxc c ∧ VxFrame c [RegId.VX_POS_Q.addr c 0 0, RegId.VX_POS_K.addr c 0 0] s t))
    ∧ (bits u 49 0 = 0 → bits u 53 50 ≤ 9 → Gives (.posWindow c false w) s (fun t => popped (4 * 2 ^ 76 + 2 ^ 74 + u) t
        ∧ t.fget F.VX_POS_CFG_WINDOW c = bits u 73 54 ∧ t.fget F.VX_POS_CFG_RLOG c = bits u 53 50
        ∧ t.vxc c = s.vxc c ∧ VxFrame c [RegId.VX_POS_CFG.addr c 0 0] s t))
    ∧ (bits v 61 0 = 0 → bits v 70 62 ≤ 256 → (s.vxc c).docWait = [] → (s.vxc c).chains = [] →
        let entries := (((s.vxc c).regElems (bits v 75 71) 4 0 (bits v 70 62)).map (· % 2 ^ 20))
        entries.IsChain (· < ·) →
        Gives (.docld c p) s (fun t => popped (5 * 2 ^ 76 + v) t ∧ t.fget F.VX_DOC_COUNT_COUNT c = bits v 70 62
          ∧ mget [] (t.vxc c).docs (t.vxc c).docId = entries ∧ VxFrame c [RegId.VX_DOC_COUNT.addr c 0 0] s t))
    ∧ (bits v 68 0 = 0 → Gives (.vdrain c p) s (fun t => popped (6 * 2 ^ 76 + v) t
        ∧ (∃ d, (t.vxc c).drains = (s.vxc c).drains ++ [d] ∧ d.upto = (s.vxc c).nextId ∧ d.arrive = bit v 75
            ∧ d.ctr = bits v 74 69)
        ∧ VxFrame c [] s t))

/-- R152: a CHLOAD presents the lines of its descriptors on VX_A, and when they have arrived their bytes stand in the chain store
at its entries; no other entry changes. -/
def Claim.VectorDescriptorsLoad : Prop :=
  ∀ (s : State) (c : Core) (p : BitVec 76) (l : VxLoad),
    let v := p.toNat
    (s.fget F.VX_STATUS_STATE c = eENABLED → bits v 46 0 = 0 → bits v 75 70 + bits v 69 64 < 64 →
      bits v 63 47 + bits v 69 64 < 81920 → mget [] (s.spCore c).reqs pVX_A = [] →
      Gives (.chload c p) s (fun t =>
        (∃ x, (t.vxc c).loads = (s.vxc c).loads ++ [x] ∧ x.payload = 3 * 2 ^ 76 + v)
        ∧ (mget [] (t.spCore c).reqs pVX_A).map (·.line) = (List.range (bits v 69 64 + 1)).map (fun i => bits v 63 47 + i)
        ∧ VxFrame c [] s t))
    ∧ ((s.vxc c).loads = [l] → (s.vxc c).chains = [] →
        let n := bits l.payload 69 64 + 1
        let cid := bits l.payload 75 70
        (∀ i, i < n → ((s.spCore c).got (.chload l.id i)).isSome) →
        Gives (.vxChloadComplete c) s (fun t => (t.vxc c).loads = []
          ∧ (∀ i, i < n → some (mget [] (t.vxc c).desc (cid + i)) = ((s.spCore c).got (.chload l.id i)).map (·.data))
          ∧ (∀ k, k < cid ∨ cid + n ≤ k → mget [] (t.vxc c).desc k = mget [] (s.vxc c).desc k) ∧ VxFrame c [] s t))

/-- R119, R140, R141, R151, R152: what each released bundle of the vector queue sets, and what a CHLOAD brings into the chain
store. -/
def Obligations.VectorBundles : Prop := Claim.VectorBundlesTakeEffect ∧ Claim.VectorDescriptorsLoad

/-- R149, R152: a CHAIN that passes its tests begins with its descriptor and the vector length of its release; each beat that enters
reads its source values; DRAINED falls. -/
def Claim.VectorChainsBegin : Prop :=
  ∀ (s : State) (c : Core) (p : BitVec 76) (q : VxChain),
    let v := p.toNat
    (s.fget F.VX_STATUS_STATE c = eENABLED → bits v 2 0 = 0 → (s.vxc c).loads = [] → (s.vxc c).chains = [] →
      q.payload = 2 * 2 ^ 76 + v → q.opA ≠ .bad → q.opB ≠ .bad → q.opD ≠ .bad →
      let d := mget [] (s.vxc c).desc q.cid
      let n := min (s.fget F.VX_VL_VL c) (vlMax (dEw d))
      chainReason q d n = none →
      Gives (.chain c p) s (fun t => t.fget F.VX_STATUS_DRAINED c = 0
        ∧ (∃ r, (t.vxc c).chains = [r] ∧ r.payload = q.payload ∧ r.desc = d ∧ r.n = n ∧ r.ents = [] ∧ r.wrote = 0
            ∧ r.posQ = s.fget F.VX_POS_Q_BASE c ∧ r.posK = s.fget F.VX_POS_K_BASE c)
        ∧ MemKept s t ∧ RegsKept s t [RegId.CLK_SKIMMED.addr 0 0 0, RegId.VX_STATUS.addr c 0 0, RegId.VX_RNG_SEQ.addr c 0 0]))
    ∧ ((s.vxc c).chains = [q] → q.desc ≠ [] → q.entered = false → q.cValid = false → q.idxReg = none → (s.vxc c).docWait = [] →
        (s.spCore c).vxBeats.length < 32 →
        ∀ av ta bv tb, s.srcBeat c q q.opA pVX_A (dAfmt q.desc) (dAscale q.desc) q.ents.length = some (av, ta) →
          s.srcBeat c q q.opB pVX_B (dBfmt q.desc) (dBscale q.desc) q.ents.length = some (bv, tb) →
          Gives (.vxBeatEntry c) s (fun t =>
            (∃ r, (t.vxc c).chains = [r] ∧ r.ents.length = q.ents.length + 1 ∧ r.a = q.a ++ av ∧ r.b = q.b ++ bv
                ∧ r.wrote = q.wrote ∧ r.id = q.id)
            ∧ (t.vxc c).v = (s.vxc c).v ∧ VxFrame c [RegId.VX_STALL_ACLK.addr c 0 0] s t))

/-- R120, R148: a beat whose destination is a vector register writes the converted result of each of its elements to that register,
and no other byte of the register file. -/
def Claim.VectorBeatsWritten : Prop :=
  ∀ (s : State) (c : Core) (q : VxChain) (r tw : Nat), (s.vxc c).chains = [q] → q.nextWrite = some tw → q.opD = .reg r →
    (s.vxc c).docWait = [] → dDmask q.desc = false → dDscale q.desc = 0xFFF →
    let res := chainEval (s.vxEnv c q)
    res.lse = none →
    let len := beatLen (dEw q.desc)
    let els := ((res.outs.getLastD []).drop (q.wrote * len)).take (min q.n (q.wrote * len + len) - q.wrote * len)
    let w := q.elemBytes
    let at_ := r * 1024 + q.wrote * len * w
    Gives (.vxBeatWritten c) s fun t =>
      (∀ j, j < els.length → leNat (mgets 0 (t.vxc c).v (at_ + j * w) w)
        = (cvtVal (dDfmt q.desc) (dDrnd q.desc) none ((els.map El.v).getD j 0)
            ((s.vxEnv c q).hash 8 (q.wrote * len + j) % 65536)).code % 256 ^ w)
      ∧ (∀ a, a < at_ ∨ at_ + els.length * w ≤ a → mget 0 (t.vxc c).v a = mget 0 (s.vxc c).v a)
      ∧ (t.vxc c).chains = [{ q with wrote := q.wrote + 1 }] ∧ MemKept s t ∧ t.core c = s.core c

/-- R150, R151: a chain whose beats are all written completes: VX_CHAINS counts it, with ARRIVE its counter rises by one; a VDRAIN
completes once the chains it covers have, and sets DRAINED. -/
def Claim.VectorChainsAndDrainsComplete : Prop :=
  ∀ (s : State) (c : Core),
    (∀ q, (s.vxc c).chains = [q] → q.entered = true → q.beats ≤ q.wrote → (s.vxc c).docWait = [] →
      Gives (.vxChainComplete c) s (fun t => (t.vxc c).chains = []
        ∧ (t.rd .VX_CHAINS c).toNat = min ((s.rd .VX_CHAINS c).toNat + 1) (2 ^ 64 - 1)
        ∧ t.fget F.EP_ARRIVE_COUNT c (bits q.payload 8 3)
            = (if bit q.payload 9 then (s.fget F.EP_ARRIVE_COUNT c (bits q.payload 8 3) + 1) % 2 ^ 32
               else s.fget F.EP_ARRIVE_COUNT c (bits q.payload 8 3))
        ∧ (t.vxc c).v = (s.vxc c).v ∧ MemKept s t))
    ∧ (∀ d rest b, (s.vxc c).drains = d :: rest → d.t = some b → d.ctr < 64 →
      Gives (.vxVdrainComplete c) s (fun t => (t.vxc c).drains = rest ∧ t.fget F.VX_STATUS_DRAINED c = 1
        ∧ t.fget F.EP_ARRIVE_COUNT c d.ctr
          = (if d.arrive then (s.fget F.EP_ARRIVE_COUNT c d.ctr + 1) % 2 ^ 32 else s.fget F.EP_ARRIVE_COUNT c d.ctr)
        ∧ VxFrame c [RegId.VX_STATUS.addr c 0 0, RegId.EP_ARRIVE.addr c d.ctr 0] s t))

/-- R120, R148 to R152: a chain begins, its beats write the destination register, it completes, and a VDRAIN covers the chains
before it. -/
def Obligations.VectorChains : Prop := Claim.VectorChainsBegin ∧ Claim.VectorBeatsWritten ∧ Claim.VectorChainsAndDrainsComplete

/-- R155: the vector engine enables and stops as the matrix engine does. -/
def Claim.VectorEngineEnables : Prop :=
  ∀ (s : State) (c : Core),
    let st := s.fget F.VX_STATUS_STATE c
    let stepsTo := fun (n : Nat) (t : State) => t.fget F.VX_STATUS_STATE c = n
      ∧ VxFrame c [RegId.VX_STATUS.addr c 0 0, RegId.VX_CTRL.addr c 0 0] s t
    Gives (.vxEnableWrite c true) s (fun t => t.flag F.VX_CTRL_ENABLE c = true
      ∧ stepsTo (if st = eDISABLED then eENABLING else st) t ∧ (st = eDISABLED → (t.vxc c).enabling = some s.clk.tb)
      ∧ (st = eSTOPPING → t.flag F.VX_STATUS_ENABLE_PENDING c = true))
    ∧ Gives (.vxEnableWrite c false) s (fun t => t.flag F.VX_CTRL_ENABLE c = false
      ∧ stepsTo (if st = eENABLED then eSTOPPING else if st = eENABLING then eDISABLED else st) t
      ∧ (st = eSTOPPING → t.flag F.VX_STATUS_ENABLE_PENDING c = false)
      ∧ (st = eENABLED → ∃ d, (t.vxc c).stopping = some d ∧ d.upto = (s.vxc c).nextId))
    ∧ (∀ b, (s.vxc c).enabling = some b → Gives (.vxEnablingEnd c) s (fun t => stepsTo eENABLED t ∧ (t.vxc c).enabling = none))
    ∧ (∀ d b, (s.vxc c).stopping = some d → d.t = some b →
        Gives (.vxStoppingEnd c) s (fun t => (t.vxc c).stopping = none ∧ t.flag F.VX_STATUS_ENABLE_PENDING c = false
          ∧ stepsTo (if s.flag F.VX_STATUS_ENABLE_PENDING c then eENABLING else eDISABLED) t))

/-- R111, R155: the states of the matrix engine and of the vector engine under writes of ENABLE. -/
def Obligations.EnginesEnable : Prop := Claim.MatrixEngineEnables ∧ Claim.VectorEngineEnables

/-! ## Stream/route bundles of the core itself, tracts and barriers (05) -/

/-- R170 to R173: a released NOP does nothing, a released LARRIVE increments its counter, and from the deferred buffer that increment
is external. -/
def Claim.CoreBundlesTakeEffect : Prop :=
  ∀ (s : State) (c : Core) (p : BitVec 76),
    let v := p.toNat
    let n := bits v 75 70
    let counts := fun (t : State) => t.fget F.EP_ARRIVE_COUNT c n = (s.fget F.EP_ARRIVE_COUNT c n + 1) % 2 ^ 32
      ∧ RegsKept s t [RegId.CLK_SKIMMED.addr 0 0 0, RegId.EP_ARRIVE.addr c n 0] ∧ MemKept s t
      ∧ { t with clk := s.clk, regs := s.regs, ep := s.ep } = s
    (v = 0 → Gives (.srNop c p) s (fun t => (t.core c).sq = (s.core c).sq.eraseP (fun b => b.payload == v)
      ∧ RegsKept s t [RegId.CLK_SKIMMED.addr 0 0 0] ∧ MemKept s t ∧ { t with clk := s.clk, regs := s.regs, ep := s.ep } = s))
    ∧ (bits v 69 0 = 0 → Gives (.larrive c p) s (fun t => counts t
        ∧ (t.core c).sq = (s.core c).sq.eraseP (fun b => b.payload == 2 ^ 76 + v) ∧ (t.core c).ext = (s.core c).ext))
    ∧ (∀ b rest, bits v 69 0 = 0 → (s.core c).defRel = b :: rest → b.payload = 2 ^ 76 + v →
        Gives (.deferredBundleRelease c) s (fun t => counts t ∧ (t.core c).defRel = rest
          ∧ mget 0 (t.core c).ext n = (mget 0 (s.core c).ext n + 1) % 2 ^ 32))

/-- R112, R153, R170, R194: a bundle with a reserved opcode raises the event of its engine with reason 0x1 and its opcode, and the
running tract faults with cause 0x04. -/
def Claim.ReservedOpcodesFault : Prop :=
  ∀ (s : State) (c : Core) (slot : Slot) (q : Fin 3) (p : BitVec 80), s.slotOf c = some slot.val → s.tstate slot = tRUNNING →
    (s.fget F.MOD_EVT_WR_INDEX + 8192 - s.fget F.MOD_EVT_RD_INDEX) % 8192 < 4096 →
    let op := bits p.toNat 79 76
    (q = 0 ∧ 5 ≤ op ∨ q = 1 ∧ 7 ≤ op ∨ q = 2 ∧ (5 ≤ op ∧ op ≤ 7 ∨ 14 ≤ op)) →
    let w := s.fget F.MOD_EVT_WR_INDEX
    Gives (.reservedOpcodeRelease c q p) s fun t =>
      (let e := mget EvtEntry.zero t.ring (w % 4096)
       e.code = (if q = 0 then 0x3002 else if q = 1 then 0x4010 else 0x5006) ∧ e.kind = kCORE ∧ e.idx = c ∧ e.detail = op + 2 ^ 8)
      ∧ t.tstate slot = tFAULTED ∧ t.fget F.TRACT_FAULT_INFO_CAUSE slot = 0x04 ∧ t.fget F.TRACT_FAULT_INFO_CORE slot = c
      ∧ t.epState c = epIDLE ∧ MemKept s t

/-- R170 to R173: NOP and LARRIVE; R112, R153, R194: bundles with a reserved opcode are rejected and fault their tract. -/
def Obligations.CoreBundles : Prop := Claim.CoreBundlesTakeEffect ∧ Claim.ReservedOpcodesFault

/-- R190, R191, R194, R201: LOAD makes a FREE slot that passes its validation LOADED and raises TRACT_LOAD_REJECTED with the reason
where it fails; FREE returns a slot that is LOADED, STOPPED, HALTED or FAULTED to FREE with its settings at their Reset values. -/
def Claim.TractsLoadAndFree : Prop :=
  ∀ (s : State) (slot : Slot),
    (s.tstate slot = tFREE → s.flag F.PWR_STATUS_CORES_READY = true →
      (s.tractBad slot = none → Gives (.tractLoad slot) s (fun t => t.tstate slot = tLOADED
        ∧ RegsKept s t [RegId.TRACT_STATUS.addr slot 0 0] ∧ { t with regs := s.regs } = s))
      ∧ (∀ r, s.tractBad slot = some r → (s.fget F.MOD_EVT_WR_INDEX + 8192 - s.fget F.MOD_EVT_RD_INDEX) % 8192 < 4096 →
          Gives (.tractLoad slot) s (fun t => t.tstate slot = tFREE
            ∧ (let e := mget EvtEntry.zero t.ring (s.fget F.MOD_EVT_WR_INDEX % 4096)
               e.code = 0x4005 ∧ e.kind = kTRACT ∧ e.idx = slot ∧ e.detail = r)
            ∧ RegsKept s t [RegId.MOD_EVT_WR.addr 0 0 0] ∧ MemKept s t)))
    ∧ (s.tstate slot = tLOADED ∨ s.tstate slot = tSTOPPED ∨ s.tstate slot = tHALTED ∨ s.tstate slot = tFAULTED →
      Gives (.tractFree slot) s (fun t => t.tstate slot = tFREE ∧ t.flag F.TRACT_STATUS_ENABLE_PENDING slot = false
        ∧ t.rd .TRACT_ORIGIN slot = 0 ∧ t.rd .TRACT_SIZE slot = 0 ∧ t.rd .TRACT_MODE slot = 0 ∧ t.rd .TRACT_CTRL slot = 0
        ∧ (∀ u : Slot, u ≠ slot → t.rd .TRACT_STATUS u = s.rd .TRACT_STATUS u ∧ t.rd .TRACT_ORIGIN u = s.rd .TRACT_ORIGIN u)
        ∧ MemKept s t))

/-- R192, R193: a LOADED slot whose fields are ACTIVE has its code filled into every core and is then released SLACK later; ENABLE = 1
releases a STOPPED slot SLACK after the write with its kept outcome, and is remembered by a STOPPING one; ENABLE = 0 stops a RUNNING
slot at its next barrier. -/
def Claim.TractsEnableAndDisable : Prop :=
  ∀ (s : State) (slot : Slot),
    let st := s.tstate slot
    (s.pState = pBOIL → s.pwr.move = none →
      Gives (.tractEnable slot) s (fun t => t.fget F.TRACT_CTRL_ENABLE slot = 1 ∧ MemKept s t
        ∧ t.tstate slot = (if st = tSTOPPED ∧ s.fieldsActive slot = false ∧ (s.tract slot).rel = none then tSUSPENDED else st)
        ∧ (st = tLOADED → s.fieldsActive slot = true → (s.tract slot).rel = none → (t.tract slot).filling = true)
        ∧ (st = tSTOPPED → s.fieldsActive slot = true → (s.tract slot).rel = none →
            ∃ r, (t.tract slot).rel = some r ∧ r.tb = upTo 4 (s.clk.tb + s.slack slot) ∧ r.rerun = (s.tract slot).kept)
        ∧ (st = tSTOPPING → t.flag F.TRACT_STATUS_ENABLE_PENDING slot = true)
        ∧ RegsKept s t [RegId.TRACT_CTRL.addr slot 0 0, RegId.TRACT_STATUS.addr slot 0 0]))
    ∧ Gives (.tractDisable slot) s (fun t => t.fget F.TRACT_CTRL_ENABLE slot = 0
        ∧ t.tstate slot = (if st = tRUNNING then tSTOPPING else if st = tSUSPENDED then tSTOPPED else st)
        ∧ (st = tSTOPPING → t.flag F.TRACT_STATUS_ENABLE_PENDING slot = false)
        ∧ RegsKept s t [RegId.TRACT_CTRL.addr slot 0 0, RegId.TRACT_STATUS.addr slot 0 0] ∧ MemKept s t)
    ∧ ((s.tract slot).filling = true →
        let line := s.fget F.TRACT_CODE_LINE slot
        Gives (.tractCodeFillComplete slot) s (fun t =>
          (∃ r, (t.tract slot).rel = some r ∧ r.tb = upTo 4 (s.clk.tb + s.slack slot) ∧ r.first = true ∧ r.rerun = false)
          ∧ (t.tract slot).filling = false
          ∧ (∀ c, c ∈ s.tractCores slot → ∀ i, i < 16 * (s.fget F.TRACT_CODE_LINESM1 slot + 1) →
              mget 0 (t.core c).istore i = leNat (s.spBytes c (64 * line + 4 * i) 4))
          ∧ RegsKept s t [] ∧ MemKept s t))

/-- R190 to R194, R201: a slot is loaded, rejected and freed; it fills its code, is released, stops and is released again. -/
def Obligations.TractSlots : Prop := Claim.TractsLoadAndFree ∧ Claim.TractsEnableAndDisable

/-- R177, R178, R180, R245: a core that waits at a barrier with nothing outstanding arrives at its router 4 ACLK later; a router that
holds every arrival from beyond sends their merge on, 4 ACLK after the last; at the root that completes the barrier, whose release
comes SLACK later. -/
def Claim.BarrierArrivalsCombine : Prop :=
  ∀ (s : State) (c : Core) (slot : Slot),
    (∀ k, (s.core c).wait = .bar k → (s.core c).barIn = none → s.quiet c = true →
      Gives (.barrierArrival c) s (fun t =>
        (t.core c).barIn = some ⟨upTo 2 s.clk.tb + 4, k, (s.core c).rerun != 0, false⟩
        ∧ (∀ d, d ≠ c.val → t.core d = s.core d) ∧ { t with ep := s.ep } = s))
    ∧ (∀ own, s.slotOf c = some slot.val → s.running c = true → (s.core c).barIn = some own → (s.core c).barOut = none →
        (∀ d, d ∈ s.treeBeyond slot c → (s.core d).barOut ≠ none) →
        let b := (s.treeBeyond slot c).foldl (fun a d => match (s.core d).barOut with | some x => a.merge x | none => a) own
        Gives (.barPacketForward c) s (fun t =>
          (c.val ≠ s.rootOf slot → (t.core c).barOut = some { b with tb := b.tb + 4 } ∧ (t.tract slot) = s.tract slot)
          ∧ (c.val = s.rootOf slot → b.mixed = false → (b.vote = true → s.fget F.TRACT_RERUN_COUNT slot ≠ 3) →
              (t.tract slot).rootT = some b.tb
              ∧ (b.vote = true ∨ b.kind ≠ 1 → ∃ r, (t.tract slot).rel = some r ∧ r.tb = upTo 4 (b.tb + s.slack slot)
                  ∧ r.rerun = b.vote ∧ r.barrier = true)
              ∧ (b.vote = false → b.kind = 1 → (t.tract slot).stepHeld = true))
          ∧ (c.val = s.rootOf slot → b.mixed = true → t.tstate slot = tFAULTED ∧ t.fget F.TRACT_FAULT_INFO_CAUSE slot = 0x06)
          ∧ (c.val = s.rootOf slot → b.mixed = false → b.vote = true → s.fget F.TRACT_RERUN_COUNT slot = 3 →
              t.tstate slot = tFAULTED ∧ t.fget F.TRACT_FAULT_INFO_CAUSE slot = 0x07)
          ∧ MemKept s t))

/-- R179, R245: a core that receives the release at least 4 ACLK before it takes it as its SEG_BASE; a core that receives it later takes
the first multiple of 4 at or after its receipt plus 4, and its next segment is to rerun. -/
def Claim.BarrierReleaseReceived : Prop :=
  ∀ (s : State) (c : Core) (slot : Slot) (r : Rel), s.slotOf c = some slot.val → (s.tract slot).rel = some r → r.barrier = true →
    (s.core c).brel = none →
    r.sent + 4 * (c.val / 150 - s.fget F.TRACT_ORIGIN_ROW slot + (c.val % 150 - s.fget F.TRACT_ORIGIN_COL slot)) + 4 ≤ s.clk.tb →
    Gives (.brelReceive c) s fun t =>
      (s.clk.tb + 4 ≤ r.tb → (t.core c).brel = some (r.tb, r.rerun) ∧ (t.core c).skew = (s.core c).skew
        ∧ { t with ep := s.ep } = s)
      ∧ (r.tb < s.clk.tb + 4 → (t.core c).brel = some (upTo 4 (s.clk.tb + 4), r.rerun) ∧ (t.core c).skew = true)
      ∧ (∀ d, d ≠ c.val → t.core d = s.core d) ∧ MemKept s t

/-- R176, R182, R183, R193: at its release a RUNNING tract whose barrier commits counts the segment and begins the next one in every
core at the release ACLK, with registers and PC as they are; one whose barrier reruns restores g1 to g31 and PC to those of the
segment's start; a STOPPING tract stops with its outcome kept. -/
def Claim.BarriersRelease : Prop :=
  ∀ (s : State) (slot : Slot) (r : Rel), (s.tract slot).rel = some r → 0 < r.tb → r.barrier = true → r.first = false →
    r.tb < 2 ^ 64 → s.fget F.TRACT_ORIGIN_COL slot + s.fget F.TRACT_SIZE_COL slot ≤ 150 → (∀ c, (s.core c).brel = none) →
    let seg := (s.rd .TRACT_SEG slot).toNat
    (s.tstate slot = tRUNNING → s.fieldsActive slot = true →
      Gives (.barrierRelease slot) s (fun t =>
        t.tstate slot = tRUNNING ∧ (t.rd .TRACT_SEG_BASE slot).toNat = r.tb ∧ (t.tract slot).rel = none
        ∧ (t.rd .TRACT_SEG slot).toNat = (if r.rerun then seg else min (seg + 1) (2 ^ 64 - 1))
        ∧ (∀ c, c ∈ s.tractCores slot → t.epState c = epRUN ∧ (t.core c).segBase = r.tb ∧ (t.core c).next = r.tb
            ∧ (t.core c).wait = .none ∧ (t.core c).defq = []
            ∧ (r.rerun = false → (t.core c).g = (s.core c).g ∧ t.pc c = s.pc c)
            ∧ (r.rerun = true → (t.core c).g = (s.core c).snap.g ∧ t.pc c = (s.core c).snap.pc % 2 ^ 14))
        ∧ (r.rerun = false → t.fget F.TRACT_RERUN_COUNT slot = 0)
        ∧ (r.rerun = true → s.fget F.TRACT_RERUN_COUNT slot < 3 →
            t.fget F.TRACT_RERUN_COUNT slot = s.fget F.TRACT_RERUN_COUNT slot + 1)))
    ∧ (s.tstate slot = tSTOPPING → s.flag F.TRACT_STATUS_ENABLE_PENDING slot = false →
      Gives (.barrierRelease slot) s (fun t =>
        t.tstate slot = tSTOPPED ∧ (t.tract slot).kept = r.rerun ∧ (t.tract slot).rel = none
        ∧ (t.rd .TRACT_SEG slot).toNat = (if r.rerun then seg else min (seg + 1) (2 ^ 64 - 1))
        ∧ (∀ c, c ∈ s.tractCores slot → t.epState c = epIDLE)))

/-- R176 to R183, R193, R245: a barrier's arrivals combine towards the root, its release comes back, and the tract commits,
reruns or stops. -/
def Obligations.BarriersCombineAndRelease : Prop := Claim.BarrierArrivalsCombine ∧ Claim.BarrierReleaseReceived ∧ Claim.BarriersRelease

/-- R8, R179, R187, R194: a segment whose barrier is not complete in time faults its tract with cause 0x05, and a blocked access that
outlasts TRACT_TAG_TIMEOUT with cause 0x08. -/
def Obligations.TractTimeouts : Prop :=
  ∀ (s : State) (slot : Slot) (c : Core) (port : Fin 16) (bank : Fin 32),
    let faults := fun (cause : Nat) (t : State) =>
      t.tstate slot = tFAULTED ∧ t.fget F.TRACT_FAULT_INFO_CAUSE slot = cause ∧ (t.tract slot).rel = none
      ∧ (∀ d, d ∈ s.tractCores slot → t.epState d = epIDLE ∧ (t.core d).mq = [] ∧ (t.core d).vq = [] ∧ (t.core d).sq = []
          ∧ (t.core d).defq = [])
      ∧ MemKept s t
    (s.tstate slot = tRUNNING → (s.tract slot).rootT = none → Gives (.barrierTimeout slot) s (faults 0x05))
    ∧ (s.slotOf c = some slot.val → s.tstate slot = tRUNNING → s.fget F.TRACT_MODE_TAGMODE slot = 1 →
        mget 0 (s.spCore c).blocked (port.val * 32 + bank.val) ≠ 0 → Gives (.tagBlockTimeout c port bank) s (faults 0x08))

/-! ## The scratchpad (06) -/

/-- R206 to R208, R215, R220: a served line write with REPLACE writes exactly the bytes of its mask, with ADD_I32 adds each whole element
modulo 2^32, and with a right code or a whole line leaves a fresh code; no other byte of any scratchpad changes. -/
def Obligations.ScratchpadWriteServed : Prop :=
  ∀ (s : State) (c : Core) (port : Fin 16) (bank : Fin 32) (r : SpReq) (w : SpWr),
    mget [] (s.spCore c).reqs port = [r] → r.line % 32 = bank.val → r.use = .out 0 0 → r.wr = some w → w.data.length = 64 →
    w.poison = false → Untagged s c r.line → s.lineBad c r.line = false → s.flag F.SP_CTRL_INJ_ARM c = false →
    (s.spCore c).rowHeld (bank.val / 8) = false → (s.slotFor c port bank (max r.tb s.clk.tb)).isSome →
    let old := s.spLine c r.line
    (w.wop = 0 ∨ w.wop = 4 ∧ w.mask = 2 ^ 64 - 1) →
    Gives (.scratchpadAccessServed c port bank) s fun t =>
      (w.wop = 0 → ∀ i, i < 64 → (t.spLine c r.line).getD i 0 = (if bit w.mask i then w.data.getD i 0 else old.getD i 0))
      ∧ (w.wop = 4 → ∀ e, e < 16 → leNat (((t.spLine c r.line).drop (4 * e)).take 4)
          = (leNat ((old.drop (4 * e)).take 4) + leNat ((w.data.drop (4 * e)).take 4)) % 2 ^ 32)
      ∧ (∀ a, ¬ spRange s c (64 * r.line) 64 a → mget 0 t.sp a = mget 0 s.sp a)
      ∧ (∀ k, mget 0 t.spCode k = mget 0 s.spCode k) ∧ (∀ k, mget 0 t.spTag k = mget 0 s.spTag k)
      ∧ mget [] (t.spCore c).reqs port = [] ∧ StacksKept s t ∧ RegsKept s t [RegId.CLK_SKIMMED.addr 0 0 0]

/-- R208, R221: a served line read brings the line's bytes to its port; a line whose code is wrong is a detection: it is counted and
shown, and at an engine's port the core latches a rerun with cause bit 0. No byte of memory changes. -/
def Obligations.ScratchpadReadServed : Prop :=
  ∀ (s : State) (c : Core) (port : Fin 16) (bank : Fin 32) (r : SpReq),
    mget [] (s.spCore c).reqs port = [r] → r.line % 32 = bank.val → r.use = .vxSrc 0 0 0 → r.wr = none → Untagged s c r.line →
    (s.spCore c).rowHeld (bank.val / 8) = false → (s.slotFor c port bank (max r.tb s.clk.tb)).isSome →
    let bad := s.lineBad c r.line
    Gives (.scratchpadAccessServed c port bank) s fun t =>
      (∃ x, (t.spCore c).rx = (s.spCore c).rx ++ [x] ∧ x.use = r.use ∧ x.data = s.spLine c r.line ∧ x.bad = bad)
      ∧ mget [] (t.spCore c).reqs port = [] ∧ MemKept s t
      ∧ (bad = false → RegsKept s t [RegId.CLK_SKIMMED.addr 0 0 0] ∧ t.core c = s.core c)
      ∧ (bad = true → t.flag F.SP_STATUS_DETECTED c = true
          ∧ (t.rd .SP_DETECTS c).toNat = min ((s.rd .SP_DETECTS c).toNat + 1) (2 ^ 64 - 1)
          ∧ t.fget F.SP_DET_INFO_LINE c = r.line % 2 ^ 17
          ∧ (t.core c).rerun = (if portLatches port then (s.core c).rerun ||| 2 ^ 0 else (s.core c).rerun))

/-- R222, R224, R225: a BAR4 row access that is served writes the whole row with fresh codes and answers with a WACK, or reads the bytes
asked for and answers with an RDR; tags stay. -/
def Claim.RowAccessServed : Prop :=
  ∀ (s : State) (c : Core) (g : Fin 4) (r : RowReq) (p : Packet), (s.spCore c).rows = [r] → r.agent = 4 → r.row % 4 = g.val →
    r.pkt = some p →
    let answers := fun (q : Packet) (t : State) =>
      (t.spCore c).rows = [] ∧ t.flights = s.flights ++ [⟨q, .router c, upTo 2 t.clk.tb + 4, 4⟩]
      ∧ (∀ k, mget 0 t.spTag k = mget 0 s.spTag k) ∧ StacksKept s t
      ∧ RegsKept s t [RegId.CLK_SKIMMED.addr 0 0 0, RegId.FB_INJECTED.addr c 0 0]
    (∀ d, r.data = some d → d.length = 512 → Gives (.rowAccessServed c g) s (fun t =>
        t.spRow c r.row = d ∧ (∀ i, i < 8 → t.lineBad c (8 * r.row + i) = false)
        ∧ (∀ a, ¬ spRange s c (512 * r.row) 512 a → mget 0 t.sp a = mget 0 s.sp a)
        ∧ answers (packetReply p Packet.WACK stOK) t))
    ∧ (r.data = none → s.rowBad c r.row = none → Gives (.rowAccessServed c g) s (fun t =>
        (∀ a, mget 0 t.sp a = mget 0 s.sp a)
        ∧ answers (packetReply p Packet.RDR stOK (((s.spRow c r.row).drop (p.addr % 512)).take (p.lenm1 + 1))) t))

/-- R225, R464, R475: a BAR4 access within one row of a core that is neither running nor parked asks the core's row mode for the row; a
read from a core that runs is answered with a completer abort; a write of less than a row is discarded with SP_BAD_ACCESS. -/
def Claim.Bar4Accesses : Prop :=
  ∀ (s : State) (tag : Fin 16384) (off : BitVec 34) (n : Fin 4097) (data : List Byte),
    let c := 2048 * s.fget F.HOST_BAR4_SEL_WINDOW + off.toNat / 0x80_0000
    let b := off.toNat % 0x80_0000
    s.hostUp = true → s.host.d3hot = false → s.windowsOpen = true → s.flag F.PWR_STATUS_CORES_READY = true → c < 18000 →
    s.host.reqs = [] →
    let sends := fun (p : Packet) (t : State) =>
      t.flights = s.flights ++ [⟨p, .router (edgeCore destHost (c / 150) (c % 150)), upTo 2 s.clk.tb + 4, 5⟩]
      ∧ (∃ r, t.host.reqs = [r] ∧ r.left = 1 ∧ r.bar4 = true) ∧ RegsKept s t [] ∧ MemKept s t
    let row := fun (typ k : Nat) (d : List Byte) =>
      ({ typ := typ, dest := c, src := destHost, addr := 0x1000_0000_0000 + c * 0x80_0000 + b, lenm1 := k - 1, flags := 1, data := d
         op := 8 * s.host.nextId } : Packet)
    (0 < n.val → b % 512 + n.val ≤ 512 → b + n.val ≤ 0x50_0000 →
      (s.rowAvail c = true → Gives (.bar4Read tag off n) s (fun t => sends (row Packet.RD n []) t))
      ∧ (s.rowAvail c = false → Gives (.bar4Read tag off n) s (fun t => t.host.done = s.host.done ++ [⟨tag, 4, [], false⟩]
          ∧ (t.rd .SP_BAD_ACCESSES c).toNat = min ((s.rd .SP_BAD_ACCESSES c).toNat + 1) (2 ^ 64 - 1) ∧ MemKept s t)))
    ∧ (b % 512 = 0 → b < 0x50_0000 → data.length = 512 → s.rowAvail c = true →
        Gives (.bar4Write off data (List.replicate 512 true)) s (fun t => sends (row Packet.WR 512 data) t)
        ∧ Gives (.bar4Write off data (List.replicate 511 true ++ [false])) s (fun t => t.flights = s.flights
            ∧ (t.rd .SP_BAD_ACCESSES c).toNat = min ((s.rd .SP_BAD_ACCESSES c).toNat + 1) (2 ^ 64 - 1) ∧ MemKept s t))

/-- R222, R224, R225, R464, R475: BAR4 accesses reach row mode, are served there and are answered, or are refused. -/
def Obligations.RowAccesses : Prop := Claim.RowAccessServed ∧ Claim.Bar4Accesses

/-- R207, R213, R221, R223, R224: INJ_ARM is armed; BIST starts only in a core that is neither running nor parked, holds its rows, and at
its end leaves the core's scratchpad zero and other cores' as they were; a valid waiting plan takes effect in the reference NCLK. -/
def Obligations.ScratchpadControls : Prop :=
  ∀ (s : State) (c : Core),
    Gives (.spInjArmWrite c) s (fun t => t.flag F.SP_CTRL_INJ_ARM c = true ∧ RegsKept s t [RegId.SP_CTRL.addr c 0 0]
      ∧ { t with regs := s.regs } = s)
    ∧ Gives (.spBistStart c) s (fun t => if s.rowAvail c = true
        then t.flag F.SP_BIST_BUSY c = true ∧ (t.spCore c).bist = true ∧ RegsKept s t [RegId.SP_BIST.addr c 0 0] ∧ MemKept s t
        else t = s)
    ∧ (s.flag F.SP_BIST_BUSY c = true → Gives (.spBistComplete c none none) s (fun t =>
        t.flag F.SP_BIST_BUSY c = false ∧ t.flag F.SP_BIST_FAIL c = false ∧ (t.spCore c).bist = false
        ∧ (∀ b n, b + n ≤ 0x80_0000 → t.spBytes c b n = zeros n)
        ∧ (∀ a, a / 0x80_0000 ≠ s.phys c → mget 0 t.sp a = mget 0 s.sp a)
        ∧ (∀ l, l < 81920 → t.lineBad c l = false) ∧ StacksKept s t ∧ RegsKept s t [RegId.SP_BIST.addr c 0 0]))
    ∧ (∀ r : Fin 10240, s.flag F.SP_BIST_BUSY c = true → Gives (.spBistComplete c (some r) none) s (fun t =>
        t.flag F.SP_BIST_FAIL c = true ∧ t.fget F.SP_BIST_ROW c = r ∧ (s.phys c, 2) ∈ t.hlth.crit))
    ∧ (s.running c = false → (s.spCore c).planWait = true →
        let lo := s.fget F.SP_PLAN_LO_ENTRIES c
        let hi := s.fget F.SP_PLAN_HI_ENTRIES c
        Gives (.referenceNclk c) s (fun t => (t.spCore c).planWait = false ∧ MemKept s t
          ∧ (planValid lo hi = true → t.fget F.SP_PLAN_CUR_LO_ENTRIES c = lo ∧ t.fget F.SP_PLAN_CUR_HI_ENTRIES c = hi)
          ∧ (planValid lo hi = false → t.flag F.SP_STATUS_PLAN_ERR c = true
              ∧ t.fget F.SP_PLAN_CUR_LO_ENTRIES c = s.fget F.SP_PLAN_CUR_LO_ENTRIES c
              ∧ t.fget F.SP_PLAN_CUR_HI_ENTRIES c = s.fget F.SP_PLAN_CUR_HI_ENTRIES c)))

/-! ## The wafer fabric and the Bow bus (07) -/

/-- R235, R236, R238: a router passes a packet first along its row and then along its column, and hands it to its own port at its
destination; it is there 2 NCLK later. A link that is down discards the packet. -/
def Claim.RouterHops : Prop :=
  ∀ (s : State) (c : Core) (p : Packet), p ∉ s.flights.map (·.pkt) → packetReserved p = false → p.dest < 18000 →
    let row := c.val / 150
    let col := c.val % 150
    let t0 := upTo 2 s.clk.tb
    let goes := fun (l : Loc) (via : Nat) (t : State) =>
      t.flights = s.flights ++ [⟨p, l, t0 + 4, via⟩] ∧ RegsKept s t [] ∧ MemKept s t
        ∧ { t with flights := s.flights, fbc := s.fbc } = s
    (p.dest = c.val → Gives (.routerHop c p) s (goes (.port c) 4))
    ∧ (col < p.dest % 150 → s.linkDown c 1 = false → Gives (.routerHop c p) s (goes (.router (c + 1)) 3))
    ∧ (p.dest % 150 < col → s.linkDown c 3 = false → Gives (.routerHop c p) s (goes (.router (c - 1)) 1))
    ∧ (p.dest % 150 = col → row < p.dest / 150 → s.linkDown c 2 = false → Gives (.routerHop c p) s (goes (.router (c + 150)) 0))
    ∧ (p.dest % 150 = col → p.dest / 150 < row → s.linkDown c 0 = false → Gives (.routerHop c p) s (goes (.router (c - 150)) 2))
    ∧ (col < p.dest % 150 → s.linkDown c 1 = true → p.typ = Packet.WR → Gives (.routerHop c p) s (fun t =>
        (t.rd .FB_DROPPED p.dest).toNat = min ((s.rd .FB_DROPPED p.dest).toNat + 1) (2 ^ 64 - 1)
        ∧ t.flights = s.flights ++ [⟨packetReply p Packet.WACK stREFUSED, .router c, t0 + 4, 4⟩] ∧ MemKept s t))

/-- R242 to R244: with merging enabled a RED takes an entry of its output port; one with the same key that comes within the window is
added to it, element by element, with the counts of its packets, and is answered by a WACK; the entry leaves for its output. -/
def Claim.MergeStages : Prop :=
  ∀ (s : State) (c : Core) (p : Packet), p ∉ s.flights.map (·.pkt) → packetReserved p = false → p.typ = Packet.RED →
    s.flag F.FB_MERGE_MERGE_EN c = true →
    let m := upTo 2 s.clk.tb + 2
    let out := outPort c p.dest
    ((s.fb c).merge = [] → Gives (.mergeStageEntry c p) s (fun t =>
        (t.fb c).merge = [⟨out, p, m, 4, false⟩] ∧ t.flights = s.flights ∧ RegsKept s t [RegId.CLK_SKIMMED.addr 0 0 0]
        ∧ MemKept s t))
    ∧ (∀ e, (s.fb c).merge = [e] → e.out = out → e.closed = false → e.m < m → m ≤ e.m + 16 → packetSameKey e.pkt p = true →
        e.pkt.typ = Packet.RED → e.pkt.count + p.count ≤ 65535 →
        Gives (.mergeStageEntry c p) s (fun t =>
          (∃ f, (t.fb c).merge = [f] ∧ f.pkt.data = (pairPayload e.pkt.data p.data).1 ∧ f.pkt.count = e.pkt.count + p.count
              ∧ f.pkt.poison = (e.pkt.poison || p.poison) ∧ f.m = e.m)
          ∧ (t.rd .FB_MERGED c).toNat = min ((s.rd .FB_MERGED c).toNat + 1) (2 ^ 64 - 1)
          ∧ t.flights = s.flights ++ [⟨packetReply p Packet.WACK stOK, .router c, m + 4, 4⟩] ∧ MemKept s t))
    ∧ (∀ e rest, (s.fb c).merge = e :: rest → e.pkt.dest = c.val → Gives (.mergeStageExit c) s (fun t =>
        (t.fb c).merge = rest ∧ t.flights = s.flights ++ [⟨e.pkt, .port c, e.m + 18, 4⟩]
        ∧ RegsKept s t [RegId.CLK_SKIMMED.addr 0 0 0] ∧ MemKept s t))

/-- R254, R255: with no segment down a packet takes the shorter way round the ring, clockwise where both are equal, one stop in
4 NCLK, and is at its endpoint where the ring reaches its stop. -/
def Claim.RimRingHops : Prop :=
  ∀ (s : State) (k : Fin 16) (p : Packet), p ∉ s.flights.map (·.pkt) → packetReserved p = false → 18000 ≤ p.dest → s.rimDown = [] →
    let d := stopOf p.dest
    let cw := (d + 16 - k.val) % 16
    let nxt := if cw ≤ 8 then (k.val + 1) % 16 else (k.val + 15) % 16
    let seg := if cw ≤ 8 then k.val else 16 + (k.val + 15) % 16
    Gives (.rimRingHop k p) s fun t =>
      t.flights = s.flights ++ [⟨p, if d = k.val ∨ nxt = d then .rim p.dest else .ring nxt, upTo 2 s.clk.tb + 8,
        if d = k.val then 32 else seg⟩]
      ∧ { t with flights := s.flights } = s

/-- R235, R236, R238: the route of a packet through the routers; R242 to R244: the merging of RED packets; R254, R255: the way
round the Rim ring. -/
def Obligations.PacketsHop : Prop := Claim.RouterHops ∧ Claim.RimRingHops ∧ Claim.MergeStages

/-- R217, R240, R244, R247, R252: a WR or a RED at its core's port has its lines written through FAB_IN, as WRITE (or its write
operation) and as ADD_PAIR64; an RD has its lines read through FAB_OUT; a core that is parked, held in reset or unusable discards
them. -/
def Claim.FabricDeliveries : Prop :=
  ∀ (s : State) (c : Core) (p : Packet), p ∉ s.flights.map (·.pkt) → bit p.flags 0 = false →
    mget [] (s.spCore c).reqs pFAB_IN = [] → mget [] (s.spCore c).reqs pFAB_OUT = [] → 0 < p.data.length →
    let b := p.addr % 0x80_0000
    let delivered := fun (t : State) =>
      (t.rd .FB_DELIVERED c).toNat = min ((s.rd .FB_DELIVERED c).toNat + 1) (2 ^ 64 - 1)
      ∧ RegsKept s t [RegId.FB_DELIVERED.addr c 0 0] ∧ MemKept s t ∧ t.flights = s.flights
    let writes := fun (wop : Nat) (t : State) => delivered t
      ∧ (mget [] (t.spCore c).reqs pFAB_IN).map (fun r => (r.line, r.wr.map fun w => (w.mask, w.data, w.wop, w.poison)))
          = (cutLines b p.data).map (fun l => (l.1, some (l.2.1, l.2.2, wop, p.poison)))
    (s.dropReason c = none →
      Gives (.fbWrDeliver c p) s (writes p.wop) ∧ Gives (.fbRedDeliver c p) s (writes 1)
      ∧ Gives (.fbRdDeliver c p) s (fun t => delivered t ∧ (mget [] (t.spCore c).reqs pFAB_OUT).map (·.line)
          = (List.range ((b + p.lenm1) / 64 + 1 - b / 64)).map (fun i => b / 64 + i)))
    ∧ (∀ r, s.dropReason c = some r → p.dest = c.val → p.typ = Packet.WR →
        let drops := fun (t : State) =>
          (t.rd .FB_DROPPED c).toNat = min ((s.rd .FB_DROPPED c).toNat + 1) (2 ^ 64 - 1) ∧ MemKept s t
          ∧ t.flights = s.flights ++ [⟨packetReply p Packet.WACK stREFUSED, .router c, upTo 2 s.clk.tb + 4, 4⟩]
        Gives (.fbWrDeliver c p) s drops)

/-- R162, R251: a REGRD is answered by a REGR with the register's 4 bytes, little-endian; a REGWR writes them by the access codes, so that
a read-only register is as it was; an offset that no block defines is answered with ADDRESS. -/
def Claim.RegisterDeliveries : Prop :=
  ∀ (s : State) (p : Packet) (r : RegRef), p ∉ s.flights.map (·.pkt) → p.dest = destReg → p.src < 18000 →
    0x2000_0000_0000 ≤ p.addr →
    let off := (p.addr - 0x2000_0000_0000) / 4 * 4
    let answers := fun (st : Nat) (d : List Byte) (t : State) =>
      ∃ v, t.flights = s.flights ++ [⟨packetReply p Packet.REGR st d, .router (edgeCore p.dest (p.src / 150) (p.src % 150)),
        upTo 2 (s.clk.tb + 2) + 4, v⟩]
    (p.typ = Packet.REGRD → regAt off = some r → r.id.defn.wide = false →
      Gives (.regrdDeliver p) s (fun t => answers stOK (leBytes 4 (s.regValue r % 2 ^ 32)) t ∧ RegsKept s t [] ∧ MemKept s t))
    ∧ (p.typ = Packet.REGRD → regAt off = none → s.windowWord off = none →
      Gives (.regrdDeliver p) s (fun t => answers stADDRESS (zeros 4) t ∧ MemKept s t))
    ∧ (p.typ = Packet.REGWR → off = RegId.MOD_ID.addr 0 0 0 ∨ off = RegId.MOD_SPARE_GEN.addr 0 0 0 →
      Gives (.regwrDeliver p) s (fun t => answers stOK [] t ∧ RegsKept s t [] ∧ MemKept s t))
    ∧ (∀ w : Win, p.typ = Packet.REGWR → off = RegId.RED_WIN_BASE.addr 0 w 0 → p.data.length = 4 →
      Gives (.regwrDeliver p) s (fun t => answers stOK [] t ∧ MemKept s t ∧ mget 0 t.wHold off = leNat p.data + 1
        ∧ RegsKept s t []))

/-- R162, R217, R240, R244, R247, R251, R252: what a packet does at its core's port and at the register port. -/
def Obligations.PacketsDeliver : Prop := Claim.FabricDeliveries ∧ Claim.RegisterDeliveries

/-- R162, R240, R247: the answer of an RLD puts its 4 bytes into RD and the Epru goes on at the next CCLK edge; the WACK of a core's FWR
frees its place among the outstanding packets and completes the operation with its last packet; the RDR of an FRD is written to the
operation's lines. -/
def Claim.AnswersReceived : Prop :=
  ∀ (s : State) (c : Core) (p : Packet), p ∉ s.flights.map (·.pkt) → p.dest = c.val → s.dropReason c = none →
    (∀ rd : RegNo, p.typ = Packet.REGR → (s.core c).wait = .rld rd → s.pc c < 16383 →
      Gives (.regrReceive p) s (fun t => t.g c rd = (if rd.val = 0 then 0 else leNat p.data % 2 ^ 64) ∧ t.epState c = epRUN
        ∧ (t.core c).wait = .none ∧ t.pc c = s.pc c + 1 ∧ (t.core c).next = upTo 4 s.clk.tb
        ∧ (∀ r : RegNo, r ≠ rd → t.g c r = s.g c r) ∧ MemKept s t))
    ∧ (∀ o, p.typ = Packet.WACK → p.src < 18000 → p.op = 4 * o.id → (s.fb c).ops = [o] → o.left = 1 → (s.fb c).held = [] →
      0 < s.outstanding c → s.outstanding c ≤ 256 →
      Gives (.wackReceive p) s (fun t => (t.fb c).ops = [] ∧ t.outstanding c = s.outstanding c - 1
        ∧ (t.fb c).wrOut = (s.fb c).wrOut - 1 ∧ MemKept s t
        ∧ RegsKept s t [RegId.FB_STATUS.addr c 0 0, RegId.FB_DELIVERED.addr c 0 0]))
    ∧ (∀ o, p.typ = Packet.RDR → p.src < 18000 → p.poison = false → p.op = 4 * o.id → o.op = 3 → (s.fb c).ops = [o] →
      (s.fb c).held = [] → o.nlines = 1 → p.rid = 0 → p.data.length = 64 → mget [] (s.spCore c).reqs pFAB_IN = [] →
      Gives (.rdrReceive p) s (fun t =>
        (mget [] (t.spCore c).reqs pFAB_IN).map (fun r => (r.line, r.wr.map (·.data))) = [(o.line, some p.data)] ∧ MemKept s t))

/-- R246, R247, R251: a released fabric bundle of one line whose target lies in a core of the module presents its line for reading (FWR,
FRED) or sends its RD (FRD), and is kept until its packet completes; a target that is not aligned to 64 B is rejected. -/
def Claim.FabricBundlesRelease : Prop :=
  ∀ (s : State) (c : Core) (p : BitVec 76) (d : Core),
    let v := p.toNat
    let line := bits v 75 59
    bits v 58 47 = 0 → line ≤ 81919 → (s.core c).sq = [] → (s.fb c).ops = [] → mget [] (s.spCore c).reqs pFAB_OUT = [] →
    let op := fun (k : Nat) => s.fabTarget c (k * 2 ^ 76 + v)
    let kept := fun (k : Nat) (t : State) =>
      (∃ o, (t.fb c).ops = [o] ∧ o.op = k ∧ o.left = 1 ∧ o.line = line ∧ o.nlines = 1 ∧ o.target = op k) ∧ MemKept s t
    let inCore := fun (k : Nat) => op k % 64 = 0 ∧ s.destOf (op k) 64 (s.classProf 0) = some (d.val, 1023)
      ∧ gLocal (op k) < 0x2000_0000_0000
    (inCore 2 → bits v 46 44 ≠ 7 → bits v 8 0 = 0 → Gives (.fwr c p) s (fun t => kept 2 t
        ∧ (mget [] (t.spCore c).reqs pFAB_OUT).map (·.line) = [line]))
    ∧ (inCore 4 → Gives (.fred c p) s (fun t => kept 4 t ∧ (mget [] (t.spCore c).reqs pFAB_OUT).map (·.line) = [line]))
    ∧ (inCore 3 → bits v 46 44 = 0 → bits v 8 0 = 0 → s.outstanding c < 256 → Gives (.frd c p) s (fun t => kept 3 t
        ∧ t.outstanding c = s.outstanding c + 1
        ∧ ∃ f, t.flights = s.flights ++ [f] ∧ f.pkt.typ = Packet.RD ∧ f.pkt.dest = d.val ∧ f.pkt.src = c.val ∧ f.pkt.lenm1 = 63
            ∧ f.pkt.addr = gLocal (op 3) ∧ f.loc = .router c))

/-- R162, R240, R246, R247, R251: what the answers of a core's own requests do, and what its released fabric bundles send. -/
def Obligations.FabricRequestsAndAnswers : Prop := Claim.AnswersReceived ∧ Claim.FabricBundlesRelease

/-- R253, R255, R263: a flit in error is counted and, the first in 10 ms, raises an event; a heartbeat is seen at its receiver; a link on
which no flit has come for 256 NCLK is marked down at the receiver, and a ring segment likewise. -/
def Claim.LinksFail : Prop :=
  ∀ (s : State) (c : Core) (l : Fin 4) (seg : Fin 16) (anti : Bool), hasLink c l = true →
    Gives (.linkFlitError (.mesh c l.castSucc)) s (fun t =>
      (t.rd .FB_LINK_RETRIES c).toNat = min ((s.rd .FB_LINK_RETRIES c).toNat + 1) (2 ^ 64 - 1)
      ∧ (∃ q, mget (0, 0, 0) (t.fb c).retry l = (s.clk.wt / 10000000, q)) ∧ MemKept s t)
    ∧ (s.flag F.FB_CTRL_HB_EN (neighbour c l) = true → Gives (.heartbeatSend (.mesh c l.castSucc)) s (fun t =>
        mget 0 (t.fb c).seen l = s.clk.tb ∧ { t with fbc := s.fbc } = s))
    ∧ Gives (.linkHeartbeatLapse (.mesh c l.castSucc)) s (fun t => bit (t.fget F.FB_STATUS_LINK_DOWN c) l = true
        ∧ (s.phys c, 4) ∈ t.hlth.crit ∧ (s.phys (neighbour c l), 4) ∈ t.hlth.crit ∧ MemKept s t)
    ∧ Gives (.linkHeartbeatLapse (.ring seg anti)) s (fun t => seg.val + (if anti then 16 else 0) ∈ t.rimDown ∧ MemKept s t)

/-- R90, R211, R258, R259: the next line of a Bow write passes the tap of a core in its column range, and with LAND set in word mode is
presented to BOW_IN at the line of the header plus its place. -/
def Claim.BowLines : Prop :=
  ∀ (s : State) (c : Core) (w : BowBus) (line : List Byte), mget [] s.bow (c.val / 150) = [w] →
    w.lines.map (·.2) = [line] → line.length = 64 → w.hdr.col0 ≤ c.val % 150 → c.val % 150 ≤ w.hdr.col1 → w.hdr.land = true → w.hdr.rowm = false →
    (s.spCore c).bow = [] → (s.spCore c).bowDone = [] → (s.spCore c).rows = [] → mget [] (s.spCore c).reqs pBOW_IN = [] →
    s.parked c = false → s.fget F.PWR_STATUS_STATE ≠ 2 → (s.mxc c).loads = [] →
    Gives (.bowLineAtTap c) s fun t =>
      (mget [] (t.spCore c).reqs pBOW_IN).map (fun r => (r.line, r.wr.map fun x => (x.mask, x.data, x.wop)))
        = [(w.hdr.line, some (2 ^ 64 - 1, line, 0))]
      ∧ (∃ r, (t.spCore c).bow = [r] ∧ r.id = w.id ∧ r.passed = 1 ∧ r.left = 1)
      ∧ RegsKept s t [RegId.CLK_SKIMMED.addr 0 0 0] ∧ MemKept s t

/-- R253, R255, R263: links and ring segments that fail are detected; R90, R211, R258, R259: a Bow write's lines pass the taps
and land. -/
def Obligations.LinksAndBow : Prop := Claim.LinksFail ∧ Claim.BowLines

/-! ## The memory stacks (08) -/

/-- R268, R269, R284: a controller in service accepts an RD as a READ and a WR as a WRITE, which it answers at once with a WACK; a
controller whose stack is not ENABLED refuses every request: it is counted and answered with REFUSED. -/
def Claim.ControllersAccept : Prop :=
  ∀ (s : State) (ch : Chan) (p : Packet), p ∉ s.flights.map (·.pkt) → p.dest = 0x8000 + ch.val → p.src < 18000 →
    s.boot.hbmUp = true → (s.chan ch).queue = [] → s.rack.phase = 0 → p.lenm1 < 512 →
    let ca := (s.ilvOf p.addr).caddr
    let queued := fun (k : Nat) (t : State) =>
      (∃ r, (t.chan ch).queue = [r] ∧ r.kind = k ∧ r.pkt = p ∧ r.first = ca / 64 ∧ r.off = ca % 64 ∧ r.acc = s.clk.cyc)
      ∧ RegsKept s t [] ∧ MemKept s t
    let sent := fun (a : Packet) (t : State) => t.flights = s.flights
      ++ [⟨a, .router (edgeCore p.dest (p.src / 150) (p.src % 150)), upTo 2 s.clk.tb + 4, 5⟩]
    (s.chanReason ch = none → p.typ = Packet.RD → Gives (.channelRequestAccept p) s (fun t => queued 1 t ∧ t.flights = s.flights))
    ∧ (s.chanReason ch = none → p.typ = Packet.WR → p.wop = 0 →
        Gives (.channelRequestAccept p) s (fun t => queued 2 t ∧ sent (packetReply p Packet.WACK stOK) t))
    ∧ (s.chanReason ch = none → p.typ = Packet.WR → (p.wop = 1 ∨ p.wop = 2 ∨ p.wop = 5) →
        Gives (.channelRequestAccept p) s (fun t => queued 3 t ∧ sent (packetReply p Packet.WACK stOK) t))
    ∧ (s.chanReason ch ≠ none → p.typ = Packet.WR →
        Gives (.channelRequestAccept p) s (fun t => (t.chan ch).queue = [] ∧ sent (packetReply p Packet.WACK stREFUSED) t
          ∧ (t.rd .HBMC_REFUSED (ch.val / 32)).toNat = min ((s.rd .HBMC_REFUSED (ch.val / 32)).toNat + 1) (2 ^ 64 - 1)
          ∧ MemKept s t))

/-- R268, R270, R274, R276: a READ takes its accesses as they stand; its response carries the bytes asked for, corrected where one or two
symbols of an access were in error, and is poisoned where three to six were. -/
def Claim.StackReads : Prop :=
  ∀ (s : State) (ch : Chan) (r : HReq), r.pkt.src < 18000 → r.off + r.pkt.lenm1 < 64 →
    ((s.chan ch).queue = [r] → r.kind = 1 → (s.chan ch).coal = [] → Gives (.hbmRead ch []) s (fun t =>
      (t.chan ch).queue = [] ∧ (∃ d, (t.chan ch).decs = (s.chan ch).decs ++ [d] ∧ d.req = r
          ∧ d.accs = [⟨r.first, s.hbmBytes ch r.first, mget [] s.hbmErr (accKey ch r.first), s.hbmPoisoned ch r.first, false⟩])
      ∧ MemKept s t ∧ RegsKept s t []))
    ∧ (∀ h at_, (s.chan ch).decs = [⟨r, at_, [h]⟩] → h.hit = false → h.data.length = 64 → h.syms.length ≤ 6 →
        let corrected := 1 ≤ h.syms.length ∧ h.syms.length ≤ 2
        Gives (.hbmReadComplete ch) s (fun t => (t.chan ch).decs = []
          ∧ (∃ f, t.flights = s.flights ++ [f] ∧ f.pkt.typ = Packet.RDR ∧ f.pkt.dest = r.pkt.src ∧ f.pkt.op = r.pkt.op
              ∧ (h.syms.length ≤ 2 → f.pkt.data = (h.data.drop r.off).take (r.pkt.lenm1 + 1) ∧ f.pkt.poison = h.poison)
              ∧ (3 ≤ h.syms.length → f.pkt.poison = true))
          ∧ (t.rd .HBMC_CORRECTED (ch.val / 32)).toNat = (if corrected
              then min ((s.rd .HBMC_CORRECTED (ch.val / 32)).toNat + 1) (2 ^ 64 - 1)
              else (s.rd .HBMC_CORRECTED (ch.val / 32)).toNat)
          ∧ (t.rd .HBMC_UNCORRECTABLE (ch.val / 32)).toNat = (if 3 ≤ h.syms.length
              then min ((s.rd .HBMC_UNCORRECTABLE (ch.val / 32)).toNat + 1) (2 ^ 64 - 1)
              else (s.rd .HBMC_UNCORRECTABLE (ch.val / 32)).toNat)
          ∧ MemKept s t))

/-- R268 to R270, R274, R276, R284: a controller accepts or refuses a request; a read is decoded and answered. -/
def Obligations.StackRequestsAndReads : Prop := Claim.ControllersAccept ∧ Claim.StackReads

/-- R268, R277: a WRITE within one access writes its bytes there and no other byte of any stack; the access is poisoned if the write is,
or if part of a poisoned access stays. -/
def Claim.StackWrites : Prop :=
  ∀ (s : State) (ch : Chan) (r : HReq), (s.chan ch).queue = [r] → r.kind = 2 → (s.chan ch).coal = [] →
    r.off + r.pkt.lenm1 < 64 → r.pkt.data.length = r.pkt.lenm1 + 1 → mget [] s.hbmErr (accKey ch r.first) = [] →
    let a := ch.val * 2 ^ 32 + 64 * r.first + r.off
    Gives (.hbmWrite ch []) s fun t =>
      (t.chan ch).queue = [] ∧ mgets 0 t.hbm a r.pkt.data.length = r.pkt.data
      ∧ (∀ b, b < a ∨ a + r.pkt.data.length ≤ b → mget 0 t.hbm b = mget 0 s.hbm b)
      ∧ t.hbmPoisoned ch r.first = (r.pkt.poison || (s.hbmPoisoned ch r.first && decide (r.pkt.data.length ≠ 64)))
      ∧ SpKept s t

/-- R278, R280: an ACCUMULATE of PAIR64 elements on an access that the coalescing store holds adds each element to the one there by
pair_add and leaves the entry dirty; no byte of the stack itself changes. -/
def Claim.StackAccumulates : Prop :=
  ∀ (s : State) (ch : Chan) (r : HReq) (e : Coal), (s.chan ch).queue = [r] → r.kind = 3 → r.op = 0 → (s.chan ch).coal = [e] →
    e.acc = r.first → e.data.length = 64 → r.off % 8 = 0 → r.pkt.data.length % 8 = 0 → 0 < r.pkt.data.length →
    r.off + r.pkt.data.length ≤ 64 →
    Gives (.hbmAccumulate ch []) s fun t =>
      (t.chan ch).queue = [] ∧ MemKept s t
      ∧ ∃ f, (t.chan ch).coal = [f] ∧ f.acc = e.acc ∧ f.dirty = true ∧ f.poison = (e.poison || r.pkt.poison)
          ∧ (∀ k, k < r.pkt.data.length / 8 → leNat ((f.data.drop (r.off + 8 * k)).take 8)
              = (pairAdd (leNat ((e.data.drop (r.off + 8 * k)).take 8)) (leNat ((r.pkt.data.drop (8 * k)).take 8))).1 % 2 ^ 64)
          ∧ f.data.take r.off = e.data.take r.off
          ∧ f.data.drop (r.off + r.pkt.data.length) = e.data.drop (r.off + r.pkt.data.length)

/-- R268, R277, R278, R280: a write of one access, and an accumulation in the coalescing store. -/
def Obligations.StackWritesAndSums : Prop := Claim.StackWrites ∧ Claim.StackAccumulates

/-- R271, R275, R281: a READ still incomplete at 1,440 MCLK is answered with poisoned zeros and counted; a write-back slot rewrites its
access without error symbols; the scrubber goes to its next access; a flush writes back the entries that were dirty when it began, and
they stay, clean. -/
def Claim.StackUpkeep : Prop :=
  ∀ (s : State) (ch : Chan) (st : Stack),
    (∀ r, (s.chan ch).queue = [r] → (s.chan ch).decs = [] → r.kind = 1 → r.pkt.src < 18000 →
      s.fget F.HBMC_MAPOUT_THR_TIMEOUT (ch.val / 32) = 0 →
      Gives (.hbmRequestTimeout ch) s (fun t => (t.chan ch).queue = []
        ∧ (∃ f, t.flights = s.flights ++ [f] ∧ f.pkt = packetReply r.pkt Packet.RDR stOK (zeros (r.pkt.lenm1 + 1)) true)
        ∧ (t.rd .HBMC_TIMEOUTS (ch.val / 32)).toNat = min ((s.rd .HBMC_TIMEOUTS (ch.val / 32)).toNat + 1) (2 ^ 64 - 1)
        ∧ MemKept s t))
    ∧ (∀ a rest, (s.chan ch).wb = a :: rest → Gives (.eccWriteback ch) s (fun t => (t.chan ch).wb = rest
        ∧ mget [] t.hbmErr (accKey ch a) = [] ∧ (∀ k, k ≠ accKey ch a → mget [] t.hbmErr k = mget [] s.hbmErr k)
        ∧ (∀ b, mget 0 t.hbm b = mget 0 s.hbm b) ∧ SpKept s t ∧ RegsKept s t []))
    ∧ (s.flag F.HBMC_SCRUB_EN (ch.val / 32) = true → s.hState (ch.val / 32) = hENABLED →
        mget [] s.hbmErr (accKey ch (s.chan ch).scrubPos) = [] →
        Gives (.patrolScrubRead ch []) s (fun t => (t.chan ch).scrubPos = ((s.chan ch).scrubPos + 1) % 41943040
          ∧ (t.chan ch).scrubWt = t.clk.wt ∧ MemKept s t ∧ RegsKept s t [RegId.CLK_SKIMMED.addr 0 0 0]))
    ∧ Gives (.hbmFlushWrite st) s (fun t => t.flag F.HBMC_STATUS_FLUSHING st = true
        ∧ (∀ k a, k < 32 → ((32 * st.val + k, a) ∈ (t.stack st).flush
            ↔ ∃ e, e ∈ (s.chan (32 * st.val + k)).coal ∧ e.dirty = true ∧ e.acc = a))
        ∧ RegsKept s t [RegId.HBMC_CTRL.addr st 0 0, RegId.HBMC_STATUS.addr st 0 0] ∧ MemKept s t)
    ∧ (∀ k a data, s.flag F.HBMC_STATUS_FLUSHING st = true → k < 32 → (s.stack st).flush = [(32 * st.val + k, a)] →
        (s.chan (32 * st.val + k)).coal = [⟨a, data, true, false⟩] → data.length = 64 →
        Gives (.hbmFlushEnd st) s (fun t => t.flag F.HBMC_STATUS_FLUSHING st = false ∧ (t.stack st).flush = []
          ∧ t.hbmBytes (32 * st.val + k) a = data ∧ (t.chan (32 * st.val + k)).coal = [⟨a, data, false, false⟩]
          ∧ (∀ b, b < (32 * st.val + k) * 2 ^ 32 + 64 * a ∨ (32 * st.val + k) * 2 ^ 32 + 64 * a + 64 ≤ b →
              mget 0 t.hbm b = mget 0 s.hbm b)
          ∧ SpKept s t))

/-- R282, R283, R287, R489: the states of a stack; a map-out takes it (and while G = 2 its partner) out of MOD_STACK_MAP and stops it for
good; at 95 °C it is HOT, once per crossing. -/
def Claim.StackStates : Prop :=
  ∀ (s : State) (st : Stack) (v : Bool) (temp : BitVec 8),
    let h := s.hState st
    let regs := [RegId.HBMC_CTRL.addr st 0 0, RegId.HBMC_STATUS.addr st 0 0]
    Gives (.hbmEnableWrite st v) s (fun t => t.flag F.HBMC_CTRL_ENABLE st = v ∧ RegsKept s t regs ∧ MemKept s t
      ∧ t.hState st = (if v = true ∧ h = hDISABLED then hENABLING else if v = false ∧ h = hENABLED then hSTOPPING else h)
      ∧ (h = hSTOPPING → t.flag F.HBMC_STATUS_ENABLE_PENDING st = v)
      ∧ (h = hENABLING → (t.stack st).stopAfter = !v))
    ∧ (h = hENABLING → Gives (.hbmEnablingEnd st) s (fun t =>
        t.hState st = (if (s.stack st).stopAfter then hSTOPPING else hENABLED) ∧ (t.stack st).stopAfter = false
        ∧ RegsKept s t regs ∧ MemKept s t))
    ∧ (h = hSTOPPING → (s.stack st).mapout = none → (∀ k, k < 32 → s.chan (32 * st.val + k) = {}) →
        Gives (.hbmStoppingEnd st) s (fun t =>
          t.hState st = (if s.flag F.HBMC_STATUS_ENABLE_PENDING st then hENABLING else hDISABLED)
          ∧ RegsKept s t regs ∧ MemKept s t))
    ∧ ((s.stack st).mapout = none → h ≠ hMAPPED_OUT → s.ilvG = 0 → Gives (.hbmMapoutWrite st) s (fun t =>
        t.hState st = hSTOPPING ∧ bit (t.fget F.MOD_STACK_MAP_PRESENT) st = false
        ∧ (t.stack st).mapout = some (4, 0) ∧ MemKept s t
        ∧ RegsKept s t (RegId.MOD_STACK_MAP.addr 0 0 0 :: regs)))
    ∧ (temp.toNat < 105 → Gives (.stackTempSample st temp) s (fun t =>
        t.fget F.HBMC_TEMP_TEMP st = temp.toNat ∧ t.flag F.HBMC_TEMP_HOT st = decide (95 ≤ temp.toNat) ∧ MemKept s t
        ∧ (temp.toNat < 95 ∨ s.flag F.HBMC_TEMP_HOT st = true → RegsKept s t [RegId.HBMC_TEMP.addr st 0 0])))

/-- R271, R275, R281: deadlines, write-backs, scrubbing and flushes; R282, R283, R287, R489: the states of a stack, its map-out
and its temperature. -/
def Obligations.StackUpkeepAndStates : Prop := Claim.StackUpkeep ∧ Claim.StackStates

/-! ## Weight streaming, saved activations, Racking (09) -/

/-- R304, R314, R323, R331: ENABLE = 1 enables a disabled stream whose configuration passes, a disabled stream port (in 16 ACLK) and
Racking; while one stops it is remembered. ENABLE = 0 stops an enabled one, and clears a FAULT. NOW is set by writing 1. -/
def Obligations.StreamsEnableAndStop : Prop :=
  ∀ (s : State) (i : Stream) (c : Core) (v : Bool),
    let g := s.gsState i
    let st := s.fget F.STP_STATUS_STATE c
    let k := s.rkState
    let gregs := [RegId.STRM_GS_CTRL.addr 0 i 0, RegId.STRM_GS_STATUS.addr 0 i 0]
    let pregs := [RegId.STP_CTRL.addr c 0 0, RegId.STP_STATUS.addr c 0 0, RegId.CLK_SKIMMED.addr 0 0 0]
    (v = false ∨ g ≠ gsDISABLED ∨ s.gsConfigOk i = true → Gives (.gsEnableWrite i v) s (fun t =>
        t.flag F.STRM_GS_CTRL_ENABLE 0 i = v ∧ RegsKept s t gregs ∧ MemKept s t
        ∧ t.gsState i = (if v then (if g = gsDISABLED then gsENABLED else g)
            else if g = gsENABLED then gsSTOPPING else if g = gsFAULT then gsDISABLED else g)
        ∧ (g = gsSTOPPING → t.flag F.STRM_GS_STATUS_ENABLE_PENDING 0 i = v)
        ∧ (v = false → g = gsENABLED → (t.grist i).active = false
            ∧ (t.grist i).writes = (s.grist i).writes.filter (·.bow.isSome))))
    ∧ (g = gsSTOPPING → (s.grist i).writes = [] → (s.grist i).old = [] → s.gsConfigOk i = true →
        Gives (.gsStoppingEnd i) s (fun t => RegsKept s t gregs ∧ MemKept s t
          ∧ t.gsState i = (if s.flag F.STRM_GS_STATUS_ENABLE_PENDING 0 i then gsENABLED else gsDISABLED)))
    ∧ Gives (.stpEnableWrite c v) s (fun t => t.flag F.STP_CTRL_ENABLE c = v ∧ RegsKept s t pregs ∧ MemKept s t
        ∧ t.fget F.STP_STATUS_STATE c = (if v then (if st = eDISABLED then eENABLING else st)
            else if st = eENABLED then eSTOPPING else if st = eENABLING then eDISABLED else st)
        ∧ (st = eSTOPPING → t.flag F.STP_STATUS_ENABLE_PENDING c = v)
        ∧ (v = true → st = eDISABLED → (t.stpc c).enabling = some s.clk.tb))
    ∧ (st = eSTOPPING → (s.stpc c).saves = [] → (s.stpc c).recs = [] → Gives (.stpStoppingEnd c) s (fun t =>
        RegsKept s t pregs ∧ MemKept s t
        ∧ t.fget F.STP_STATUS_STATE c = (if s.flag F.STP_STATUS_ENABLE_PENDING c then eENABLING else eDISABLED)))
    ∧ (∀ b, (s.stpc c).enabling = some b → Gives (.stpEnablingEnd c) s (fun t =>
        t.fget F.STP_STATUS_STATE c = eENABLED ∧ (t.stpc c).enabling = none ∧ RegsKept s t pregs ∧ MemKept s t))
    ∧ Gives (.rkEnableWrite v) s (fun t => t.flag F.STRM_RK_CTRL_ENABLE = v
        ∧ OnlyRegs [RegId.STRM_RK_CTRL.addr 0 0 0, RegId.STRM_RK_STATUS.addr 0 0 0] s t
        ∧ t.rkState = (if v then (if k = rkDISABLED then rkIDLE else k)
            else if k = rkIDLE then rkDISABLED else if k = rkOPEN ∨ k = rkCLOSING then rkSTOPPING else k)
        ∧ (k = rkSTOPPING → t.flag F.STRM_RK_STATUS_ENABLE_PENDING = v))
    ∧ Gives (.rkNowWrite v) s (fun t => (t.flag F.STRM_RK_CTRL_NOW = (v || s.flag F.STRM_RK_CTRL_NOW))
        ∧ OnlyRegs [RegId.STRM_RK_CTRL.addr 0 0 0] s t)

/-- R301, R302, R308, R309, R311, R315: the released bundles of an enabled stream port. A GNEED or ANEED whose counter is short latches
a rerun and is counted, and one whose counter has come with an old enough stamp does nothing; a GREL releases the oldest position
fetched; a SAVE presents its lines on STR_OUT and is complete with its last write; a PFSTART starts at the committed top; an AREL
releases the oldest record. -/
def Obligations.StreamBundlesTakeEffect : Prop :=
  ∀ (s : State) (c : Core) (p : BitVec 76), s.fget F.STP_STATUS_STATE c = eENABLED →
    let v := p.toNat
    let i := bits v 75 71
    let ctr := bits v 70 65
    let x := s.stpc c
    let short := reached (s.fget F.EP_ARRIVE_COUNT c ctr) (bits v 64 33) = false
    let there := fun (margin : Nat) => reached (s.fget F.EP_ARRIVE_COUNT c ctr) (bits v 64 33) = true ∧ s.stampOf c ctr + margin ≤ s.clk.wt
    let quiet := fun (t : State) => (t.core c).rerun = (s.core c).rerun ∧ t.stp = s.stp ∧ t.gs = s.gs ∧ MemKept s t
      ∧ RegsKept s t [RegId.CLK_SKIMMED.addr 0 0 0]
    let late := fun (cause : Nat) (r : RegId) (t : State) =>
      (t.core c).rerun = ((s.core c).rerun ||| 2 ^ cause) ∧ Counted s t r c 1 ∧ MemKept s t
    (bits v 32 0 = 0 → s.slotOf c = some (s.gsTract i) →
      (there (s.fget F.STRM_GS_MARGIN_NS 0 i) → Gives (.gneed c p) s quiet)
      ∧ (short → Gives (.gneed c p) s (late 3 .STP_GRIST_UNDERRUNS)))
    ∧ (bits v 75 71 = 0 → bits v 32 0 = 0 →
      (there (s.fget F.STP_PF_MARGIN_NS c) → Gives (.aneed c p) s quiet)
      ∧ (short → Gives (.aneed c p) s (late 6 .STP_ACT_UNDERRUNS)))
    ∧ (bits v 70 0 = 0 → s.slotOf c = some (s.gsTract i) → (s.grist i).released < (s.grist i).fetched →
        Gives (.grel c p) s (fun t => t.grist i = { s.grist i with released := (s.grist i).released + 1 }
          ∧ t.fget F.STRM_GS_STATUS_NEXT_REL 0 i = ((s.grist i).released + 1) % 65536 ∧ MemKept s t
          ∧ RegsKept s t [RegId.CLK_SKIMMED.addr 0 0 0, RegId.STRM_GS_STATUS.addr 0 i 0]))
    ∧ (bits v 34 0 = 0 → svLine v + svLines v ≤ 81920 → svMode v = 3 → s.flag F.STP_STATUS_PF_ACTIVE c = false →
        mget [] (s.spCore c).reqs pSTR_OUT = [] →
        Gives (.save c p) s (fun t => (mget [] (t.spCore c).reqs pSTR_OUT).map (·.line)
            = (List.range (svLines v)).map (fun n => svLine v + n)
          ∧ (∃ z, (t.stpc c).saves = x.saves ++ [z] ∧ z.payload = 10 * 2 ^ 76 + v ∧ z.wt = t.clk.wt)
          ∧ MemKept s t ∧ RegsKept s t [RegId.CLK_SKIMMED.addr 0 0 0]))
    ∧ (∀ z, x.saves = [z] → z.placed = true → z.left = 0 → bits z.payload 40 35 < 64 →
        let n := bits z.payload 40 35
        Gives (.saveComplete c) s (fun t => (t.stpc c).saves = [] ∧ MemKept s t ∧ RegsKept s t [RegId.EP_ARRIVE.addr c n 0]
          ∧ t.fget F.EP_ARRIVE_COUNT c n = (s.fget F.EP_ARRIVE_COUNT c n + b2n (bit z.payload 41)) % 2 ^ 32))
    ∧ (v = 0 → s.flag F.STP_STATUS_PF_ACTIVE c = false →
        let top := s.fget F.STP_SAVE_TOP_ADDR c
        Gives (.pfstart c p) s (fun t => t.fget F.STP_PF_PTR_ADDR c = top ∧ (t.stpc c).rec0 = x.nextRec
          ∧ (if x.base < 64 * top then t.flag F.STP_STATUS_PF_ACTIVE c = true else t.flag F.STP_STATUS_PF_DONE c = true)
          ∧ MemKept s t ∧ RegsKept s t [RegId.CLK_SKIMMED.addr 0 0 0, RegId.STP_PF_PTR.addr c 0 0, RegId.STP_STATUS.addr c 0 0]))
    ∧ (∀ r, v = 0 → x.recs = [r] → r.released = false → x.rec0 ≤ r.k →
        Gives (.arel c p) s (fun t => (t.stpc c).recs = [{ r with released := true }] ∧ MemKept s t
          ∧ RegsKept s t [RegId.CLK_SKIMMED.addr 0 0 0]))

/-- R293 to R298, R256: a stream that is active and has a free slot fetches its next position: its piece gets one write for each band
that its rows meet. A line read for a write stands at its injector, and the injector drives the write's first line onto the buses of
all its rows when they are free. -/
def Obligations.GristWritesFlow : Prop :=
  ∀ (s : State) (i : Stream),
    let x := s.grist i
    let plist := s.memNat (s.gsTable i + 16 * s.gsLayer i x.fetched) 8
    (∀ e : Piece, x.active = true → s.gsState i = gsENABLED → x.fetched < s.gsP i → x.fetched < s.gsWd i → x.writes = [] →
      x.old = [] → plist % 32 = 0 → s.memNat (s.gsTable i + 16 * s.gsLayer i x.fetched + 8) 8 = 0 → s.inStacks plist 32 = true →
      s.gsPiece i plist = some e →
      Gives (.gristPositionFetch i) s (fun t => (t.grist i).fetched = x.fetched + 1 ∧ (t.grist i).released = x.released
        ∧ (t.grist i).writes.map (fun w => (w.pos, w.piece, w.fy, w.east, w.hdr.nlm1))
            = ((List.range 5).filter (fun fy => decide (24 * fy ≤ e.row1 ∧ e.row0 ≤ 24 * fy + 23))).map
                (fun fy => (x.fetched, 0, fy, e.east, e.nlm1))
        ∧ MemKept s t ∧ RegsKept s t []))
    ∧ (∀ (w : GsWrite) (p : Packet), x.writes = [w] → w.bow = none → (∀ j : Stream, j ≠ i → (s.grist j).writes = []) →
        p ∉ s.flights.map (·.pkt) → p.op = s.gsOp i w → p.dest = injector w.fy w.east → p.poison = false → p.flags = stOK →
        p.data.length = 64 →
        Gives (.gristSourceResponse p) s (fun t =>
          (t.grist i).writes = [{ w with got := mput (0, []) w.got p.rid (s.clk.tb, p.data) }]
          ∧ { t with gs := s.gs } = s))
    ∧ (∀ (w : GsWrite) (fy : Fin 5), x.writes = [w] → x.old = [] → w.bow = none → w.fy = fy → w.bad = false → w.hdr.nlm1 = 0 →
        (mget (0, []) w.got 0).2.length = 64 → (∀ j : Stream, j ≠ i → (s.grist j).writes = [] ∧ (s.grist j).old = []) →
        (∀ r, w.row0 ≤ r → r ≤ w.row1 → mget [] s.bow r = []) →
        Gives (.bowWriteInject w.east fy) s (fun t =>
          (∀ r, w.row0 ≤ r → r ≤ w.row1 → ∃ b, mget [] t.bow r = [b] ∧ b.id = s.nextBow ∧ b.hdr = w.hdr ∧ b.east = w.east
            ∧ b.lines.map (·.2) = [(mget (0, []) w.got 0).2])
          ∧ (t.grist i).writes = [{ w with bow := some s.nextBow }] ∧ MemKept s t
          ∧ (t.rd .STRM_GS_LINES 0 i).toNat = min ((s.rd .STRM_GS_LINES 0 i).toNat + 1) (2 ^ 64 - 1)))

/-- R300, R309, R325, R329: the prefetcher reads the trailer of the next record below the one before; a record whose lines are written
increases its counter, stamps it, and moves the pointer below it. A granule copy records the current number in the map and is sent;
its WACK clears it. -/
def Obligations.RecordsAndGranulesMove : Prop :=
  ∀ (s : State) (c : Core),
    let x := s.stpc c
    (∀ top dest mid, s.flag F.STP_STATUS_PF_ACTIVE c = true → s.fget F.STP_STATUS_STATE c = eENABLED →
      x.nextRec < x.rec0 + s.pfPd c → x.recs = [] → s.pfTop c x.nextRec = some top → x.base < top → 64 ≤ top →
      s.destOf (1023 * 2 ^ 54 + (top - 64)) 64 0 = some (dest, mid) → s.outstanding c < 256 →
      Gives (.pfRecordFetch c) s (fun t => (t.stpc c).nextRec = x.nextRec + 1
        ∧ (∃ r, (t.stpc c).recs = [r] ∧ r.k = x.nextRec ∧ r.top = top ∧ r.stage = 0 ∧ r.parts = 1)
        ∧ (∃ f, t.flights = s.flights ++ [f] ∧ f.pkt.typ = Packet.RD ∧ f.pkt.dest = dest ∧ f.pkt.addr = top - 64 ∧ f.pkt.lenm1 = 63)
        ∧ t.outstanding c = s.outstanding c + 1 ∧ MemKept s t))
    ∧ (∀ r, x.recs = [r] → r.stage = 3 → x.rec0 ≤ r.k →
        let ctr := s.pfCbase c + (r.k - x.rec0) % s.pfPd c
        let ptr := min (64 * s.fget F.STP_PF_PTR_ADDR c) (r.top - r.total)
        ctr < 64 →
        Gives (.pfRecordComplete c) s (fun t => t.fget F.EP_ARRIVE_COUNT c ctr = (s.fget F.EP_ARRIVE_COUNT c ctr + 1) % 2 ^ 32
          ∧ t.stampOf c ctr = s.clk.wt ∧ t.fget F.STP_PF_PTR_ADDR c = ptr / 64 ∧ (t.stpc c).recs = [{ r with stage := 4 }]
          ∧ (ptr ≤ x.base → t.flag F.STP_STATUS_PF_DONE c = true ∧ t.flag F.STP_STATUS_PF_ACTIVE c = false)
          ∧ MemKept s t
          ∧ RegsKept s t [RegId.EP_ARRIVE.addr c ctr 0, RegId.STP_PF_PTR.addr c 0 0, RegId.STP_STATUS.addr c 0 0]))
    ∧ (∀ e, s.rkNext = some e → s.rack.cask.done = false → s.rack.host.done = true → s.memPoison (s.rkAddr e) 4096 = false →
        Gives .rackGranuleCopy s (fun t => t.rack.cask.out = s.rack.cask.out ++ [e]
          ∧ (∃ f, t.flights = s.flights ++ [f] ∧ f.pkt.typ = Packet.WR ∧ f.pkt.data = s.memGet (s.rkAddr e) 4096
              ∧ f.pkt.op = rkOp false e)
          ∧ SpKept s t))
    ∧ (∀ (p : Packet) (e : Nat), p ∉ s.flights.map (·.pkt) → p.op = rkOp false e → p.flags = stOK → s.rack.phase = 1 →
        e ∈ s.rack.cask.out → s.rack.cask.failed = 0 → s.rack.cask.sealed_ = false → s.rack.cask.sealing = false →
        s.rack.cask.sel = true →
        Gives (.rackCopyResponse p) s (fun t => t.rack.cask.out = s.rack.cask.out.filter (· != e) ∧ t.rack.host = s.rack.host
          ∧ { t with rack := s.rack } = s))

/-! ## The Brim ports (10) -/

/-- R338 to R340: the states of a port. ENABLE = 1 trains a DISABLED port and is remembered while STOPPING; ENABLE = 0 stops a port and
clears FAILED; a write of RETRAIN, or a trained group that loses block lock, sends a port that is up back to TRAINING, counted; an attempt
that trains both groups takes it UP, the third without takes it DEGRADED or FAILED. -/
def Obligations.BrimPortsTrain : Prop :=
  ∀ (s : State) (p : Port) (v lockA lockB : Bool) (msg : PeerMsg),
    let st := s.bState p
    let fails := s.fget F.BRIM_STATUS_TRAIN_FAILS p
    let frame := fun (t : State) => MemKept s t ∧ (∀ q : Port, q ≠ p → t.bp q = s.bp q ∧ t.bState q = s.bState q)
      ∧ RegsKept s t [RegId.BRIM_CTRL.addr p 0 0, RegId.BRIM_STATUS.addr p 0 0, RegId.BRIM_PEER.addr p 0 0,
          RegId.BRIM_RETRAINS.addr p 0 0, RegId.MOD_STATUS.addr 0 0 0, RegId.MOD_EVT_WR.addr 0 0 0, RegId.MOD_EVT_LOST.addr 0 0 0,
          RegId.CLK_SKIMMED.addr 0 0 0]
    let a := s.bGroupOk p lockA
    let b := s.bGroupOk p lockB
    let retrains := fun (reason : Nat) (t : State) => t.bState p = bTRAINING ∧ t.fget F.BRIM_STATUS_GROUPS p = 0
      ∧ Counted s t .BRIM_RETRAINS p 1 ∧ (EvtRoom s → Raised s t 0x7003 kPORT p reason) ∧ frame t
    Gives (.brimEnableWrite p v) s (fun t => t.flag F.BRIM_CTRL_ENABLE p = v ∧ frame t
      ∧ t.bState p = (if v then (if st = bDISABLED then bTRAINING else st)
          else if st = bTRAINING ∨ st = bUP ∨ st = bDEGRADED then bSTOPPING else if st = bFAILED then bDISABLED else st)
      ∧ (v = true → st = bDISABLED → (t.bp p).ether = s.flag F.BRIM_CFG_MODE p)
      ∧ (st = bSTOPPING → t.flag F.BRIM_STATUS_ENABLE_PENDING p = v)
      ∧ (v = false → (st = bUP ∨ st = bDEGRADED) → EvtRoom s → Raised s t 0x7002 kPORT p 1))
    ∧ (s.portUp p = true → Gives (.brimRetrainWrite p) s (retrains 5))
    ∧ (s.portUp p = true → bit (s.fget F.BRIM_STATUS_GROUPS p) (b2n v) = true → Gives (.blockLockLoss p v) s (retrains 3))
    ∧ (st = bTRAINING → Gives (.brimTrainingAttemptEnd p lockA lockB) s (fun t => frame t
        ∧ (a = true → b = true → t.bState p = bUP ∧ t.fget F.BRIM_STATUS_GROUPS p = 3 ∧ t.fget F.BRIM_STATUS_TRAIN_FAILS p = 0)
        ∧ ((a && b) = false → fails < 2 → t.bState p = bTRAINING ∧ t.fget F.BRIM_STATUS_TRAIN_FAILS p = fails + 1)
        ∧ ((a && b) = false → (a || b) = true → fails = 2 → t.bState p = bDEGRADED
            ∧ t.fget F.BRIM_STATUS_GROUPS p = b2n a + 2 * b2n b)
        ∧ ((a || b) = false → fails = 2 → t.bState p = bFAILED)))
    ∧ (st = bDEGRADED → Gives (.brimGroupRetry p lockA) s (fun t =>
        t.bState p = (if s.bGroupOk p lockA then bUP else bDEGRADED) ∧ frame t))
    ∧ (st = bSTOPPING → (s.bp p).txq = [] → (s.bp p).replay = [] → Gives (.brimStoppingEnd p) s (fun t =>
        t.bState p = (if s.flag F.BRIM_STATUS_ENABLE_PENDING p then bTRAINING else bDISABLED) ∧ (t.bp p).lseqTx = 0
        ∧ t.flag F.BRIM_STATUS_ENABLE_PENDING p = false ∧ frame t))
    ∧ (st = bTRAINING → Gives (.brimPeerFlit p msg) s (fun t => t.fget F.BRIM_PEER_MID p = msg.mid
        ∧ t.fget F.BRIM_PEER_PORT p = msg.port ∧ t.flag F.BRIM_PEER_MODE p = msg.ether ∧ t.flag F.BRIM_PEER_VALID p = true
        ∧ (t.bp p).peerGot = true ∧ (t.bp p).credQ = msg.crq ∧ (t.bp p).credS = msg.crs ∧ frame t))

/-- R342, R344, R346, R348: a good flit whose packet bears the next LSEQ puts it into the receive buffer and a good flit's ACK releases
the packets up to it and adds its credits; a flit in error owes a NAK; 2 µs without progress resend everything; a good frame's packet is
received, a bad one is counted as a drop; a PFC frame pauses its priorities. -/
def Claim.BrimFlitsAndFrames : Prop :=
  ∀ (s : State) (p : Port) (f : BrimFlit) (b : BrimPkt),
    let x := s.bp p
    let fine := s.ownId ≠ 0x3FF ∧ b.dmid < 1000 ∧ b.smid ≠ s.ownId ∧ brimTypeOk b.typ = true ∧ (brimHeaderOnly b = true → b.lenm1 = 0)
    let kept := fun (regs : List Nat) (t : State) => RegsKept s t regs ∧ MemKept s t ∧ ∀ q : Port, q ≠ p → t.bp q = s.bp q
    let good := f.crc = true ∧ f.corr = 0 ∧ f.uncorr = 0 ∧ f.nak = false
    (s.bListens p false = true →
      (good → f.pkts = [b] → x.replay = [] → b.lseq = (x.lseqRx + 1) % 1024 → fine →
        Gives (.brimDataFlit p f) s (fun t => (t.bp p).rxq = x.rxq ++ [b] ∧ (t.bp p).lseqRx = b.lseq
          ∧ (t.bp p).credQ = x.credQ + f.crq ∧ (t.bp p).credS = x.credS + f.crs
          ∧ Counted s t .BRIM_RX_BYTES p (32 + b.data.length) ∧ kept [RegId.BRIM_RX_BYTES.addr p 0 0] t))
      ∧ (good → ∀ r rest, x.replay = r :: rest → r.lseq = f.ack →
          Gives (.brimIdleFlit p f) s (fun t => (t.bp p).replay = rest ∧ (t.bp p).resends = 0 ∧ (t.bp p).rxq = x.rxq
            ∧ (t.bp p).progress = s.clk.wt ∧ (t.bp p).credQ = x.credQ + f.crq ∧ kept [] t))
      ∧ (f.crc = false → f.corr = 0 → f.uncorr = 0 →
          Gives (.brimIdleFlit p f) s (fun t => (t.bp p) = { x with nak := true } ∧ kept [] t))
      ∧ (x.replay ≠ [] → x.resends < 7 →
          Gives (.brimReplayTimeout p) s (fun t => (t.bp p).resend = x.replay.length ∧ (t.bp p).resends = x.resends + 1
            ∧ (t.bp p).replay = x.replay ∧ Counted s t .BRIM_REPLAYS p 1 ∧ MemKept s t)))
    ∧ (s.bListens p true = true → ∀ (etype : BitVec 16) (iface : Bool) (enables : BitVec 8) (times : List (BitVec 16)),
      (etype.toNat = s.fget F.BRIM_ETH_ETYPE p → fine →
        Gives (.brimFrameReceive p true 0 0 etype b) s (fun t => (t.bp p).rxq = x.rxq ++ [b]
          ∧ Counted s t .BRIM_RX_BYTES p (32 + b.data.length) ∧ kept [RegId.BRIM_RX_BYTES.addr p 0 0] t))
      ∧ Gives (.brimFrameReceive p false 0 0 etype b) s (fun t => (t.bp p).rxq = x.rxq ∧ Counted s t .BRIM_DROPS p 1 ∧ MemKept s t)
      ∧ Gives (.pfcPauseFrame p iface enables times) s (fun t =>
          (∀ k, (k = s.fget F.BRIM_ETH_PCP_REQ p ∨ k = s.fget F.BRIM_ETH_PCP_RSP p) → enables.getLsbD k = true →
            let q := (times.getD k 0).toNat
            mget 0 (t.bp p).pause (8 * b2n iface + k) = (if q = 0 then 0 else s.clk.wt + (8 * q + 24) / 25))
          ∧ kept [] t))

/-- R344, R346, R367 to R369: a port sends the packet at the head of its queue with the next LSEQ when it has the credits and keeps it
for replay; a flow's context is written whole unless the rates would sum beyond 900 MB/s, when nothing is written and an event tells. -/
def Claim.BrimPacketsSent : Prop :=
  ∀ (s : State) (p : Port) (x : BrimTx) (flow : Fin 256) (v : BitVec 32),
    let bp := s.bp p
    let sent := { x.pkt with lseq := bp.lseqTx }
    (s.portUp p = true → bp.ether = false → bp.resend = 0 → bp.replay = [] → bp.txq = [x] → x.pkt.flowv = false →
      brimCredits x.pkt ≤ (if brimResp x.pkt then bp.credS else bp.credQ) →
      Gives (.brimPacketTransmit p) s (fun t => (t.bp p).tx = some sent ∧ (t.bp p).txq = [] ∧ (t.bp p).replay = [sent]
        ∧ (t.bp p).lseqTx = (bp.lseqTx + 1) % 1024
        ∧ (t.bp p).credQ = (if brimResp x.pkt then bp.credQ else bp.credQ - brimCredits x.pkt)
        ∧ (t.bp p).credS = (if brimResp x.pkt then bp.credS - brimCredits x.pkt else bp.credS)
        ∧ Counted s t .BRIM_TX_BYTES p (32 + x.pkt.data.length) ∧ RegsKept s t [RegId.BRIM_TX_BYTES.addr p 0 0] ∧ MemKept s t))
    ∧ (let en := bit v.toNat 31
       let rate := bits v.toNat 17 8
       let burst := bits v.toNat 7 0
       rate ≤ 900 → 4 ≤ burst →
       (s.bRates p flow + (if en then rate else 0) ≤ 900 →
         Gives (.brimFlowWrite p flow v) s (fun t => t.flag F.BRIM_FLOW_EN p flow = en ∧ t.fget F.BRIM_FLOW_RATE p flow = rate
           ∧ t.fget F.BRIM_FLOW_BURST p flow = burst ∧ OnlyRegs [RegId.BRIM_FLOW.addr p flow 0] s { t with brim := s.brim }))
       ∧ (en = true → s.flag F.BRIM_FLOW_EN p flow = false → 900 < s.bRates p flow + rate → EvtRoom s →
           Gives (.brimFlowWrite p flow v) s (fun t => t.rd .BRIM_FLOW p flow = s.rd .BRIM_FLOW p flow
             ∧ Raised s t 0x700A kPORT p (flow + rate * 2 ^ 8 + s.bRates p flow % 1024 * 2 ^ 20)
             ∧ RegsKept s t [RegId.MOD_EVT_WR.addr 0 0 0] ∧ MemKept s t)))

/-- R342, R344, R346, R348: the flits and frames a port receives; R367 to R369: what it sends, under its credits and its flow
contexts. -/
def Obligations.BrimTransmission : Prop := Claim.BrimFlitsAndFrames ∧ Claim.BrimPacketsSent

/-- R353, R356, R358, R363 to R365, R381: a request for another module takes a free tag with its next epoch and joins the queue of the
port of its route; a request without a response in time is completed as timed out and its tag cools before it is free again; a RED
for another module goes out as a RACC and is acknowledged. -/
def Obligations.BrimRequestsQueued : Prop :=
  ∀ (s : State) (p q : Port) (a : Packet), a ∉ s.flights.map (·.pkt) → s.ownId ≠ 0x3FF → s.brim.fresh < 16384 →
    let tag := s.brim.fresh
    let queued := fun (b : BrimPkt) (t : State) =>
      (∃ r, t.brim.reqs = s.brim.reqs ++ [r] ∧ r.tag = tag ∧ r.port = q.val ∧ r.epoch = (mget 0 s.brim.epochs tag + 1) % 4
        ∧ r.wt = s.clk.wt ∧ r.rtb = s.fget F.BRIM_CFG_RTB q)
      ∧ (∃ x, (t.bp q).txq = (s.bp q).txq ++ [x] ∧ x.own = true ∧ x.pkt.typ = b.typ ∧ x.pkt.dmid = b.dmid ∧ x.pkt.smid = s.ownId
          ∧ x.pkt.addr = b.addr ∧ x.pkt.data = b.data ∧ x.pkt.tag = tag ∧ x.pkt.hops = b.hops + 1)
      ∧ t.brim.fresh = tag + 1 ∧ MemKept s t
    (brimTakes a = true → s.bChoose { s.bOfFabric a with smid := s.ownId } = .ok q.val →
      Gives (.brimRequestQueue p a) s (fun t => queued (s.bOfFabric a) t ∧ t.flights = s.flights ∧ RegsKept s t []))
    ∧ (∀ b, a.typ = Packet.RED → s.redBad a = none → s.redRaccs a = [b] → s.bChoose { b with smid := s.ownId } = .ok q.val →
        b.typ = BrimPkt.RACC → bit b.tspec 6 = false →
        Gives (.redToRacc p a) s (fun t => queued b t ∧ Counted s t .RED_RACC_SENT 0 1
          ∧ ∃ f, t.flights = s.flights ++ [f] ∧ f.pkt = packetReply a Packet.WACK stOK))
    ∧ (∀ (tag : Fin 16384) (r : BrimReq), s.brim.reqs = [r] → r.tag = tag → r.req = some a →
        Gives (.remoteTagTimeout tag) s (fun t => t.brim.reqs = [] ∧ Counted s t .BRIM_TAG_TIMEOUTS 0 1
          ∧ t.brim.cooling = s.brim.cooling ++ [(r.tag, t.clk.wt + 2000 * r.rtb)]
          ∧ (∃ f, t.flights = s.flights ++ [f] ∧ f.pkt = brimAnswer a 3 [] false) ∧ MemKept s t))
    ∧ (∀ (tag : Fin 16384) (w : Nat), s.brim.cooling = [(tag.val, w)] → s.brim.wait = [] →
        Gives (.tagCoolEnd tag) s (fun t => t.brim.cooling = [] ∧ t.brim.freed = s.brim.freed ++ [tag.val]
          ∧ RegsKept s t [RegId.CLK_SKIMMED.addr 0 0 0] ∧ MemKept s t))

/-- R353, R366, R385: a request for this module is issued onto the ring towards the destination of its address and kept until it is
answered; a response that bears the tag and epoch of a request in time is delivered to its requester, whose tag then cools; any
other is counted as stale. -/
def Obligations.BrimPacketsServed : Prop :=
  ∀ (s : State) (p : Port) (b : BrimPkt) (dest mid : Nat), s.ownId ≠ 0x3FF → b.dmid = s.ownId →
    let goesTo := fun (n : Nat) => s.destOf (1023 * 2 ^ 54 + b.addr) n 0 = some (dest, mid) ∧ dest ≠ destHost
    let isReg := regWindow ≤ b.addr ∧ b.addr < hostWindow
    let issued := fun (t : State) => (t.bp p).serve = (s.bp p).serve ++ [⟨(s.bp p).nextServe, b⟩]
      ∧ (∃ f, t.flights = s.flights ++ [f] ∧ f.pkt.typ = b.typ ∧ f.pkt.src = destBrim p ∧ f.pkt.dest = dest ∧ f.pkt.addr = b.addr
          ∧ f.pkt.data = b.data ∧ f.pkt.poison = b.poison ∧ f.pkt.op = (s.bp p).nextServe)
      ∧ RegsKept s t [] ∧ MemKept s t
    let done := fun (a : Packet) (r : BrimReq) (t : State) => t.brim.reqs = []
      ∧ t.brim.cooling = s.brim.cooling ++ [(r.tag, s.clk.wt + 2000 * r.rtb)]
      ∧ (∃ f, t.flights = s.flights ++ [f] ∧ f.pkt = brimAnswer a b.status b.data b.poison) ∧ MemKept s t
    (b.typ = Packet.WR → goesTo b.data.length → ¬ isReg → Gives (.brimWr p b) s issued)
    ∧ (b.typ = Packet.RD → goesTo (b.lenm1 + 1) → ¬ isReg → Gives (.brimRd p b) s issued)
    ∧ (b.typ = Packet.REGRD → goesTo 4 → isReg → s.flag F.BRIM_CFG_REMOTE_REG p = true → Gives (.brimRegrd p b) s issued)
    ∧ (b.typ = Packet.REGWR → goesTo 4 → isReg → s.flag F.BRIM_CFG_REMOTE_REG p = true → Gives (.brimRegwr p b) s issued)
    ∧ (∀ x, b.typ = BrimPkt.RACC → bit b.tspec 6 = false → s.region b.addr 256 = .stack x → dest = destChan x.chan →
        Gives (.brimRacc p b) s issued)
    ∧ (∀ (r : BrimReq) (a : Packet), s.brim.reqs = [r] → r.tag = b.tag → r.epoch = b.epoch → s.clk.wt ≤ r.deadline → r.req = some a →
        (b.typ = Packet.RDR → Gives (.brimRdr p b) s (done a r)) ∧ (b.typ = Packet.WACK → Gives (.brimWack p b) s (done a r))
        ∧ (b.typ = Packet.REGR → Gives (.brimRegr p b) s (done a r)))
    ∧ (s.brim.reqs = [] →
        let stale := fun (t : State) => Counted s t .BRIM_STALE 0 1 ∧ t.flights = s.flights ∧ MemKept s t
        (b.typ = Packet.RDR → Gives (.brimRdr p b) s stale) ∧ (b.typ = Packet.WACK → Gives (.brimWack p b) s stale)
        ∧ (b.typ = Packet.REGR → Gives (.brimRegr p b) s stale))

/-- R371, R372: a module that is not the root starts an exchange with its time t1; a request is answered with its stamps, and the reply
on the upstream port gives the offset half of (t2 − t1) − (t4 − t3); under PTP the four stamps come with their messages. -/
def Obligations.TimeExchanges : Prop :=
  ∀ (s : State) (p : Port) (t1 t2 t3 : Nat) (msg : PtpMsg),
    let x := s.brim.time
    let only := fun (y : BrimTime) (t : State) => t.brim.time = y ∧ { t with brim := { t.brim with time := x } } = s
    (s.flag F.BRIM_TIME_ROOT = true → Gives .timeExchangeStart s (fun t => t = s))
    ∧ (s.flag F.BRIM_TIME_ROOT = false → Gives .timeExchangeStart s (fun t => t.brim.time.t1 = some t.clk.wt
        ∧ t.brim.time.t2 = none ∧ t.brim.time.t3 = none ∧ t.brim.time.t4 = none ∧ t.brim.time.busy = true ∧ MemKept s t
        ∧ t.brim.time.missed = (if x.busy then x.missed + 1 else x.missed)))
    ∧ (s.bListens p false = true →
        Gives (.brimTimeFlit p false t1 t2 t3) s (only { x with sent := [t1, s.clk.wt, s.clk.wt] })
        ∧ (p.val = s.fget F.BRIM_TIME_UP_PORT → x.busy = true → x.t1 = some t1 →
            Gives (.brimTimeFlit p true t1 t2 t3) s (fun t => t.brim.time.busy = false ∧ t.brim.time.missed = 0 ∧ MemKept s t
              ∧ t.fget F.BRIM_TIME_OFS_OFS = ofSigned 32 (((t2 : Int) - t1 - (s.clk.wt - t3)) / 2))))
    ∧ (s.bListens p true = true → msg.domain = s.fget F.BRIM_ETH_PTP_DOMAIN p →
        (msg.kind.val = 2 → Gives (.ptpMessage p msg) s (only { x with sent := [s.clk.wt] }))
        ∧ (p.val = s.fget F.BRIM_TIME_UP_PORT → x.busy = true → x.t1 = none →
            (msg.kind.val = 0 → Gives (.ptpMessage p msg) s (only { x with t4 := some s.clk.wt }))
            ∧ (msg.kind.val = 1 → Gives (.ptpMessage p msg) s (only { x with t3 := some msg.stamp }))
            ∧ (msg.kind.val = 3 → Gives (.ptpMessage p msg) s (only { x with t2 := some msg.stamp }))))

/-! ## Gradient reduction (11) -/

/-- R379, R385, R390: the states of a window. ENABLE = 1 clears a DISABLED window whose regions pass, and rejects one that fails with
the reason; ENABLE = 0 disables an ARMED or CLOSED window and stops any other. Clearing leaves its span zero and arms it; the
deadline closes it; close-out takes each access and zeroes it, and ends CLOSED. -/
def Obligations.WindowsOpenAndClose : Prop :=
  ∀ (s : State) (w : Win) (v : Bool) (ch : Chan) (a : Fin 41943040),
    let st := s.winState w
    let x := s.win w
    let others := fun (t : State) => ∀ u : Win, u ≠ w → t.win u = s.win u
    (v = false ∨ st ≠ wDISABLED ∨ s.winBad w = none → Gives (.redWinEnableWrite w v) s (fun t =>
        t.flag F.RED_WIN_CTRL_ENABLE 0 w = v ∧ others t
        ∧ RegsKept s t [RegId.RED_WIN_CTRL.addr 0 w 0, RegId.RED_WIN_STATUS.addr 0 w 0] ∧ MemKept s t
        ∧ t.winState w = (if v then (if st = wDISABLED then wCLEARING else st)
            else if st = wARMED ∨ st = wCLOSED then wDISABLED
            else if st = wCLEARING ∨ st = wOPEN ∨ st = wCLOSING then wSTOPPING else st)
        ∧ (st = wSTOPPING → t.flag F.RED_WIN_STATUS_ENABLE_PENDING 0 w = v)))
    ∧ (∀ r, st = wDISABLED → s.winBad w = some r → EvtRoom s → Gives (.redWinEnableWrite w true) s (fun t =>
        t.winState w = wDISABLED ∧ t.fget F.RED_WIN_STATUS_REJECT 0 w = r ∧ Raised s t 0x8007 kMODULE 0 (w + r * 2 ^ 16)
        ∧ others t ∧ MemKept s t))
    ∧ (st = wCLEARING → s.chans = [] → s.red.pend = [] → Gives (.windowClearingComplete w) s (fun t =>
        t.winState w = wARMED ∧ (∀ b, s.winBase w ≤ b → b < s.winBase w + 256 * s.winChunks w → t.memByte b = 0)
        ∧ others t ∧ SpKept s t))
    ∧ (st = wOPEN → Gives (.windowDeadline w) s (fun t =>
        t.winState w = wCLOSING ∧ (t.win w).closeAt = x.dln ∧ others t ∧ MemKept s t
        ∧ RegsKept s t [RegId.CLK_SKIMMED.addr 0 0 0, RegId.RED_WIN_STATUS.addr 0 w 0]))
    ∧ (st = wCLOSING → x.closing = false → s.chans = [] → s.red.pend = [] → Gives (.closeOutStart w) s (fun t =>
        (t.win w).closing = true ∧ t.winState w = wCLOSING ∧ others t ∧ MemKept s t
        ∧ RegsKept s t [RegId.CLK_SKIMMED.addr 0 0 0]))
    ∧ (st = wCLOSING → x.closing = true → s.red.proc = none → Gives (.closeOutEnd w) s (fun t =>
        t.winState w = wCLOSED ∧ (t.win w).closing = false ∧ (t.win w).taken = [] ∧ others t ∧ SpKept s t))
    ∧ (let b := s.stackAddr ch (64 * a.val)
       x.closing = true → (∀ u : Win, u ≠ w → (s.win u).closing = false) → (s.ilvOf b).chan = ch → (s.ilvOf b).caddr = 64 * a.val →
       b % 64 = 0 → s.winBase w ≤ b → b + 64 ≤ s.winBase w + 256 * s.winChunks w → b + 64 ≤ s.winCnt w → s.chan ch = {} →
       mget [] s.hbmErr (accKey ch a) = [] → x.taken.any (fun e => e.1 == accKey ch a) = false →
       Gives (.hbmReadClear ch a []) s (fun t =>
         t.winTaken w b 64 = (s.hbmBytes ch a, s.hbmPoisoned ch a) ∧ t.accNow ch a = (zeros 64, false) ∧ others t ∧ SpKept s t))

/-- R380, R385, R387, R388, R79: a contribution of one chunk that is in time is queued as an ACCUMULATE, its weight is on its way to
the count word and is counted as applied, and it is answered OK; one that is not applied is counted and answered with its status. A count
word rises by the weight, saturating. A maximum report raises its record's current maximum and non-finite count. -/
def Obligations.ContributionsAreJudged : Prop :=
  ∀ (s : State) (ch : Chan) (p : Packet), p ∉ s.flights.map (·.pkt) →
    let at_ := (s.ilvOf p.addr).chan
    let ready := p.dest = destChan ch ∧ s.boot.hbmUp = true ∧ s.chanReason ch = none ∧ s.rack.phase = 0
      ∧ (s.chan ch).queue = [] ∧ (s.chan at_).queue = []
    let applied := fun (x : Contrib) (t : State) =>
      (∃ r, (t.chan at_).queue = [r] ∧ r.kind = 3 ∧ [r.pkt.data] = x.elems ∧ r.first = (s.ilvOf p.addr).caddr / 64)
      ∧ t.red.pend = s.red.pend ++ [⟨x.win, s.winCnt x.win + 4 * ((x.addr - s.winBase x.win) / 256), x.n⟩]
      ∧ (t.rd .RED_WIN_APPLIED 0 x.win).toNat = min ((s.rd .RED_WIN_APPLIED 0 x.win).toNat + x.n) (2 ^ 64 - 1) ∧ MemKept s t
    let sent := fun (a : Packet) (t : State) => ∃ f, t.flights = s.flights ++ [f] ∧ f.pkt = a
    (let x := s.raccContrib p
     ready → x.k = 1 →
     (x.vfy = false → x.sender ≠ 1023 → x.win < 1024 → s.contribStatus x = stOK →
       Gives (.raccAccept p) s (fun t => applied x t ∧ sent (raccReply p stOK) t))
     ∧ (s.contribStatus x ≠ stOK → s.contribStatus x ≠ raLATE →
       Gives (.raccAccept p) s (fun t => t.chans = s.chans ∧ t.red = s.red ∧ Counted s t .RED_BAD_CONTRIBS 0 1 ∧ MemKept s t
         ∧ sent (raccReply p (s.contribStatus x)) t)))
    ∧ (let x := s.localContrib p
       ready → p.typ = Packet.RED → s.redCounts p = true → x.k = 1 → p.lenm1 = 255 → x.win < 1024 → s.contribStatus x = stOK →
       s.vfySlot x.win x.addr = none →
       Gives (.localRedAccept p) s (fun t => applied x t ∧ sent (packetReply p Packet.WACK stOK) t))
    ∧ (∀ u, s.red.pend = [u] → (s.ilvOf u.addr).chan = ch → u.addr % 64 ≤ 60 → u.addr % 4 = 0 →
        (s.ilvOf u.addr).caddr % 64 = u.addr % 64 → s.ilvOf (u.addr / 64 * 64) = { s.ilvOf u.addr with caddr := (s.ilvOf u.addr).caddr / 64 * 64 } →
        (s.chan ch).coal = [] → Gives (.countUpdate ch) s (fun t => t.red.pend = []
          ∧ (∀ i, i < 4 → (t.accNow ch ((s.ilvOf u.addr).caddr / 64)).1.getD (u.addr % 64 + i) 0
              = (leBytes 4 (min (s.memNat u.addr 4 + u.n) 0xFFFF_FFFF)).getD i 0)
          ∧ RegsKept s t [] ∧ SpKept s t))
    ∧ (p.addr < 3072 → s.red.proc = none →
        let k := p.addr
        let a := leNat (p.data.take 4)
        let nf := leNat ((p.data.drop 4).take 4)
        let old := s.fget F.SCALE_CUR_AMAX_AMAX k
        Gives (.amaxApply p) s (fun t =>
          t.fget F.SCALE_CUR_AMAX_AMAX k = (if a = 0 then old else amaxCode old a % 2 ^ 32)
          ∧ t.fget F.SCALE_NF_COUNT_COUNT k = min (s.fget F.SCALE_NF_COUNT_COUNT k + nf) (2 ^ 64 - 1)
          ∧ (t.rd .HLTH_NONFINITE).toNat = min ((s.rd .HLTH_NONFINITE).toNat + nf) (2 ^ 64 - 1)
          ∧ sent (packetReply p Packet.WACK stOK) t ∧ MemKept s t
          ∧ RegsKept s t [RegId.SCALE_CUR_AMAX.addr k 0 0, RegId.SCALE_NF_COUNT.addr k 0 0, RegId.HLTH_NONFINITE.addr 0 0 0]))

/-- R399 to R402, R537: a step boundary that may begin counts the step, stamps it, raises STEP_OUT for 1,000 ns and closes the open
windows; processing ends with no STEP barrier held. An edge within the limit of STEP_SYNC is recorded with its error, a second one
in its window is an extra; the next capture window begins P + d after the last. -/
def Obligations.StepBoundaries : Prop :=
  ∀ (s : State) (w : Win),
    (s.red.proc = none → s.stepReady = true → s.flag F.RED_CTRL_SCHED = false → s.winState w = wOPEN →
      Gives .stepBoundaryProcessing s (fun t =>
        (t.rd .RED_STEP_COUNT).toNat = ((s.rd .RED_STEP_COUNT).toNat + 1) % 2 ^ 64
        ∧ (t.rd .RED_STEP_LAST).toNat = s.clk.wt % 2 ^ 64 ∧ t.pins.stepOut = s.clk.wt + 1000 ∧ t.fget F.RED_STATUS_PHASE = 1
        ∧ t.winState w = wCLOSING ∧ (t.win w).closeAt = s.clk.wt ∧ t.red.proc = some (s.clk.wt, 2) ∧ MemKept s t))
    ∧ (∀ b k, s.red.proc = some (b, k) → (∀ u, u < 1024 → s.winState u ≠ wCLOSING) → s.noAmax = true →
        Gives .stepBoundaryProcessing s (fun t => t.red.proc = none ∧ t.fget F.RED_STATUS_PHASE = 0
          ∧ ∀ slot : Slot, (t.tract slot).stepHeld = false))
    ∧ (∀ n b first, s.red.sync = some (n, b, first) → s.syncOn = true → first ≤ s.clk.wt →
        let e : Int := (s.clk.wt : Int) - b
        let l : Int := min (s.stepP / 64) 50000
        (s.red.delta = none → e.natAbs ≤ l.natAbs → (s.rd .RED_STEP_COUNT).toNat ≤ n →
          Gives .stepSyncEdge s (fun t => t.fget F.RED_SYNC_ERR_ERR = ofSigned 32 e ∧ (t.rd .RED_SYNC_LAST).toNat = s.clk.wt % 2 ^ 64
            ∧ t.fget F.RED_STATUS_SYNC = 1 ∧ t.red.delta = some e ∧ t.red.deltas = s.red.deltas ++ [(n, e)] ∧ MemKept s t
            ∧ RegsKept s t [RegId.RED_SYNC_ERR.addr 0 0 0, RegId.RED_SYNC_LAST.addr 0 0 0, RegId.RED_STATUS.addr 0 0 0]))
        ∧ (s.red.delta ≠ none → Gives .stepSyncEdge s (fun t => Counted s t .RED_SYNC_EXTRA 0 1 ∧ t.red = s.red ∧ MemKept s t)))
    ∧ (∀ n b first d, s.red.sync = some (n, b, first) → s.red.delta = some d →
        Gives .syncWindowEnd s (fun t => t.red.delta = none ∧ MemKept s t ∧ RegsKept s t [RegId.CLK_SKIMMED.addr 0 0 0]
          ∧ t.red.sync = some (n + 1, ((b : Int) + s.stepP + d).toNat, b + s.stepP - s.stepP / 2)))
    ∧ (s.pins.stepOut ≠ 0 → Gives .stepOutEnd s (fun t => t.pins.stepOut = 0 ∧ MemKept s t
        ∧ RegsKept s t [RegId.CLK_SKIMMED.addr 0 0 0]))

/-! ## Health and recovery (12) -/

/-- R410, R411, R413, R414: the first finite loss is the average, a later one folds into it and, above the factor once warm, is a
spike; CLEAR zeroes both; non-finite values are counted; at the end of an interval RISK decays and takes the interval's input, and
ABOVE tells whether it is above the threshold. -/
def Obligations.HealthIsJudged : Prop :=
  ∀ (s : State) (x : BitVec 32),
    let m := s.fget F.HLTH_LOSS_AVG_AVG
    let n := s.fget F.HLTH_LOSS_N_N
    let k := s.hlth.doneIv
    (fin32 x.toNat = true → n < 65535 → Gives (.hlthLossWrite x) s (fun t =>
        let m2 := lossFold m x.toNat (bits s.lossCfg 3 0)
        t.fget F.HLTH_LOSS_VALUE = x.toNat ∧ t.fget F.HLTH_LOSS_N_N = n + 1 ∧ MemKept s t
        ∧ t.fget F.HLTH_LOSS_AVG_AVG = (if n = 0 then x.toNat else if fin32 m2 then m2 % 2 ^ 32 else m)
        ∧ (0 < n → bits s.lossCfg 23 16 < n + 1 → lossAbove m x.toNat (bits s.lossCfg 15 8) = true → EvtRoom s →
            Raised s t 0xA014 kMODULE 0 (x.toNat + m * 2 ^ 32) ∧ Counted s t .HLTH_SPIKES 0 1)))
    ∧ Gives .hlthLossClear s (fun t => t.fget F.HLTH_LOSS_N_N = 0 ∧ t.fget F.HLTH_LOSS_AVG_AVG = 0
        ∧ OnlyRegs [RegId.HLTH_LOSS_N.addr 0 0 0, RegId.HLTH_LOSS_AVG.addr 0 0 0] s t)
    ∧ Gives (.hlthNfAddWrite x) s (fun t => Counted s t .HLTH_NONFINITE 0 x.toNat ∧ MemKept s t
        ∧ RegsKept s t [RegId.HLTH_NONFINITE.addr 0 0 0])
    ∧ Gives .hydrometerUpdate s (fun t => t.hlth.doneIv = k + 1 ∧ MemKept s t
        ∧ (let risk := s.fget F.HLTH_STATUS_RISK
           let d := 2 ^ bits (s.hlthCfg k) 10 8
           t.fget F.HLTH_STATUS_RISK = (if s.flag F.HLTH_CTRL_EN then min 255 (risk - (risk + d - 1) / d + s.hydInput k) else 0))
        ∧ (s.flag F.HLTH_CTRL_EN = true →
            t.flag F.HLTH_STATUS_ABOVE = decide (bits (s.hlthCfg k) 7 0 < t.fget F.HLTH_STATUS_RISK)))

/-- R32, R33, R34, R415 to R419: a lapse of the pulse of a core that is up, and a write of HLTH_CORE_FAIL with EXPERT, meet their
criterion; a declaration halts the slots of the segment and begins a change, and of a spare spends it; a substitution spends a
spare, and a re-placement marks the position; each ends the change and leaves MOD_SPARE_GEN two higher. -/
def Obligations.CoresFail : Prop :=
  ∀ (s : State) (pos : Pos) (crit : Nat) (rest : List (Nat × Nat)),
    let seg := segOfPos pos
    let p := posIn pos
    let gen2 := fun (t : State) => t.fget F.MOD_SPARE_GEN_GEN = (s.fget F.MOD_SPARE_GEN_GEN + 2) % 2 ^ 32
    let spent := fun (t : State) => t.fget F.MOD_SPARES_LEFT_COUNT = s.fget F.MOD_SPARES_LEFT_COUNT - 1
    let meets := fun (q c : Nat) (t : State) => t = { s with hlth := { s.hlth with crit := s.hlth.crit ++ [(q, c)] } }
    (s.boot.coresUp = true → s.parkedField (fieldOfPos pos) = false → s.fget F.PWR_STATUS_STATE < 2 →
      Gives (.corePulseLapse pos) s (meets pos 1))
    ∧ (s.flag F.MOD_CTRL_EXPERT = true → s.flag F.MOD_CTRL_LOCK = false →
        (∀ i : Fin 32768, i.val < 19200 → Gives (.hlthCoreFailWrite true i) s (meets i 6))
        ∧ (∀ i : Fin 32768, i.val < 18000 → Gives (.hlthCoreFailWrite false i) s (meets (s.phys i) 6)))
    ∧ (s.hlth.crit = (pos.val, crit) :: rest → s.posFailed pos = false → s.hlth.changes.any (·.pos == pos.val) = false →
        ((s.logical pos).isSome → Gives .coreFailureDeclaration s (fun t => t.hlth.crit = rest
            ∧ (∀ slot, slot ∈ s.slotsOfSeg seg → t.tstate slot = tHALTED)
            ∧ t.hlth.changes = s.hlth.changes ++ [⟨pos, ((s.slotsOfSeg seg).map (2 ^ ·)).sum⟩] ∧ MemKept s t))
        ∧ (s.logical pos = none → Gives .coreFailureDeclaration s (fun t => t.hlth.crit = rest ∧ gen2 t ∧ spent t
            ∧ bit (t.fget F.MOD_SPARE_FAIL_FAILED 0 seg) p = true ∧ t.hlth.changes = s.hlth.changes ∧ MemKept s t)))
    ∧ (∀ ch more, s.hlth.changes = ch :: more → ch.pos = pos →
        (s.spares seg ≠ [] → Gives (.spareSubstitution []) s (fun t => t.hlth.changes = more ∧ gen2 t ∧ spent t
            ∧ Counted s t .HLTH_SUBSTITUTIONS 0 1 ∧ StacksKept s t))
        ∧ (s.spares seg = [] → Gives .rePlacement s (fun t => t.hlth.changes = more ∧ gen2 t
            ∧ bit (t.fget F.MOD_SPARE_FAIL_FAILED 0 seg) p = true ∧ MemKept s t)))

/-! ## Reset, clocks and start-up (13) -/

/-- R436 to R444, R530: each reset input, reset command and the watchdog, while no other reset is in progress, resets its class: the
cause is recorded, READY falls, every slot is FREE, and start-up begins at the class's first phase. A command with another key is
ignored and reported. A tract reset frees its slot and resets its cores; a core reset keeps the instruction store and the scratchpads. -/
def Obligations.ResetsAct : Prop :=
  ∀ (s : State) (key : BitVec 8) (i : Fin 32768), s.flag F.MOD_STATUS_READY = true →
    let cause := fun (cls src : Nat) (t : State) => t.fget F.RST_CAUSE_CLASS = cls ∧ t.fget F.RST_CAUSE_SOURCE = src
    let reset := fun (cls src : Nat) (t : State) => cause cls src t ∧ t.fget F.RST_STATUS_ACTIVE = cls
      ∧ t.flag F.MOD_STATUS_READY = false ∧ t.fget F.RST_BOOT_STAGE = (if cls = 1 then 0 else if cls = 2 then 2 else 4)
      ∧ t.boot.start = t.clk.wt ∧ ∀ slot : Slot, t.tstate slot = tFREE
    let rejects := fun (t : State) => Raised s t 0xA00B kMODULE 0 (1 + 4 * 2 ^ 4) ∧ MemKept s t
    Gives .pwrOkLow s (fun t => reset 1 1 t ∧ t.boot.pwrLow = true)
    ∧ Gives .busbarUvloFall s (fun t => reset 1 1 t ∧ t.boot.uvlo = true)
    ∧ Gives .perstNAssert s (fun t => reset (if s.flag F.RST_CTRL_PERST_CLASS then 3 else 2) 2 t ∧ t.boot.perst = true
        ∧ t.boot.hostUp = false ∧ t.host = {})
    ∧ Gives .modRstNLow s (fun t => reset 2 3 t ∧ t.boot.modRst = true)
    ∧ Gives (.rstCmdWarm .bar0 0xA5) s (reset 2 4) ∧ Gives (.rstCmdCompute .bar0 0xA5) s (reset 3 4)
    ∧ (s.flag F.RST_WDOG_EN = true → 2 ≤ s.fget F.RST_WDOG_CLASS → s.fget F.RST_WDOG_CLASS ≤ 3 →
        Gives .watchdogExpiry s (reset (s.fget F.RST_WDOG_CLASS) 6))
    ∧ (i.val < 16 → Gives (.rstCmdTract .bar0 0xA5 i) s (fun t => cause 4 4 t ∧ t.tstate i = tFREE
        ∧ (s.tstate i ≠ tFREE → ∀ c : Core, c.val ∈ s.tractCores i → t.epState c = epIDLE ∧ ∀ r : RegNo, t.g c r = 0)))
    ∧ (i.val < 18000 → s.slotOf i = none → Gives (.rstCmdCore .bar0 0xA5 false i) s (fun t => cause 5 4 t
        ∧ t.core i = { istore := (s.core i).istore } ∧ t.epState i = epIDLE ∧ t.sp = s.sp ∧ StacksKept s t))
    ∧ (key ≠ 0xA5 → EvtRoom s →
        Gives (.rstCmdWarm .bar0 key) s rejects ∧ Gives (.rstCmdCompute .bar0 key) s rejects
        ∧ Gives (.rstCmdTract .bar0 key i) s rejects ∧ Gives (.rstCmdCore .bar0 key false i) s rejects)

/-- R435, R441, R443, R447, R459: with the last of the two power inputs released WT is 0 and start-up begins; PERST_N and MOD_RST_N
released let go of what they held; a kick restarts the watchdog's count. -/
def Claim.ResetInputsRelease : Prop :=
  ∀ s : State,
    let b := s.boot
    (b.pwrLow = true → Gives .pwrOkRelease s (fun t =>
        t = { s with clk := if b.uvlo then s.clk else {}, boot := { b with pwrLow := false, start := if b.uvlo then b.start else 0 } }))
    ∧ (b.uvlo = true → Gives .busbarUvloRise s (fun t =>
        t = { s with clk := if b.pwrLow then s.clk else {}, boot := { b with uvlo := false, start := if b.pwrLow then b.start else 0 } }))
    ∧ Gives .perstNDeassert s (fun t => t = { s with boot := { b with
        perst := false, hostUp := decide (s.fget F.RST_BOOT_STAGE ≠ 0) && !b.pwrLow && !b.uvlo } })
    ∧ Gives .modRstNHigh s (fun t => t = { s with boot := { b with modRst := false } })
    ∧ Gives .wdogKickWrite s (fun t => t = { s with boot := { b with wdogAt := s.clk.wt } })

/-- R445, R446, R448: a lock counts from its instant to clock-good; a loss of lock ends it, and of a field whose domains are released is
a warm reset; a loss of a clock puts its field on bypass and is reported; a release asked for before clock-good is held and reported,
and one after it is made. -/
def Claim.ClocksGuardDomains : Prop :=
  ∀ (s : State) (d : Fin 6) (f : FieldId),
    let locked := fun (t : State) => bit (t.fget F.CLK_STATUS_LOCKED) f
    let bypassed := fun (t : State) => bit (t.fget F.CLK_BYPASS_BYPASS) f
    let key := d.val * 32 + f.val
    let l := mget 0 s.boot.pll f
    (locked s = false → Gives (.pllLock f) s (fun t => t = { s with boot := { s.boot with pll := mput 0 s.boot.pll f (s.clk.wt + 1) } }))
    ∧ (locked s = true → s.boot.transitUp = false → Gives (.pllLossOfLock f) s (fun t =>
        locked t = false ∧ mget 0 t.boot.pll f = 0 ∧ RegsKept s t [RegId.CLK_STATUS.addr 0 0 0]
        ∧ { t with regs := s.regs, boot := s.boot } = s))
    ∧ (locked s = true → s.boot.transitUp = true → s.flag F.MOD_STATUS_READY = true → Gives (.pllLossOfLock f) s (fun t =>
        locked t = false ∧ mget 0 t.boot.pll f = 0 ∧ t.fget F.RST_CAUSE_CLASS = 2 ∧ t.fget F.RST_CAUSE_SOURCE = 9
        ∧ t.flag F.MOD_STATUS_READY = false))
    ∧ (d.val ≠ 4 → Gives (.clockLoss d f) s (fun t => locked t = false ∧ bypassed t = true ∧ t.flag F.RST_STATUS_BYPASS = true
        ∧ key ∈ t.boot.bypass ∧ MemKept s t ∧ (EvtRoom s → Raised s t 0xA003 kMODULE 0 (d.val + f.val * 2 ^ 4))))
    ∧ (l ≠ 0 → locked s = false → Gives (.clockGood f) s (fun t =>
        locked t = true ∧ bypassed t = false ∧ (0 < s.clk.rate → l - 1 + 40960 ≤ t.clk.wt) ∧ t.boot = s.boot ∧ MemKept s t
        ∧ RegsKept s t [RegId.CLK_STATUS.addr 0 0 0, RegId.CLK_BYPASS.addr 0 0 0, RegId.RST_STATUS.addr 0 0 0,
          RegId.CLK_SKIMMED.addr 0 0 0]))
    ∧ (locked s = false → (∀ r ∈ s.boot.releases, r.1 ≠ key) → Gives (.domainRelease d f) s (fun t =>
        let left := if l = 0 then 65535 else min 65535 ((l - 1 + 40960 - s.clk.wt) / 10)
        t.boot.releases = s.boot.releases ++ [(key, s.clk.wt, true)] ∧ t.flag F.RST_STATUS_RELEASE_HELD = true ∧ MemKept s t
        ∧ (EvtRoom s → Raised s t 0xA002 kMODULE 0 (d.val + f.val * 2 ^ 4 + left * 2 ^ 16))))
    ∧ (locked s = true → key ∈ s.boot.bypass → Gives (.domainRelease d f) s (fun t =>
        key ∉ t.boot.bypass ∧ (∀ r ∈ t.boot.releases, r.1 ≠ key) ∧ MemKept s t
        ∧ RegsKept s t [RegId.RST_STATUS.addr 0 0 0, RegId.CLK_SKIMMED.addr 0 0 0]))

/-- R435, R441, R443, R447, R459: reset inputs let go; R445, R446, R448: clock locks, losses and the release of domains. -/
def Obligations.ResetInputsAndClocks : Prop := Claim.ResetInputsRelease ∧ Claim.ClocksGuardDomains

/-- R451, R452, R453, R458 to R463, R465: the phases of start-up. P0 releases the host port; P1 boots the preferred image that proves,
or the other, or stops; P2 commits NORMAL trims at the first pass and SAFE trims after three failed loads; P3 is SYNC; P5 starts the
ramp and the Eprus; a right signature in time passes a core and anything else fails it; READY is set after P6. -/
def Obligations.StartUpPhases : Prop :=
  ∀ (s : State) (x : PhaseFacts) (pos : Pos) (part : Fin 3) (sig : BitVec 64),
    s.boot.pwrLow = false → s.boot.uvlo = false → s.boot.modRst = false →
    let stage := s.fget F.RST_BOOT_STAGE
    let next := fun (n : Nat) (t : State) => t.fget F.RST_BOOT_STAGE = n
    let d := s.fget F.RST_BOOT_PREFER
    let dead := fun (n : Nat) => if n = 0 then x.deadA else x.deadB
    let fails := fun (code : Nat) (t : State) => t.boot.karFail = s.boot.karFail ++ [(pos.val, 5)]
      ∧ mget 0 t.boot.kar pos = 1 + code ∧ MemKept s t
    (stage = 0 → Gives (.startUpPhaseEnd x) s (fun t => next 1 t ∧ OnlyRegs [RegId.RST_BOOT.addr 0 0 0] { s with boot := t.boot } t
        ∧ t.boot = { s.boot with hostUp := !s.boot.perst }))
    ∧ (stage = 1 → (∃ k, s.proveImage d (dead d) = .ok k) →
        Gives (.startUpPhaseEnd x) s (fun t => next 2 t ∧ t.fget F.RST_BOOT_SLOT = d ∧ MemKept s t))
    ∧ (stage = 1 → (∃ e, s.proveImage d (dead d) = .error e) →
        ((∃ k, s.proveImage (1 - d) (dead (1 - d)) = .ok k) →
          Gives (.startUpPhaseEnd x) s (fun t => next 2 t ∧ t.fget F.RST_BOOT_SLOT = 1 - d ∧ MemKept s t))
        ∧ ((∃ e, s.proveImage (1 - d) (dead (1 - d)) = .error e) →
          Gives (.startUpPhaseEnd x) s (fun t => next 9 t ∧ t.boot.sram = s.boot.sram ∧ MemKept s t)))
    ∧ (stage = 2 → s.fget F.RST_TRIM_FAILS = 0 →
        (x.trims = [true] → Gives (.startUpPhaseEnd x) s (fun t => next 3 t ∧ t.fget F.RST_TRIM_SET = 0
          ∧ t.fget F.MOD_STATUS_RESTRICTED = 0 ∧ t.fget F.RST_TRIM_FAILS = 0 ∧ MemKept s t))
        ∧ (x.trims = [false, false, false, true] → Gives (.startUpPhaseEnd x) s (fun t => next 3 t ∧ t.fget F.RST_TRIM_SET = 1
          ∧ t.fget F.MOD_STATUS_RESTRICTED = 1 ∧ t.fget F.RST_TRIM_FAILS = 3 ∧ t.fget F.CLK_SKIM_FLOOR = 8 ∧ MemKept s t))
        ∧ (x.trims = [false, false, false, false] → Gives (.startUpPhaseEnd x) s (fun t => next 9 t ∧ MemKept s t)))
    ∧ (stage = 3 → s.fget F.CLK_STATUS_LOCKED = 2 ^ 25 - 1 → Gives (.startUpPhaseEnd x) s (fun t =>
        next 4 t ∧ t.clk.tb = 0 ∧ t.clk.run = true ∧ t.boot.transitUp = true ∧ t.boot.hbmUp = true ∧ MemKept s t))
    ∧ (stage = 5 → x.undelivered = [] → Gives (.startUpPhaseEnd x) s (fun t =>
        next 6 t ∧ t.fget F.PWR_STATUS_RAMP = 8 ∧ t.boot.coresUp = true ∧ ∀ c : Core, t.epState c = epRUN))
    ∧ (stage = 6 → x.bistBad = [] → (∀ p : Pos, s.karOpen p = false) → s.boot.karFail = [] →
        Gives (.startUpPhaseEnd x) s (fun t => next 7 t ∧ (∀ a, mget 0 t.sp a = 0) ∧ ∀ c : Core, t.epState c = epIDLE))
    ∧ (s.karOpen pos = true → s.clk.wt ≤ s.boot.karStart + s.karLimit →
        (sig.toNat = s.karExpect → Gives (.karReport pos part sig) s (fun t =>
          t = { s with boot := { s.boot with kar := mput 0 s.boot.kar pos 1 } }))
        ∧ (sig.toNat ≠ s.karExpect → Gives (.karReport pos part sig) s (fails (part.val + 1))))
    ∧ (s.karOpen pos = true → Gives (.karDeadline pos) s (fails 5))
    ∧ (stage = 7 → Gives .readySet s (fun t => t.flag F.MOD_STATUS_READY = true ∧ next 8 t ∧ t.fget F.RST_STATUS_ACTIVE = 0
        ∧ t.pins.frozen = none ∧ t.boot.wdogAt = t.clk.wt ∧ MemKept s t))
    ∧ (s.boot.mapDue = true → s.flag F.MOD_STATUS_READY = true → Gives .startUpMapCommit s (fun t => t.boot.mapDue = false
        ∧ t.fget F.MOD_SPARE_GEN_GEN = (s.fget F.MOD_SPARE_GEN_GEN + 1) % 2 ^ 32 ∧ RegsKept s t [RegId.MOD_SPARE_GEN.addr 0 0 0]
        ∧ MemKept s t))
    ∧ Gives .trimRetryWrite s (fun t => t.fget F.RST_TRIM_FAILS = 0 ∧ OnlyRegs [RegId.RST_TRIM.addr 0 0 0] s t)

/-! ## Power and temperature (14) -/

/-- R469 to R475, R481: the ladder. A target below the state in force is waited for until its rung may be entered; Boil wakes the
module at once, or once the rung being entered is reached; a rung is entered and reached one at a time, Cellar with every port and
stack stopped and the ACLK edges ended; an exit ends in Boil, is counted as a wake and begins the ramp, and retained cores come back
IDLE with what they held. -/
def Obligations.PowerLadder : Prop :=
  ∀ (s : State) (target : Fin 4),
    let st := s.pState
    let status := RegId.PWR_STATUS.addr 0 0 0
    let moving := fun (exit_ : Bool) (t : State) => t.fget F.PWR_STATUS_MOVING = 1 ∧ t.pwr.move = some (exit_, t.clk.wt)
    let asked := fun (t : State) => (t.clk.pendLevel.getLast?.map (fun p => p.1)).getD t.level = t.levelWant
    (let sets := fun (t : State) => t.pTarget = target ∧ t.pState = st ∧ RegsKept s t [RegId.PWR_CTRL.addr 0 0 0, status] ∧ MemKept s t
     (s.pwr.move = none → st ≠ 0 → target.val = 0 → Gives (.pwrTargetWrite target) s (fun t => sets t ∧ moving true t))
     ∧ (∀ b, s.pwr.move = some (false, b) → target.val = 0 → Gives (.pwrTargetWrite target) s (fun t =>
         sets t ∧ t.fget F.PWR_STATUS_WAKE_PENDING = 1 ∧ t.pwr.move = s.pwr.move))
     ∧ (s.pwr.move = none → target.val ≠ 0 → Gives (.pwrTargetWrite target) s (fun t => sets t ∧ t.pwr.move = none
         ∧ t.fget F.PWR_STATUS_WAITING = (if st < target.val ∧ s.rungReady (st + 1) = false then 1 else 0))))
    ∧ (s.pwr.move = none → st < s.pTarget → s.rungReady (st + 1) = false → Gives .powerRungEnter s (fun t =>
        t.fget F.PWR_STATUS_WAITING = 1 ∧ OnlyRegs [status] s t))
    ∧ (s.pwr.move = none → st < s.pTarget → s.rungReady (st + 1) = true → Gives .powerRungEnter s (fun t =>
        moving false t ∧ t.fget F.PWR_STATUS_WAITING = 0 ∧ MemKept s t ∧ (st ≠ pSTEEP → RegsKept s t [status])
        ∧ (st = pSTEEP → t.flag F.PWR_STATUS_CORES_READY = false
            ∧ (∀ x : Stack, s.hState x = hENABLED → t.hState x = hSTOPPING)
            ∧ ∀ p : Port, s.bState p = bTRAINING ∨ s.bState p = bUP ∨ s.bState p = bDEGRADED → t.bState p = bSTOPPING)))
    ∧ (∀ b, s.pwr.move = some (false, b) → st < pSTEEP → Gives .powerRungReached s (fun t =>
        t.pState = st + 1 ∧ RegsKept s t [status] ∧ MemKept s t ∧ t.fget F.PWR_STATUS_WAKE_PENDING = 0
        ∧ (if s.flag F.PWR_STATUS_WAKE_PENDING then moving true t else t.fget F.PWR_STATUS_MOVING = 0 ∧ t.pwr.move = none)))
    ∧ (∀ b, s.pwr.move = some (false, b) → st = pSTEEP → (∀ x : Stack, s.hState x ≠ hSTOPPING) → (∀ p : Port, s.bState p ≠ bSTOPPING) →
        Gives .powerRungReached s (fun t => t.pState = pCELLAR ∧ t.clk.run = false ∧ t.flights = [] ∧ (∀ c : Core, t.core c = {})
          ∧ StacksKept s t))
    ∧ (∀ b, s.pwr.move = some (true, b) → st ≠ pBOIL → Gives .powerExitComplete s (fun t =>
        t.pState = pBOIL ∧ t.fget F.PWR_STATUS_MOVING = 0 ∧ t.pwr.move = none ∧ Counted s t .PWR_WAKES 0 1
        ∧ t.fget F.PWR_STATUS_RAMP = 8 ∧ (0 < s.clk.rate → b + exitNs st ≤ t.clk.wt) ∧ (st = pCELLAR → t.clk.run = true)
        ∧ (st = pSTEEP → s.pwr.wakeSlots = [] → (∀ u : Slot, s.tstate u ≠ tSUSPENDED ∧ s.tstate u ≠ tLOADED) →
            ∀ c : Core, s.parked c = false → t.epState c = epIDLE ∧ t.pc c = s.pc c ∧ (∀ r : RegNo, t.g c r = s.g c r)
              ∧ ∀ n : Ctr, t.fget F.EP_ARRIVE_COUNT c n = s.fget F.EP_ARRIVE_COUNT c n)))
    ∧ (s.flag F.PWR_CTRL_AUTO_SIMMER = true → s.pTarget = 0 → st = 0 → s.pwr.move = none → s.anyRunning = false →
        Gives .autoSimmerIdle s (fun t => moving false t ∧ t.pwr.auto = true
          ∧ (0 < s.clk.rate → s.pwr.idleAt + 100000 ≤ t.clk.wt) ∧ RegsKept s t [status, RegId.CLK_SKIMMED.addr 0 0 0] ∧ MemKept s t))
    ∧ (s.flag F.PWR_STATUS_CORES_READY = false → st ≠ pCELLAR → s.pwr.move = none → (mget [] s.boot.sram 2).length ≤ 2 ^ 20 →
        Gives .coresReadySet s (fun t => t.flag F.PWR_STATUS_CORES_READY = true ∧ RegsKept s t [status] ∧ StacksKept s t
          ∧ ∀ c : Core, t.spBytes c 0 (mget [] s.boot.sram 2).length = mget [] s.boot.sram 2))
    ∧ (∀ b, s.pwr.rampAt = some b → Gives .rampStep s (fun t =>
        let l := s.fget F.PWR_STATUS_RAMP
        t.fget F.PWR_STATUS_RAMP = l - 1 ∧ t.pwr.rampAt = (if l ≤ 1 then none else some b) ∧ asked t
        ∧ (0 < s.clk.rate → b + (9 - l) * 5000 ≤ t.clk.wt) ∧ RegsKept s t [status, RegId.CLK_SKIMMED.addr 0 0 0] ∧ MemKept s t))
    ∧ (∀ p rest, s.clk.pendLevel = p :: rest → Gives .skimLevelChange s (fun t =>
        t.level = p.1 % 16 ∧ t.clk.pendLevel = rest ∧ upTo 16 (p.2 + 360) ≤ t.clk.cyc ∧ MemKept s t
        ∧ RegsKept s t [RegId.CLK_SKIM.addr 0 0 0, RegId.CLK_SKIMMED.addr 0 0 0]))

/-- R478, R482 to R485, R487, R489: a power sample moves the requested level as the governor says; a field's reading is shown with its
maximum, warns at 10 °C below the park threshold, parks the field at it, and trips the module at 115 °C; a field parks when a cause is
set, is PARKED once its slots have come to rest, and unparks when its last cause is cleared. -/
def Obligations.PowerAndHeatAreGoverned : Prop :=
  ∀ (s : State) (w mv : BitVec 32) (f : FieldId) (x : BitVec 12) (vcore watts : BitVec 16) (v : Bool),
    let st := s.fget F.FLD_STATUS_STATE f
    (let g := governor (s.fget F.CLK_SKIM_REQ) s.pwr.below w.toNat (s.fget F.PWR_PENV_PENV * 100) (s.fget F.PWR_GOV_HYST * 100)
       (s.fget F.PWR_GOV_DOWN_N)
     Gives (.powerSample w mv) s (fun t => t.fget F.PWR_INPUT_W = w.toNat ∧ t.fget F.PWR_VIN_MV = mv.toNat
       ∧ t.fget F.CLK_SKIM_REQ = g.1 ∧ t.pwr.below = g.2 ∧ MemKept s t
       ∧ (w.toNat ≤ s.fget F.PWR_PENV_PENV * 100 → t.flag F.PWR_STATUS_CAP = false)
       ∧ (0 < s.clk.rate → (s.clk.wt / 10000 + 1) * 10000 ≤ t.clk.wt)))
    ∧ (x.toInt < 460 → Gives (.fieldTempSample f x vcore watts) s (fun t =>
        t.fget F.FLD_TEMP_TEMP f = x.toNat ∧ t.fget F.FLD_VCORE_VALUE f = vcore.toNat ∧ t.fget F.FLD_POWER_VALUE f = watts.toNat
        ∧ t.fget F.FLD_TEMP_MAX_TEMP f = (if toSigned 12 (s.fget F.FLD_TEMP_MAX_TEMP f) < x.toInt then x.toNat
            else s.fget F.FLD_TEMP_MAX_TEMP f)
        ∧ t.flag F.FLD_STATUS_WARN f = (if s.flag F.FLD_STATUS_WARN f then decide (s.parkAt - 48 < x.toInt)
            else decide (s.parkAt - 40 ≤ x.toInt))
        ∧ (s.parkAt ≤ x.toInt → t.flag F.FLD_STATUS_HEAT f = true ∧ (st = 0 → t.fget F.FLD_STATUS_STATE f = 1))
        ∧ (st = 1 → s.parkCause f ≠ t.parkCause f → t.flag F.FLD_STATUS_UNPARK_PENDING f = !t.parkCause f) ∧ MemKept s t))
    ∧ (460 ≤ x.toInt → s.flag F.MOD_STATUS_READY = true → Gives (.fieldTempSample f x vcore watts) s (fun t =>
        t.fget F.RST_CAUSE_CLASS = 3 ∧ t.fget F.RST_CAUSE_SOURCE = 7 ∧ t.pins.trip = true ∧ t.boot.cool = true
        ∧ t.flag F.MOD_STATUS_READY = false))
    ∧ (let now := v || s.flag F.FLD_STATUS_HEAT f
       Gives (.fldParkWrite f v) s (fun t => t.flag F.FLD_CTRL_PARK f = v ∧ MemKept s t
         ∧ t.fget F.FLD_STATUS_STATE f = (if st = 0 ∧ now = true then 1 else if st = 2 ∧ now = false then 3 else st)
         ∧ (st = 1 → s.parkCause f ≠ now → t.flag F.FLD_STATUS_UNPARK_PENDING f = !now)))
    ∧ (st = 1 → (∀ u ∈ s.fieldSlots f, s.tstate u ≠ tRUNNING ∧ s.tstate u ≠ tSTOPPING) → Gives (.fieldParkComplete f) s (fun t =>
        t.fget F.FLD_STATUS_STATE f = (if s.flag F.FLD_STATUS_UNPARK_PENDING f then 3 else 2) ∧ Counted s t .FLD_PARKS f 1
        ∧ MemKept s t ∧ (EvtRoom s → Raised s t 0x9002 kFIELD f (s.fget F.FLD_CTRL_PARK f + s.fget F.FLD_STATUS_HEAT f * 2
            + mget 0 s.pwr.parkTemp f * 2 ^ 16))))
    ∧ (st = 3 → Gives (.fieldUnparkComplete f) s (fun t =>
        t.fget F.FLD_STATUS_STATE f = (if s.parkCause f then 1 else 0) ∧ t.fget F.PWR_STATUS_RAMP = 8 ∧ MemKept s t
        ∧ (EvtRoom s → Raised s t 0x9003 kFIELD f (s.clk.wt - mget 0 s.pwr.parkedAt f))))
    ∧ Gives (.fldMaxClrWrite f) s (fun t => t.fget F.FLD_TEMP_MAX_TEMP f = s.fget F.FLD_TEMP_TEMP f
        ∧ OnlyRegs [RegId.FLD_TEMP_MAX.addr f 0 0] s t)

/-! ## The host interface (15) -/

/-- R464, R492, R494 to R498: a BAR2 access of one granule becomes the packet for the stack that holds it, and is refused while the
windows are closed; a DMA packet at the host port goes out translated and is answered, or refused; a completion answers the packet
that asked, and one that fails or never comes is counted and answers REFUSED; configuration writes set what they name. -/
def Obligations.HostAccesses : Prop :=
  ∀ (s : State) (tag : Fin 16384) (off : BitVec 41) (n : Fin 4097) (data : List Byte) (poison v m : Bool) (p : Packet),
    s.hostUp = true → s.host.reqs = [] → p ∉ s.flights.map (·.pkt) →
    let a := s.bar2Addr off.toNat
    let fits := fun (k : Nat) => 0 < k ∧ a % s.stackCut + k ≤ s.stackCut ∧ s.inStacks a k = true
    let sent := fun (q : Packet) (t : State) => ∃ f, t.flights = s.flights ++ [f] ∧ f.pkt = q
    let req := fun (tag n : Nat) (write : Bool) (t : State) => t.host.reqs =
      [{ id := s.host.nextId, tag := tag, bar4 := false, write := write, n := n, wait := [], left := 1 }] ∧ RegsKept s t [] ∧ MemKept s t
    let done := fun (status : Nat) (t : State) => t = { s with host := { s.host with done := s.host.done ++ [⟨tag, status, [], false⟩] } }
    let o := p.addr - hostWindow
    (s.host.d3hot = false → s.windowsOpen = true →
      (fits n → Gives (.bar2Read tag off n) s (fun t => req tag n false t
        ∧ sent { s.stackPacket Packet.RD a n [] false with src := destHost, rid := 0, op := 8 * s.host.nextId } t))
      ∧ (fits data.length → Gives (.bar2Write off data (List.replicate data.length true) poison) s (fun t =>
          req 0 data.length true t
          ∧ sent { s.stackPacket Packet.WR a data.length data poison with src := destHost, rid := 0, op := 8 * s.host.nextId } t)))
    ∧ (0 < n.val → s.host.d3hot = false → s.windowsOpen = false → Gives (.bar2Read tag off n) s (done 4))
    ∧ (0 < n.val → s.host.d3hot = true → Gives (.bar2Read tag off n) s (done 1))
    ∧ (∀ x, s.xlat o (p.lenm1 + 1) = some (x, false) → p.wop = 0 → Gives (.hostDmaWrite p) s (fun t =>
        t.host = { s.host with wrote := s.host.wrote ++ [⟨x, p.data, p.poison⟩] } ∧ sent (packetReply p Packet.WACK stOK) t
        ∧ RegsKept s t [] ∧ MemKept s t))
    ∧ (∀ x, s.xlat o (p.lenm1 + 1) = some (x, true) → Gives (.hostDmaWrite p) s (fun t =>
        t.host = s.host ∧ sent (packetReply p Packet.WACK stREFUSED) t ∧ MemKept s t))
    ∧ (s.xlat o (p.lenm1 + 1) = none →
        Gives (.hostDmaWrite p) s (fun t => t.host.wrote = s.host.wrote ∧ sent (packetReply p Packet.WACK stADDRESS) t ∧ MemKept s t)
        ∧ Gives (.hostDmaRead p) s (fun t => t.host.dma = s.host.dma ∧ MemKept s t
          ∧ sent (packetReply p Packet.RDR stADDRESS (zeros (p.lenm1 + 1))) t))
    ∧ (∀ x ro, s.xlat o (p.lenm1 + 1) = some (x, ro) → Gives (.hostDmaRead p) s (fun t =>
        t = { s with host := { s.host with nextDma := s.host.nextDma + 1, dma := s.host.dma ++
          [{ id := s.host.nextDma, pkt := some p, off := o, addr := x, n := p.lenm1 + 1, issued := s.clk.wt }] } }))
    ∧ (∀ r : DmaReq, s.host.dma = [r] → r.pkt = some p → r.got = [] → r.poison = false →
        let failed := fun (t : State) => t.host.dma = [] ∧ Counted s t .HOST_DMA_ERRORS 0 1 ∧ MemKept s t
          ∧ sent (packetReply p Packet.RDR stREFUSED (zeros r.n) true) t
        (data.length = r.n → Gives (.hostCompletion r.id 0 data false) s (fun t => t.host.dma = [] ∧ RegsKept s t [] ∧ MemKept s t
          ∧ sent (packetReply p Packet.RDR stOK data) t))
        ∧ Gives (.hostCompletion r.id 1 data poison) s failed ∧ Gives (.hostCompletion r.id 2 data poison) s failed
        ∧ Gives .hostCompletionTimeout s (fun t => failed t ∧ (0 < s.clk.rate → r.issued + s.host.timeout ≤ t.clk.wt)))
    ∧ (∀ k : Nat, 30 ≤ k → k ≤ 41 → Gives (.configurationWrite (.bar2 k)) s (fun t =>
        t = { s with host := { s.host with bar2Log := k } }))
    ∧ Gives (.configurationWrite (.power v)) s (fun t => t = { s with host := { s.host with d3hot := v } })
    ∧ (0 < n.val → Gives (.configurationWrite (.timeout n)) s (fun t => t = { s with host := { s.host with timeout := n } }))
    ∧ (s.host.msixPend = [] → Gives (.configurationWrite (.msix v m)) s (fun t =>
        t = { s with host := { s.host with msixOn := v, msixFn := m } }))

/-- R506 to R511: a GO beyond the last one asks for the batch's header; a FULL header asks for its payload and another waits; the
header is read again 1 us later, and a wait that expires writes a copy with STATUS 1; a complete fetch advances its counter; a release
zeroes the header's first word and moves the mark. -/
def Obligations.IntakeFetches : Prop :=
  ∀ (s : State) (r : Ring) (k : BitVec 32),
    let base := s.ringEntry r k.toNat
    let read := fun (part off a n : Nat) (t : State) => t.host.nextDma = s.host.nextDma + 1 ∧ t.host.dma = s.host.dma ++
      [{ id := s.host.nextDma, pkt := none, ring := r, k := k.toNat, part := part, off := off, addr := a, n := n, issued := t.clk.wt }]
    (s.hasRing r = true → after32 k.toNat (s.fget F.HOST_IN_LAST_K 0 r) = true → (∀ f ∈ s.host.fetches, f.ring ≠ r) →
      (∀ a ro, s.xlat base 64 = some (a, ro) → Gives (.intakeGo r k) s (fun t =>
        t.fget F.HOST_IN_LAST_K 0 r = k.toNat ∧ read 0 base a 64 t ∧ RegsKept s t [RegId.HOST_IN_LAST.addr 0 r 0] ∧ MemKept s t
        ∧ t.host.fetches = s.host.fetches ++ [{ ring := r, k := k.toNat, go := s.clk.wt, stage := 0, readAt := s.clk.wt }])))
    ∧ (s.hasRing r = true → after32 k.toNat (s.fget F.HOST_IN_LAST_K 0 r) = false → Gives (.intakeGo r k) s (fun t => t = s))
    ∧ (∀ f : Fetch, s.host.fetches = [f] → f.ring = r → f.k = k.toNat →
        let len := leNat ((f.hdr.drop 8).take 4)
        let full := leNat (f.hdr.take 4) = 1 ∧ leNat ((f.hdr.drop 4).take 4) = f.k
        let seen := fun (f' : Fetch) (t : State) => t.host.fetches = [f'] ∧ MemKept s t
        (f.stage = 5 → f.bad = false →
          (full → len + 64 ≤ s.ringEsize r → 0 < len → (base + 64) % 4096 + len ≤ 4096 → ∀ a ro, s.xlat (base + 64) len = some (a, ro) →
            Gives (.intakeHeaderArrive r) s (fun t => seen { f with stage := 2, parts := 1 } t ∧ read 0 (base + 64) a len t
              ∧ RegsKept s t []))
          ∧ (¬ full → Gives (.intakeHeaderArrive r) s (fun t => seen { f with stage := 1 } t ∧ RegsKept s t [] ∧ t.host.dma = s.host.dma)))
        ∧ (f.stage = 1 → f.readAt + 1000 ≤ s.fetchLimit f → ∀ a ro, s.xlat base 64 = some (a, ro) →
            Gives (.intakeHeaderRetry r) s (fun t => seen { f with stage := 0, readAt := t.clk.wt } t ∧ read 0 base a 64 t
              ∧ (0 < s.clk.rate → f.readAt + 1000 ≤ t.clk.wt) ∧ RegsKept s t [RegId.CLK_SKIMMED.addr 0 0 0]))
        ∧ (let dst := s.ringNat r 0x10 8 + f.k % s.ringNat r 0x18 4 * s.ringEsize r
           f.stage = 1 → f.hdr.length = 64 → f.poison = [] → s.stackCut = 256 → dst % 64 = 0 → (∀ d mid, s.destOf dst 64 0 = some (d, mid) →
             Gives (.intakeWaitExpire r) s (fun t => seen { f with stage := 3, status := 1, left := 1 } t
               ∧ (0 < s.clk.rate → s.fetchLimit f ≤ t.clk.wt) ∧ RegsKept s t [RegId.CLK_SKIMMED.addr 0 0 0]
               ∧ ∃ x, t.flights = s.flights ++ [x] ∧ x.pkt.typ = Packet.WR ∧ x.pkt.dest = d ∧ x.pkt.mid = mid
                 ∧ x.pkt.addr = gLocal dst ∧ x.pkt.data = headerCopy f.hdr f.k 0 1)))
        ∧ (let note := s.ringNat r 0x20 4
           f.stage = 3 → f.left = 0 → Gives (.intakeFetchComplete r) s (fun t => t.host.fetches = [] ∧ MemKept s t
             ∧ t.host.held = s.host.held ++ [(r.val * 2 ^ 32 + f.k, f.status == 0)]
             ∧ t.fget F.EP_ARRIVE_COUNT (bits note 14 0) (bits note 21 16)
                 = (s.fget F.EP_ARRIVE_COUNT (bits note 14 0) (bits note 21 16) + 1) % 2 ^ 32
             ∧ (f.status ≠ 0 → EvtRoom s → Raised s t 0xB011 kMODULE 0 (r.val + b2n (f.status == 2) * 2 ^ 4 + f.k * 2 ^ 32)))))
    ∧ (∀ (a : Nat) (ok : Bool), s.hasRing r = true → after32 k.toNat (s.fget F.HOST_IN_MARK_K 0 r) = true →
        after32 k.toNat (s.fget F.HOST_IN_LAST_K 0 r) = false → s.host.held = [(r.val * 2 ^ 32 + k.toNat, ok)] →
        s.xlat base 4 = some (a, false) → Gives (.intakeRelease r k) s (fun t => t.host.held = [] ∧ t.fget F.HOST_IN_MARK_K 0 r = k.toNat
          ∧ t.host.wrote = s.host.wrote ++ [⟨a, zeros 4, false⟩] ∧ Counted s t .HOST_IN_DROPPED 0 (if ok then 0 else 1) ∧ MemKept s t))

/-- R500 to R504: OWNER = 1 hands an entry over; a poll takes the commands of the entries handed over; a LOAD that passes its checks
fills the slots of the shift-0 tracts and keeps the placement table, and one that fails says why; START, STOP and UNLOAD act on the
job's slots; a command that completes sets STATE, counts SEQ and hands the entry back. -/
def Obligations.JobsRun : Prop :=
  ∀ (s : State) (j : JobId) (u : Slot) (k : Nat) (table : Option (List Byte)),
    let jobs := s.host.jobs
    let acted := fun (cmd reason : Nat) (t : State) => t.host.jobs.cmds = [{ j := j, cmd := cmd, acted := true, reason := reason }]
    let waits := fun (cmd : Nat) => jobs.cmds = [{ j := j, cmd := cmd }]
    let state := s.jobState j
    let mine := jobs.slots = [(u.val, k + 1)]
    (s.hostReach .HOST = true → s.jobOwner j ≠ 1 → Gives (.jobOwnerWrite j) s (fun t => t.jobNat j 0 4 = 1
      ∧ (∀ a, ¬ (16384 * j.val ≤ a ∧ a < 16384 * j.val + 4) → mget 0 t.host.jobs.bytes a = mget 0 jobs.bytes a)
      ∧ { t with host := { t.host with jobs := { t.host.jobs with bytes := jobs.bytes } } } = s))
    ∧ (s.flag F.HOST_CTRL_POLL_EN = true → s.flag F.MOD_STATUS_READY = true → s.slotsIdle = true → jobs.cmds = [] →
        Gives .jobTablePoll s (fun t => (0 < s.clk.rate → jobs.pollAt + 10000 ≤ t.clk.wt) ∧ t.host.jobs.pollAt = t.clk.wt
          ∧ t.host.jobs.cmds = ((List.range 4).filter fun i => s.jobOwner i == 1).map
              (fun i => { j := i, cmd := bits (s.jobNat i 4 4) 3 0 })
          ∧ RegsKept s t [RegId.CLK_SKIMMED.addr 0 0 0] ∧ MemKept s t))
    ∧ (waits 1 → state ≠ 0 → state ≠ 4 → Gives (.jobLoad j table) s (fun t => acted 1 9 t ∧ RegsKept s t [] ∧ MemKept s t))
    ∧ (waits 1 → state = 0 → (∀ i : JobId, i ≠ j → s.jobState i = 0) →
        let zs := (s.jobOfShift j 0).zip s.freeSlots
        let placed := ({ s with host := { s.host with jobs := { jobs with slots := [] } } } : State).jobPlace j zs
        (s.jobForm j = false → Gives (.jobLoad j table) s (fun t => acted 1 2 t ∧ RegsKept s t [] ∧ MemKept s t))
        ∧ (s.jobForm j = true → s.jobShiftsOk j = true → (s.jobOfShift j 0).length ≤ s.freeSlots.length → placed.2 = none →
            (∀ i, i < s.jobRings j → placed.1.jobRingOk j i = true) → ∀ d, placed.1.jobPlacement j table = some d →
            Gives (.jobLoad j table) s (fun t => acted 1 0 t ∧ t.host.jobs.placed = d ∧ t.host.jobs.shift = 0 ∧ t.host.jobs.steps = 0
              ∧ t.host.fetches = [] ∧ (∀ i : Ring, t.fget F.HOST_IN_LAST_K 0 i = 0xFFFF_FFFF) ∧ MemKept s t
              ∧ ∀ z ∈ zs, t.tstate z.2 = tLOADED ∧ (t.rd .TRACT_ORIGIN z.2).toNat = s.jobTract j z.1 0 4
                ∧ (t.rd .TRACT_SIZE z.2).toNat = s.jobTract j z.1 4 4)))
    ∧ (waits 2 → state = 1 → mine → s.tstate u = tLOADED → s.fieldsActive u = true → (s.tract u).rel = none → s.pState = 0 →
        s.pwr.move = none → Gives (.jobStart j) s (fun t => acted 2 0 t ∧ t.flag F.TRACT_CTRL_ENABLE u = true
          ∧ (t.tract u).filling = true ∧ RegsKept s t [RegId.TRACT_CTRL.addr u 0 0] ∧ MemKept s t))
    ∧ (waits 3 → state = 2 → mine → s.tstate u = tRUNNING → Gives (.jobStop j) s (fun t => acted 3 0 t
        ∧ t.flag F.TRACT_CTRL_ENABLE u = false ∧ t.tstate u = tSTOPPING ∧ MemKept s t))
    ∧ (waits 4 → (state = 1 ∨ state = 3) → mine → (s.tstate u = tLOADED ∨ s.tstate u = tSTOPPED) → Gives (.jobUnload j) s (fun t =>
        acted 4 0 t ∧ t.tstate u = tFREE ∧ t.host.jobs.slots = [] ∧ t.host.jobs.placed = [] ∧ t.host.fetches = [] ∧ SpKept s t))
    ∧ (∀ cmd, 1 ≤ cmd → cmd ≤ 4 → jobs.cmds = [{ j := j, cmd := cmd, acted := true }] → (cmd = 3 → s.jobStill = true) →
        Gives (.jobCommandComplete j) s (fun t => t.jobState j = (if cmd = 4 then 0 else cmd) ∧ t.jobNat j 0 4 = 0
          ∧ t.jobNat j 0xC 4 = 0 ∧ t.jobNat j 0x10 4 = (s.jobNat j 0x10 4 + 1) % 2 ^ 32 ∧ t.host.jobs.cmds = []
          ∧ RegsKept s t [RegId.HOST_STATUS.addr 0 0 0] ∧ MemKept s t))

/-! ## Management, security, log and monitors (15, 16) -/

/-- R512 to R516, R519: what management answers over I3C, MCTP, PLDM and SPDM. The codes of a refused endpoint id and of a sensor that
there is not are the model's choice (log entry 17). -/
def Obligations.ManagementAnswers : Prop :=
  ∀ (s : State) (v8 nonce8 : BitVec 8) (v16 : BitVec 16) (off : BitVec 27) (v : BitVec 32) (d : Fin 2) (image nonce : List Byte) (b : Bool),
    let m := s.mgmt
    let tells := fun (bytes : List Byte) (t : State) => t = { s with mgmt := { m with answer := bytes } }
    let sensors := fun (i : Nat) => if i ≤ 25 then s.fget F.FLD_TEMP_TEMP (i - 1) else if i ≤ 49 then s.fget F.HBMC_TEMP_TEMP (i - 26)
      else if i = 50 then s.fget F.PWR_INPUT_W else if i = 51 then s.fget F.PWR_VIN_MV else s.fget F.HLTH_STATUS_RISK
    let a := off.toNat
    let gen := s.fget F.SEC_ID_GEN_GEN
    (∀ x : BitVec 7, Gives (.i3cAddressAssign x) s (fun t => t = { s with mgmt := { m with i3c := x.toNat } }))
    ∧ (v8 ≠ 0 → v8 ≠ 0xFF → Gives (.mctpSetEndpointId b v8) s (fun t => t = { s with mgmt := { m with
        eidPcie := if b then v8.toNat else m.eidPcie, eidI3c := if b then m.eidI3c else v8.toNat, answer := [ccOK] } }))
    ∧ (v8 = 0 ∨ v8 = 0xFF → Gives (.mctpSetEndpointId b v8) s (tells [ccMALFORMED]))
    ∧ Gives (.pldmBaseCommand v8) s (fun t => (∃ x : List Byte, x.length = 8 ∧ t.mgmt = { m with answer := ccOK :: x })
        ∧ RegsKept s t [] ∧ MemKept s t)
    ∧ (1 ≤ v16.toNat → v16.toNat ≤ 52 → Gives (.pldmGetSensorReading v16) s (tells (ccOK :: leBytes 4 (sensors v16.toNat))))
    ∧ (v16.toNat = 100 → Gives (.pldmGetSensorReading v16) s (tells (ccOK :: leBytes 4 (s.fget F.PWR_STATUS_STATE))))
    ∧ (v16.toNat = 101 → Gives (.pldmGetSensorReading v16) s (tells (ccOK :: leBytes 4 (s.fget F.MOD_STATUS_READY))))
    ∧ (v16.toNat = 0 ∨ (52 < v16.toNat ∧ v16.toNat < 100) ∨ 101 < v16.toNat → Gives (.pldmGetSensorReading v16) s (tells [0x80]))
    ∧ (let s1 : State := { s with boot := { s.boot with flash := mputs 0xFF s.boot.flash (d.val * 2 ^ 26) (image.take (2 ^ 26)) } }
       (s.updatable d = false → Gives (.pldmFirmwareUpdate d image b) s (tells [ccREFUSED]))
       ∧ (s.updatable d = true → (∃ k, s1.proveImage d false = .ok k) → Gives (.pldmFirmwareUpdate d image false) s (fun t =>
           t.boot = s1.boot ∧ d.val ∈ t.mgmt.proven ∧ t.mgmt.answer = [ccOK] ∧ MemKept s t
           ∧ (EvtRoom s → Raised s t 0xB006 kMODULE 0 (d.val + s1.flashNat d 0x10 4 * 2 ^ 32))))
       ∧ (s.updatable d = true → (∃ e, s1.proveImage d false = .error e) → Gives (.pldmFirmwareUpdate d image false) s (fun t =>
           t.boot = s1.boot ∧ d.val ∉ t.mgmt.proven ∧ t.mgmt.answer = [ccREFUSED] ∧ MemKept s t))
       ∧ (s.updatable d = true → Gives (.pldmFirmwareUpdate d image true) s (fun t => t.boot = s.boot ∧ d.val ∉ t.mgmt.proven
           ∧ t.mgmt.answer = [ccREFUSED] ∧ (EvtRoom s → Raised s t 0xB007 kMODULE 0 (d.val + 8 * 2 ^ 8)))))
    ∧ (d.val ∈ m.proven → Gives (.pldmActivateFirmware d) s (fun t => t.fget F.RST_BOOT_PREFER = d.val
        ∧ RegsKept s t [RegId.RST_BOOT.addr 0 0 0] ∧ { t with regs := s.regs } = { s with mgmt := { m with answer := [ccOK] } }))
    ∧ (d.val ∉ m.proven → Gives (.pldmActivateFirmware d) s (tells [ccREFUSED]))
    ∧ (v8 = 0x12 ∨ v8 = 0x13 → Gives (.spdmNegotiate v8 true true) s (fun t =>
        t = { s with mgmt := { m with spdm := some (v8.toNat, true), answer := [ccOK, v8] } }))
    ∧ (b = false ∨ (v8 ≠ 0x12 ∧ v8 ≠ 0x13) → Gives (.spdmNegotiate v8 b true) s (fun t =>
        t = { s with mgmt := { m with spdm := none, answer := [ccREFUSED] } }))
    ∧ (m.spdm ≠ none →
        let digest := Config.sha3 (Config.certChain gen)
        let body := fun (i : Nat) => if i = 0 then [9] else if i = 255 then (List.range 9).flatMap (fun k => s.measurement (k + 1))
          else s.measurement i
        Gives (.spdmGetCertificate 0) s (tells (ccOK :: Config.certChain gen))
        ∧ Gives (.spdmChallenge 0 nonce) s (tells (ccOK :: digest ++ Config.identitySign gen (nonce ++ digest)))
        ∧ (nonce8.toNat ≤ 9 ∨ nonce8.toNat = 255 → Gives (.spdmGetMeasurements nonce8 nonce) s
            (tells (ccOK :: body nonce8.toNat ++ Config.identitySign gen (nonce ++ body nonce8.toNat)))))
    ∧ (s.flag F.MOD_STATUS_READY = true → Gives (.mctpReset 0xA5200000) s (fun t => t.mgmt.answer = [ccOK]
        ∧ t.fget F.RST_CAUSE_CLASS = 2 ∧ t.fget F.RST_CAUSE_SOURCE = 5 ∧ t.flag F.MOD_STATUS_READY = false))
    ∧ (bits v.toNat 31 24 ≠ 0xA5 → Gives (.mctpReset v) s (fun t => t.mgmt.answer = [ccREFUSED] ∧ MemKept s t
        ∧ (EvtRoom s → Raised s t 0xA00B kMODULE 0 (1 + 5 * 2 ^ 4))))
    ∧ Gives .mctpWdogKick s (fun t => t = { s with boot := { s.boot with wdogAt := s.clk.wt }, mgmt := { m with answer := [ccOK] } })
    ∧ (a % 4 ≠ 0 → Gives (.mctpRegRead off) s (tells [ccMALFORMED]) ∧ Gives (.mctpRegWrite off v) s (tells [ccMALFORMED]))
    ∧ (a % 4 = 0 → mctpReach a = false → Gives (.mctpRegRead off) s (tells [ccREFUSED]) ∧ Gives (.mctpRegWrite off v) s (tells [ccREFUSED]))
    ∧ (∀ r, a % 4 = 0 → mctpReach a = true → regAt a = some r → r.id.defn.wide = false →
        Gives (.mctpRegRead off) s (tells (ccOK :: leBytes 4 (s.regValue r % 2 ^ 32)))
        ∧ Gives (.mctpRegWrite off v) s (fun t => t.mgmt.answer = [ccOK] ∧
            { t with mgmt := { t.mgmt with answer := [] } } = { s.regWrite .bar0 r v.toNat with
              mgmt := { (s.regWrite .bar0 r v.toNat).mgmt with answer := [] } }))

/-- R19, R520 to R524: a debug token in order sets the level it names and one that is not is refused, three of them locking the port; a
revocation token burns its slot's fuse; the test port takes the instructions that the debug level and MOD_RST_N allow; a write of a
count-limited setting waits, and its commit uses up one change. -/
def Obligations.SecurityActs : Prop :=
  ∀ (s : State) (tok : Token) (i : Fin 8) (setting : Fin 4) (v : BitVec 32),
    let m := s.mgmt
    let denied := fun (reason : Nat) (t : State) => t.mgmt.fails = min (m.fails + 1) 3 ∧ t.mgmt.answer = [ccREFUSED] ∧ MemKept s t
      ∧ (2 ≤ m.fails → t.flag F.SEC_STATUS_LOCKOUT = true) ∧ t.fget F.SEC_STATUS_DEBUG = s.fget F.SEC_STATUS_DEBUG
      ∧ (EvtRoom s → Raised s t 0xB004 kMODULE 0 (reason + min (m.fails + 1) 3 * 2 ^ 8))
    let fuses := setBits (s.fget F.SEC_STATUS_REVOKED) tok.arg tok.arg 1
    let id := setting.val + 1
    let f := rwnField id
    let x := bits v.toNat (f.hi - f.lo) 0
    let rest := m.rwn.filter fun p => p.1 != id
    let held := fun (l : List (Nat × Nat)) (t : State) => t.mgmt = { m with rwn := l } ∧ (t.flag F.SEC_STATUS_RWN_BUSY = !l.isEmpty)
      ∧ RegsKept s t [RegId.SEC_STATUS.addr 0 0 0] ∧ MemKept s t
    (tokenForm tok 1 2 = true →
      (s.tokenBad false tok = none → Gives (.debugUnlock tok) s (fun t => t.fget F.SEC_STATUS_DEBUG = tok.arg
        ∧ t.mgmt.answer = [ccOK] ∧ MemKept s t ∧ (EvtRoom s → Raised s t 0xB003 kMODULE 0 tok.arg)))
      ∧ ∀ r, s.tokenBad false tok = some r → Gives (.debugUnlock tok) s (denied r))
    ∧ (tokenForm tok 1 2 = false → Gives (.debugUnlock tok) s (fun t => t = { s with mgmt := { m with answer := [ccMALFORMED] } }))
    ∧ (tokenForm tok 0 3 = true →
        (s.tokenBad true tok = none → fuses ≠ 15 → Gives (.keyRevoke tok) s (fun t => t.fget F.SEC_STATUS_REVOKED = fuses
          ∧ t.mgmt.answer = [ccOK] ∧ MemKept s t ∧ (EvtRoom s → Raised s t 0xB005 kMODULE 0 tok.arg)))
        ∧ (fuses = 15 → Gives (.keyRevoke tok) s (fun t => t.mgmt.answer = [ccREFUSED]
          ∧ t.fget F.SEC_STATUS_REVOKED = s.fget F.SEC_STATUS_REVOKED ∧ MemKept s t))
        ∧ ∀ r, s.tokenBad true tok = some r → Gives (.keyRevoke tok) s (denied r))
    ∧ Gives (.jtagInstruction i) s (fun t =>
        let allowed := if 3 ≤ i.val ∧ i.val ≤ 5 then s.boot.modRst else if i.val = 6 then decide (1 ≤ s.fget F.SEC_STATUS_DEBUG)
          else if i.val = 7 then decide (2 ≤ s.fget F.SEC_STATUS_DEBUG) else true
        t.mgmt.jtag = (if allowed then i.val else 0) ∧ { t with mgmt := m } = s
        ∧ (i.val = 1 → t.mgmt.idcode % 2 = 1 ∧ t.mgmt.idcode / 2 ^ 12 % 2 ^ 16 = 0x0B25
            ∧ t.mgmt.idcode / 2 ^ 28 = s.fget F.MOD_ID_REV % 16))
    ∧ (s.rwnLegal id x = true →
        (x = s.fget f → Gives (.rwnWrite setting v) s (held rest))
        ∧ (x ≠ s.fget f → s.fget (rwnLeft id) ≠ 0 → Gives (.rwnWrite setting v) s (held (rest ++ [(id, x)])))
        ∧ (x ≠ s.fget f → s.fget (rwnLeft id) = 0 → EvtRoom s → Gives (.rwnWrite setting v) s (fun t =>
            Raised s t 0xB001 kMODULE 0 (id + x * 2 ^ 32) ∧ t.mgmt = m ∧ t.fget f = s.fget f ∧ MemKept s t)))
    ∧ (s.rwnLegal id x = false → Gives (.rwnWrite setting v) s (fun t => t = s))
    ∧ (∀ y more, m.rwn = (id, y) :: more → Gives .rwnCommit s (fun t => t.mgmt.rwn = more ∧ t.fget f = y % 2 ^ (f.hi - f.lo + 1)
        ∧ t.fget (rwnLeft id) = s.fget (rwnLeft id) - 1 ∧ (t.flag F.SEC_STATUS_RWN_BUSY = !more.isEmpty) ∧ MemKept s t
        ∧ (EvtRoom s → Raised s t 0xB002 kMODULE 0 (id + (s.fget (rwnLeft id) - 1) * 2 ^ 8 + y * 2 ^ 32))))

/-- R525 to R528: each second adds to the log and the window shows it; every 600 s the counts are committed; a monitor that is cleared, or
given another source, counts from nothing. -/
def Obligations.LogAndMonitors : Prop :=
  ∀ (s : State) (m : Mon) (src : Fin 7) (sel : Fin 1024),
    let zero := fun (t : State) => t.rd .MON_MIN 0 m = 0xFFFFFFFF ∧ t.rd .MON_MAX 0 m = 0 ∧ t.rd .MON_COUNT 0 m = 0
      ∧ t.rd .MON_SUM 0 m = 0 ∧ ∀ b : Fin 32, t.rd .MON_BIN 0 m b = 0
    let chosen := fun (t : State) => t.fget F.MON_CTRL_SRC 0 m = src.val ∧ t.fget F.MON_CTRL_SEL 0 m = sel.val
    Gives .logSecondUpdate s (fun t => mget 0 t.log.live 0x10 = mget 0 s.log.live 0x10 + 1 ∧ t.log.shown = t.log.live
      ∧ t.log.stored = s.log.stored ∧ t.log.recs = s.log.recs ∧ RegsKept s t [RegId.CLK_SKIMMED.addr 0 0 0] ∧ MemKept s t
      ∧ (0 < s.clk.rate → (s.clk.wt / 10 ^ 9 + 1) * 10 ^ 9 ≤ t.clk.wt))
    ∧ Gives .logPeriodicCommit s (fun t => mget 0 t.log.stored 0 = mget 0 s.log.live 0 + 1 ∧ mget 0 t.log.stored 8 = t.clk.wt
        ∧ (∀ k, k ≠ 0 → k ≠ 8 → mget 0 t.log.stored k = mget 0 s.log.live k) ∧ t.log.recs = s.log.recs
        ∧ RegsKept s t [RegId.CLK_SKIMMED.addr 0 0 0] ∧ MemKept s t)
    ∧ Gives (.monClearWrite m) s (fun t => zero t ∧ { t with regs := s.regs } = s)
    ∧ Gives (.monSourceChange m src sel) s (fun t => chosen t ∧ { t with regs := s.regs } = s ∧ (¬ chosen s → zero t)
        ∧ (chosen s → t = s))

/-! ## Registers (00, 01) -/

/-- R10, R15 to R18, R23: a host write of all four bytes of a 32-bit register sets each of its fields by its access code, with LOCK and
EXPERT, and ignores reserved encodings; a write that an RWX register takes makes PRESET read 0xF; other byte enables, and a block that
the host does not reach, leave everything as it was. LOCK is set by writing 1. -/
def Claim.RegisterFieldsAreWritten : Prop :=
  ∀ (s : State) (lane : BitVec 24) (high : Bool) (be : BitVec 8) (data : BitVec 64),
    let a := 8 * lane.toNat + (if high then 4 else 0)
    let v := if high then data.toNat / 2 ^ 32 else data.toNat % 2 ^ 32
    let word : BitVec 8 := if high then 0xF0 else 0x0F
    let lock := s.flag F.MOD_CTRL_LOCK
    let open_ := s.flag F.MOD_CTRL_EXPERT && !lock
    (∀ r : RegRef, regAt a = some r → r.id.defn.wide = false → s.hostMay a = true →
      r.id ∈ [RegId.MOD_CTRL, .MOD_MODULE_ID, .RST_CTRL, .CLK_STATUS, .PWR_GOV, .THERM_CFG, .HBMC_SCRUB, .HBMC_MAPOUT_THR, .BRIM_CFG,
        .BRIM_ARB, .RED_VFY, .HOST_CTRL, .HLTH_CFG, .MX_CHECK, .FB_MERGE] →
      Gives (.registerWrite lane word data true) s (fun t =>
        (∀ fld ∈ r.id.defn.fields,
          let o := bits (s.rd r.id r.i r.j r.k).toNat fld.hi fld.lo
          let n := bits v fld.hi fld.lo
          bits (t.rd r.id r.i r.j r.k).toNat fld.hi fld.lo = (match fld.acc with
            | .RW => if fld.accepts n then n else o
            | .RWS => if fld.accepts n then n else o
            | .RWL => if !lock && fld.accepts n then n else o
            | .RWX => if open_ && fld.accepts n then n else o
            | .W1C => o - (o &&& n)
            | .W1S => o ||| n
            | _ => o))
        ∧ (r.id.hasRWX = true → open_ = true → t.fget ⟨r.id.defn.blk.profile, 3, 0⟩ (profileInstance r.id.defn.blk r.i) = 0xF)
        ∧ OnlyRegs [r.addr, r.id.defn.blk.profile.addr (profileInstance r.id.defn.blk r.i) 0 0] s t))
    ∧ (be ≠ 0xFF → be ≠ 0x0F → be ≠ 0xF0 → Gives (.registerWrite lane be data true) s (fun t => t = s))
    ∧ (s.hostMay a = false → Gives (.registerWrite lane word data true) s (fun t => t = s))
    ∧ Gives .modLockWrite s (fun t => t.flag F.MOD_CTRL_LOCK = true ∧ OnlyRegs [RegId.MOD_CTRL.addr 0 0 0] s t)

/-- R11, R12, R49: the low word of a 64-bit register captures its high word for the next read of it; a low word that is written is held,
and the write of the high word sets the whole register with it, or with the present low word; all eight bytes are written together. The
read index of the event ring moves only toward the write index. -/
def Obligations.WideRegisters : Prop :=
  ∀ (s : State) (tag : Fin 16384) (lane : BitVec 24) (low high : BitVec 32) (data : BitVec 64) (i : Fin 256) (index : BitVec 13),
    let a := 8 * lane.toNat
    let base := (⟨.HOST_XLAT_BASE, 0, i, 0⟩ : RegRef)
    let is := fun (x : Nat) (t : State) => t.fget F.HOST_XLAT_BASE_ADDR 0 i = x % 2 ^ 64 / 2 ^ 12 ∧ RegsKept s t [base.addr]
    let wr := s.fget F.MOD_EVT_WR_INDEX
    let left := fun (rd : Nat) => (wr + 8192 - rd) % 8192
    (∀ r : RegRef, regAt a = some r → regAt (a + 4) = some r → r.id.defn.wide = true → a = r.addr → s.hostReach r.id.defn.blk = true →
      Gives (.counterLowRead tag lane) s (fun t =>
        t.host = { s.host with done := s.host.done ++ [⟨tag, 0, leBytes 4 (s.regValue r % 2 ^ 32), false⟩] }
        ∧ (t.readWord (a + 4)).2 = some (s.regValue r / 2 ^ 32) ∧ { t with host := s.host, rHold := s.rHold } = s))
    ∧ (∀ r, splitReg lane = some r → Gives (.splitLowWordWrite lane low) s (fun t =>
        mget 0 t.wHold r.addr = low.toNat + 1 ∧ { t with wHold := s.wHold } = s))
    ∧ (splitReg lane = some base →
        (mget 0 s.wHold base.addr = low.toNat + 1 → Gives (.splitHighWordWrite lane high) s (fun t =>
          is (high.toNat * 2 ^ 32 + low.toNat) t ∧ mget 0 t.wHold base.addr = 0))
        ∧ (mget 0 s.wHold base.addr = 0 → Gives (.splitHighWordWrite lane high) s
            (is (high.toNat * 2 ^ 32 + (s.rd .HOST_XLAT_BASE 0 i).toNat % 2 ^ 32)))
        ∧ (s.hostMay a = true → Gives (.registerWrite lane 0xFF data true) s (is data.toNat)))
    ∧ (left index.toNat ≤ left (s.fget F.MOD_EVT_RD_INDEX) → Gives (.evtRdWrite index) s (fun t =>
        t.fget F.MOD_EVT_RD_INDEX = index.toNat ∧ RegsKept s t [RegId.MOD_EVT_RD.addr 0 0 0] ∧ MemKept s t))
    ∧ (left (s.fget F.MOD_EVT_RD_INDEX) < left index.toNat → Gives (.evtRdWrite index) s (fun t => t = s))

/-- R21, R22, R23, R115, R200, R262, R405, R490: presets load the fields that their chapters list and PRESET shows them; nothing is loaded
while LOCK is 1 or where a preset is undefined. -/
def Claim.PresetsLoad : Prop :=
  ∀ (s : State) (off : BitVec 27) (preset : Fin 16) (c : Core) (r : RegRef),
    regAt off.toNat = some r → r.id = r.id.defn.blk.profile →
    let shows := fun (t : State) => t.fget ⟨r.id, 3, 0⟩ r.i = preset.val ∧ { t with regs := s.regs } = s
    (s.flag F.MOD_CTRL_LOCK = true ∨ s.presetLoad r.id.defn.blk r.i preset = none →
      Gives (.profilePresetWrite off preset) s (fun t => t = s))
    ∧ (s.flag F.MOD_CTRL_LOCK = false →
        (r = ⟨.MX_PROFILE, c, 0, 0⟩ → preset.val ≤ 3 → Gives (.profilePresetWrite off preset) s (fun t => shows t
          ∧ (t.rd .MX_CHECK c).toNat = [94, 98, 88, 30].getD preset 0))
        ∧ (r.id = .FB_PROFILE → preset.val ≤ 1 → Gives (.profilePresetWrite off preset) s (fun t => shows t
            ∧ t.fget F.FB_MERGE_MERGE_EN r.i = 1 - preset.val))
        ∧ (r.id = .TRACT_PROFILE → preset.val ≤ 2 → Gives (.profilePresetWrite off preset) s (fun t => shows t ∧ ∀ u : Slot,
            t.fget F.TRACT_BAR_SLACK_EXTRA u = [0, 1024, 0].getD preset 0
            ∧ t.fget F.TRACT_TAG_TIMEOUT_US u = [1000, 10000, 100].getD preset 0
            ∧ t.fget F.TRACT_BAR_TIMEOUT_MS u = [250, 2000, 25].getD preset 0))
        ∧ (r.id = .RED_PROFILE → preset.val ≤ 3 → Gives (.profilePresetWrite off preset) s (fun t => shows t
            ∧ t.fget F.RED_VFY_EN = [1, 1, 1, 0].getD preset 0 ∧ t.fget F.RED_VFY_VLOG = [12, 8, 16, 12].getD preset 0))
        ∧ (r.id = .PWR_PROFILE → preset.val ≤ 2 → Gives (.profilePresetWrite off preset) s (fun t => shows t
            ∧ t.fget F.PWR_GOV_HYST = [5, 10, 5].getD preset 0 ∧ t.fget F.PWR_GOV_DOWN_N = [10, 100, 10].getD preset 0)))

/-- R10, R15 to R18, R23: a host write of a 32-bit register, field by field; R21, R22, R115, R200, R262, R405, R490: the
presets. -/
def Obligations.RegistersAreWritten : Prop := Claim.RegisterFieldsAreWritten ∧ Claim.PresetsLoad

/-! ## The whole module -/

/-- The block takes the command at the front of its queue. -/
def Claim.StepRunsTheFrontCommand : Prop :=
  ∀ (s : State) (c : Instr) (rest : List Instr), s.pending = c :: rest → step s = exec c { s with pending := rest }

/-- The model's choice (log entry 1): with nothing waiting, a step is one undivided ACLK period, in which nothing but the clocks and
CLK_SKIMMED changes (R429, R433). -/
def Claim.IdleStepsPassTime : Prop :=
  ∀ s : State, s.pending = [] → ∃ t, step s = .next t ∧ t.clk.cyc = s.clk.cyc + 1 ∧ t.pending = []
    ∧ (t.clk.run = s.clk.run ∧ (s.clk.run = false → t.clk.tb = s.clk.tb))
    ∧ RegsKept s t [RegId.CLK_SKIMMED.addr 0 0 0] ∧ { t with clk := s.clk, regs := s.regs } = s

/-- A step runs the command at the front of the queue on the state with the rest; with nothing waiting it lets one ACLK period
pass (the model's choice, log entry 1; R429, R433). -/
def Obligations.StepsTakeTheQueue : Prop := Claim.StepRunsTheFrontCommand ∧ Claim.IdleStepsPassTime

/-- R20, R444, R459: right after reset every register of the map has its Reset value, but for RST_STATUS, which shows the cold reset in
progress; no slot, engine or stream is active, READY is 0, TB is 0, the queue is empty and the memories list nothing. Where the spec gives no Reset
value (values loaded from the lifetime store among them), `init` holds the model's own, and an Epru register is 0: log entry 4. -/
def Obligations.ResetState : Prop :=
  let s := State.reset
  (∀ (r : RegId) (i j k : Nat), r.addr i j k ≠ RegId.RST_STATUS.addr 0 0 0 → s.rd r i j k = r.init j)
    ∧ s.fget F.RST_STATUS_ACTIVE = 1 ∧ s.flag F.MOD_STATUS_READY = false ∧ s.fget F.RST_BOOT_STAGE = 0
    ∧ (∀ u : Slot, s.tstate u = tFREE)
    ∧ (∀ c : Core, s.fget F.MX_STATUS_STATE c = eDISABLED ∧ s.fget F.VX_STATUS_STATE c = eDISABLED
        ∧ s.fget F.STP_STATUS_STATE c = eDISABLED ∧ s.epState c = epIDLE ∧ ∀ r : RegNo, s.g c r = 0)
    ∧ (∀ i : Stream, s.gsState i = gsDISABLED) ∧ (∀ w : Win, s.winState w = wDISABLED) ∧ s.rkState = rkDISABLED
    ∧ s.clk.tb = 0 ∧ s.pending = [] ∧ s.flights = [] ∧ s.sp = [] ∧ s.hbm = [] ∧ MemOk s

/-- Every register of the map is found at its own offset and at no other one: the offset of an element that a register has names that
element, and so do all its bytes. -/
def Obligations.RegisterMapIsExact : Prop :=
  (∀ (r : RegId) (i j k n : Nat), r.has i j k = true → n < r.size → regAt (r.addr i j k + n) = some ⟨r, i, j, k⟩)
    ∧ ∀ (a : Nat) (r : RegRef), regAt a = some r → r.id.has r.i r.j r.k = true ∧ r.addr ≤ a ∧ a < r.addr + r.id.size

/-- Every step keeps the memories of scratchpads and stacks in canonical form. -/
def Obligations.StepsKeepMemoriesCanonical : Prop :=
  ∀ s t : State, MemOk s → step s = .next t → MemOk t

/-- R17: once LOCK is 1 it stays 1, and EXPERT stays as it is, whatever step is taken, until a cold or warm reset acts. The premise on
`boot.mapSaved` says that the registers kept for an uncommitted map are those of the map, as every step leaves them. -/
def Obligations.LockHolds : Prop :=
  ∀ s t : State, (∀ e ∈ s.boot.mapSaved, mapReg e.1 = true) → step s = .next t →
    (∀ e ∈ t.boot.mapSaved, mapReg e.1 = true)
    ∧ (s.flag F.MOD_CTRL_LOCK = true →
        (t.flag F.MOD_CTRL_LOCK = true ∧ t.fget F.MOD_CTRL_EXPERT = s.fget F.MOD_CTRL_EXPERT)
        ∨ t.fget F.RST_STATUS_ACTIVE = 1 ∨ t.fget F.RST_STATUS_ACTIVE = 2)
end

