-- ==== Sys2Proof/Laws/Bits.lean ====
section
/-! SUPPORT. Laws of bit fields and of little-endian bytes. -/

namespace Sys2Proof

theorem bits_lt (v hi lo : Nat) : bits v hi lo < 2 ^ (hi + 1 - lo) := Nat.mod_lt _ (Nat.two_pow_pos _)

theorem bits_testBit (v hi lo i : Nat) : (bits v hi lo).testBit i = (decide (i < hi + 1 - lo) && v.testBit (lo + i)) := by
  simp [bits, Nat.testBit_mod_two_pow, Nat.testBit_div_two_pow, Nat.add_comm]

/-- A field that has been replaced: every bit of the number. -/
theorem setBits_testBit (v hi lo x i : Nat) (h : lo ≤ hi) :
    (setBits v hi lo x).testBit i = (if lo ≤ i ∧ i ≤ hi then x.testBit (i - lo) else v.testBit i) := by
  have e : setBits v hi lo x = 2 ^ lo * (2 ^ (hi + 1 - lo) * (v / 2 ^ (hi + 1)) + x % 2 ^ (hi + 1 - lo)) + v % 2 ^ lo := by
    have p : 2 ^ (hi + 1) = 2 ^ lo * 2 ^ (hi + 1 - lo) := by rw [← Nat.pow_add]; congr 1; omega
    unfold setBits
    rw [Nat.mul_add, ← Nat.mul_assoc, ← p, Nat.mul_comm (2 ^ lo) (x % _), Nat.mul_comm (2 ^ (hi + 1)) (v / _)]
    omega
  rw [e, Nat.testBit_two_pow_mul_add _ (Nat.mod_lt _ (Nat.two_pow_pos _)),
    Nat.testBit_two_pow_mul_add _ (Nat.mod_lt _ (Nat.two_pow_pos _))]
  by_cases h1 : i < lo
  · rw [if_pos h1, if_neg (by omega), Nat.testBit_mod_two_pow]; simp [h1]
  · rw [if_neg h1]
    by_cases h2 : i ≤ hi
    · rw [if_pos (by omega), if_pos (by omega), Nat.testBit_mod_two_pow]
      simp only [Bool.and_eq_right_iff_imp]; intro _; simp only [decide_eq_true_eq]; omega
    · rw [if_neg (by omega), if_neg (by omega), Nat.testBit_div_two_pow]
      congr 1; omega

/-- A field reads as the value that replaced it, cut to its width. -/
theorem bits_setBits_same (v hi lo x : Nat) (h : lo ≤ hi) : bits (setBits v hi lo x) hi lo = x % 2 ^ (hi + 1 - lo) := by
  apply Nat.eq_of_testBit_eq
  intro i
  rw [bits_testBit, setBits_testBit _ _ _ _ _ h, Nat.testBit_mod_two_pow]
  by_cases hi' : i < hi + 1 - lo
  · rw [if_pos (by omega), show lo + i - lo = i by omega]
  · simp [hi']

/-- Another field of the number stays. -/
theorem bits_setBits_ne (v hi lo x hi' lo' : Nat) (h : lo ≤ hi) (hd : hi' < lo ∨ hi < lo') :
    bits (setBits v hi lo x) hi' lo' = bits v hi' lo' := by
  apply Nat.eq_of_testBit_eq
  intro i
  rw [bits_testBit, bits_testBit, setBits_testBit _ _ _ _ _ h]
  by_cases hi'' : i < hi' + 1 - lo'
  · rw [if_neg (by omega)]
  · simp [hi'']

/-- A number of n bits stays one when a field within them is replaced. -/
theorem setBits_lt (v hi lo x n : Nat) (h : lo ≤ hi) (hn : hi < n) (hv : v < 2 ^ n) : setBits v hi lo x < 2 ^ n := by
  apply Nat.lt_of_testBit n <;> try simp
  · rw [setBits_testBit _ _ _ _ _ h, if_neg (by omega)]
    exact Nat.testBit_lt_two_pow hv
  · intro j hj
    rw [setBits_testBit _ _ _ _ _ h, if_neg (by omega), Nat.testBit_lt_two_pow (Nat.lt_of_lt_of_le hv (Nat.pow_le_pow_right (by omega) (by omega)))]
    rw [Nat.testBit_two_pow]; simp; omega

@[simp] theorem leBytes_length (n v : Nat) : (leBytes n v).length = n := by
  induction n generalizing v with
  | zero => rfl
  | succ n ih => simp [leBytes, ih]

/-- A number and its little-endian bytes (R6). -/
theorem leNat_leBytes (n v : Nat) : leNat (leBytes n v) = v % 256 ^ n := by
  induction n generalizing v with
  | zero => simp [leBytes, leNat, Nat.mod_one]
  | succ n ih =>
    simp only [leBytes, leNat, ih, BitVec.toNat_ofNat]
    rw [show (2 : Nat) ^ 8 = 256 by decide, show (256 : Nat) ^ (n + 1) = 256 * 256 ^ n by rw [Nat.pow_succ, Nat.mul_comm], Nat.mod_mul]

theorem leNat_lt (l : List Byte) : leNat l < 256 ^ l.length := by
  induction l with
  | nil => simp [leNat]
  | cons b l ih =>
    simp only [leNat, List.length_cons, Nat.pow_succ]
    have := b.isLt
    omega

end Sys2Proof
end

