-- ==== Sys2Proof/Laws/Map.lean ====
section
/-! SUPPORT. Laws of the sparse maps: a read after a write, and that every operation keeps the canonical form. -/

namespace Sys2Proof.Machine

variable {α : Type}

@[simp] theorem mget_nil (d : α) (k : Nat) : mget d [] k = d := rfl

theorem mget_cons (d : α) (e : Nat × α) (m : SMap α) (k : Nat) :
    mget d (e :: m) k = if e.1 = k then e.2 else mget d m k := rfl

theorem mget_merase (d : α) (m : SMap α) (k j : Nat) : mget d (merase m k) j = if j = k then d else mget d m j := by
  induction m with
  | nil => simp [merase]
  | cons e m ih =>
    obtain ⟨k', v⟩ := e
    simp only [merase, mget_cons]
    split
    · rw [ih]; grind
    · rw [mget_cons, ih]; grind

theorem mget_minsert (d : α) (m : SMap α) (k j : Nat) (v : α) : mget d (minsert m k v) j = if j = k then v else mget d m j := by
  induction m with
  | nil => simp only [minsert, mget_cons, mget_nil]; grind
  | cons e m ih =>
    obtain ⟨k', v'⟩ := e
    simp only [minsert]
    split
    · simp only [mget_cons]; grind
    · split
      · simp only [mget_cons]; grind
      · simp only [mget_cons, ih]; grind

theorem mget_mput [DecidableEq α] (d : α) (m : SMap α) (k j : Nat) (v : α) :
    mget d (mput d m k v) j = if j = k then v else mget d m j := by
  unfold mput
  split
  · rename_i h; rw [mget_merase, h]
  · rw [mget_minsert]

@[simp] theorem mget_mput_same [DecidableEq α] (d : α) (m : SMap α) (k : Nat) (v : α) : mget d (mput d m k v) k = v := by
  simp [mget_mput]

/-- A map written under one default reads the same under every default at another key. -/
theorem mget_mput_ne [DecidableEq α] (d d' : α) (m : SMap α) (k j : Nat) (v : α) (h : j ≠ k) :
    mget d' (mput d m k v) j = mget d' m j := by
  unfold mput
  split
  · rw [mget_merase]; simp [h]
  · rw [mget_minsert]; simp [h]

@[simp] theorem mget_mupd_same [DecidableEq α] (d : α) (m : SMap α) (k : Nat) (f : α → α) :
    mget d (mupd d m k f) k = f (mget d m k) := by simp [mupd]

theorem mget_mupd_ne [DecidableEq α] (d : α) (m : SMap α) (k j : Nat) (f : α → α) (h : j ≠ k) :
    mget d (mupd d m k f) j = mget d m j := mget_mput_ne d d m k j _ h

/-- A store of consecutive values: what stands at each address afterwards. -/
theorem mget_mputs [DecidableEq α] (d : α) (vs : List α) (m : SMap α) (a j : Nat) :
    mget d (mputs d m a vs) j = if a ≤ j ∧ j < a + vs.length then vs.getD (j - a) d else mget d m j := by
  induction vs generalizing m a with
  | nil => simp only [mputs, List.length_nil]; rw [if_neg (by omega)]
  | cons v vs ih =>
    rw [mputs, ih, mget_mput]
    by_cases h0 : j = a
    · subst h0; simp
    · by_cases h1 : a + 1 ≤ j ∧ j < a + 1 + vs.length
      · rw [if_pos h1, if_pos (by simp only [List.length_cons]; omega)]
        obtain ⟨n, hn⟩ : ∃ n, j - a = n + 1 := ⟨j - a - 1, by omega⟩
        rw [hn, show j - (a + 1) = n by omega]; simp
      · rw [if_neg h1, if_neg h0, if_neg (by simp only [List.length_cons]; omega)]

theorem mgets_length (d : α) (m : SMap α) (a n : Nat) : (mgets d m a n).length = n := by
  induction n generalizing a with
  | zero => rfl
  | succ n ih => simp [mgets, ih]

theorem mgets_congr (d : α) (m m' : SMap α) (a n : Nat) (h : ∀ j, a ≤ j → j < a + n → mget d m j = mget d m' j) :
    mgets d m a n = mgets d m' a n := by
  induction n generalizing a with
  | zero => rfl
  | succ n ih =>
    simp only [mgets]
    rw [h a (by omega) (by omega), ih (a + 1) (fun j h1 h2 => h j (by omega) (by omega))]

theorem mgets_mputs [DecidableEq α] (d : α) (m : SMap α) (a : Nat) (vs : List α) :
    mgets d (mputs d m a vs) a vs.length = vs := by
  have key : ∀ (ws : List α) (b : Nat) (m' : SMap α), (∀ i, i < ws.length → mget d m' (b + i) = ws.getD i d) →
      mgets d m' b ws.length = ws := by
    intro ws
    induction ws with
    | nil => intros; rfl
    | cons w ws ih =>
      intro b m' h
      simp only [List.length_cons, mgets]
      have h0 := h 0 (by simp)
      simp only [Nat.add_zero, List.getD_cons_zero] at h0
      rw [h0, ih (b + 1) m' (fun i hi => by
        have := h (i + 1) (by simpa using hi)
        rw [show b + 1 + i = b + (i + 1) by omega]; simpa using this)]
  apply key
  intro i hi
  rw [mget_mputs, if_pos (by omega), show a + i - a = i by omega]

/-! ## Canonical form -/

/-- Every key of a map lies above k. -/
def above (k : Nat) : SMap α → Prop
  | [] => True
  | e :: _ => k < e.1

theorem mwf_cons [DecidableEq α] (d : α) (e : Nat × α) (m : SMap α) :
    mwf d (e :: m) = true ↔ e.2 ≠ d ∧ above e.1 m ∧ mwf d m = true := by
  obtain ⟨k, v⟩ := e
  cases m with
  | nil => simp [mwf, above]
  | cons e' m => obtain ⟨k', v'⟩ := e'; simp [mwf, above, and_assoc]

theorem merase_above [DecidableEq α] (d : α) (m : SMap α) (k b : Nat) (h : mwf d m = true) (ha : above b m) :
    above b (merase m k) := by
  induction m with
  | nil => simpa [merase] using ha
  | cons e m ih =>
    obtain ⟨k', v'⟩ := e
    rw [mwf_cons] at h
    simp only [merase]
    split
    · apply ih h.2.2
      cases m with
      | nil => trivial
      | cons e m => exact Nat.lt_trans ha h.2.1
    · exact ha

theorem merase_wf [DecidableEq α] (d : α) (m : SMap α) (k : Nat) (h : mwf d m = true) : mwf d (merase m k) = true := by
  induction m with
  | nil => exact h
  | cons e m ih =>
    obtain ⟨k', v'⟩ := e
    rw [mwf_cons] at h
    simp only [merase]
    split
    · exact ih h.2.2
    · rw [mwf_cons]; exact ⟨h.1, merase_above d m k k' h.2.2 h.2.1, ih h.2.2⟩

theorem minsert_above (m : SMap α) (k b : Nat) (v : α) (hb : b < k) (ha : above b m) : above b (minsert m k v) := by
  cases m with
  | nil => exact hb
  | cons e m =>
    obtain ⟨k', v'⟩ := e
    simp only [minsert]
    split
    · exact hb
    · split
      · exact hb
      · exact ha

theorem minsert_wf [DecidableEq α] (d : α) (m : SMap α) (k : Nat) (v : α) (hv : v ≠ d) (h : mwf d m = true) :
    mwf d (minsert m k v) = true := by
  induction m with
  | nil => simpa [minsert, mwf] using hv
  | cons e m ih =>
    obtain ⟨k', v'⟩ := e
    have h' := (mwf_cons d _ _).1 h
    simp only [minsert]
    split
    · rename_i hk; rw [mwf_cons]; exact ⟨hv, hk, h⟩
    · split
      · rename_i hk; subst hk; rw [mwf_cons]; exact ⟨hv, h'.2.1, h'.2.2⟩
      · rw [mwf_cons]; exact ⟨h'.1, minsert_above m k k' v (by simp only at *; omega) h'.2.1, ih h'.2.2⟩

/-- A write keeps the canonical form. -/
theorem mput_wf [DecidableEq α] (d : α) (m : SMap α) (k : Nat) (v : α) (h : mwf d m = true) : mwf d (mput d m k v) = true := by
  unfold mput
  split
  · exact merase_wf d m k h
  · rename_i hv; exact minsert_wf d m k v hv h

theorem mupd_wf [DecidableEq α] (d : α) (m : SMap α) (k : Nat) (f : α → α) (h : mwf d m = true) :
    mwf d (mupd d m k f) = true := mput_wf d m k _ h

theorem mputs_wf [DecidableEq α] (d : α) (vs : List α) (m : SMap α) (a : Nat) (h : mwf d m = true) :
    mwf d (mputs d m a vs) = true := by
  induction vs generalizing m a with
  | nil => exact h
  | cons v vs ih => exact ih _ _ (mput_wf d m a v h)

end Sys2Proof.Machine
end

