-- ==== Sys2Proof/Laws/State.lean ====
section
/-! SUPPORT. What each update of State leaves: one lemma for each field under each of the plain updates, true by definition, so that
no proof unfolds a record update; and what stands in a table after an entry of it is set. -/

namespace Sys2Proof.Machine

variable (s : State) (n i j k v : Nat)

/-! ## Registers -/

variable (r : RegId) (f : Fld) (x : Word64)

@[simp] theorem State.wr_pending : (s.wr r x i j k).pending = s.pending := rfl
@[simp] theorem State.wr_clk : (s.wr r x i j k).clk = s.clk := rfl
@[simp] theorem State.wr_freeCtr : (s.wr r x i j k).freeCtr = s.freeCtr := rfl
@[simp] theorem State.wr_wHold : (s.wr r x i j k).wHold = s.wHold := rfl
@[simp] theorem State.wr_rHold : (s.wr r x i j k).rHold = s.rHold := rfl
@[simp] theorem State.wr_ring : (s.wr r x i j k).ring = s.ring := rfl
@[simp] theorem State.wr_evtSeen : (s.wr r x i j k).evtSeen = s.evtSeen := rfl
@[simp] theorem State.wr_sp : (s.wr r x i j k).sp = s.sp := rfl
@[simp] theorem State.wr_spCode : (s.wr r x i j k).spCode = s.spCode := rfl
@[simp] theorem State.wr_spTag : (s.wr r x i j k).spTag = s.spTag := rfl
@[simp] theorem State.wr_spc : (s.wr r x i j k).spc = s.spc := rfl
@[simp] theorem State.wr_fbc : (s.wr r x i j k).fbc = s.fbc := rfl
@[simp] theorem State.wr_flights : (s.wr r x i j k).flights = s.flights := rfl
@[simp] theorem State.wr_rimDown : (s.wr r x i j k).rimDown = s.rimDown := rfl
@[simp] theorem State.wr_bow : (s.wr r x i j k).bow = s.bow := rfl
@[simp] theorem State.wr_nextBow : (s.wr r x i j k).nextBow = s.nextBow := rfl
@[simp] theorem State.wr_bowBus : (s.wr r x i j k).bowBus = s.bowBus := rfl
@[simp] theorem State.wr_ep : (s.wr r x i j k).ep = s.ep := rfl
@[simp] theorem State.wr_tracts : (s.wr r x i j k).tracts = s.tracts := rfl
@[simp] theorem State.wr_mx : (s.wr r x i j k).mx = s.mx := rfl
@[simp] theorem State.wr_vx : (s.wr r x i j k).vx = s.vx := rfl
@[simp] theorem State.wr_stp : (s.wr r x i j k).stp = s.stp := rfl
@[simp] theorem State.wr_hbm : (s.wr r x i j k).hbm = s.hbm := rfl
@[simp] theorem State.wr_hbmPoison : (s.wr r x i j k).hbmPoison = s.hbmPoison := rfl
@[simp] theorem State.wr_hbmErr : (s.wr r x i j k).hbmErr = s.hbmErr := rfl
@[simp] theorem State.wr_chans : (s.wr r x i j k).chans = s.chans := rfl
@[simp] theorem State.wr_stk : (s.wr r x i j k).stk = s.stk := rfl
@[simp] theorem State.wr_gs : (s.wr r x i j k).gs = s.gs := rfl
@[simp] theorem State.wr_rack : (s.wr r x i j k).rack = s.rack := rfl
@[simp] theorem State.wr_red : (s.wr r x i j k).red = s.red := rfl
@[simp] theorem State.wr_hlth : (s.wr r x i j k).hlth = s.hlth := rfl
@[simp] theorem State.wr_host : (s.wr r x i j k).host = s.host := rfl
@[simp] theorem State.wr_brim : (s.wr r x i j k).brim = s.brim := rfl
@[simp] theorem State.wr_boot : (s.wr r x i j k).boot = s.boot := rfl
@[simp] theorem State.wr_pins : (s.wr r x i j k).pins = s.pins := rfl
@[simp] theorem State.wr_pwr : (s.wr r x i j k).pwr = s.pwr := rfl
@[simp] theorem State.wr_log : (s.wr r x i j k).log = s.log := rfl
@[simp] theorem State.wr_mgmt : (s.wr r x i j k).mgmt = s.mgmt := rfl

@[simp] theorem State.fset_pending : (s.fset f v i j k).pending = s.pending := rfl
@[simp] theorem State.fset_clk : (s.fset f v i j k).clk = s.clk := rfl
@[simp] theorem State.fset_freeCtr : (s.fset f v i j k).freeCtr = s.freeCtr := rfl
@[simp] theorem State.fset_wHold : (s.fset f v i j k).wHold = s.wHold := rfl
@[simp] theorem State.fset_rHold : (s.fset f v i j k).rHold = s.rHold := rfl
@[simp] theorem State.fset_ring : (s.fset f v i j k).ring = s.ring := rfl
@[simp] theorem State.fset_evtSeen : (s.fset f v i j k).evtSeen = s.evtSeen := rfl
@[simp] theorem State.fset_sp : (s.fset f v i j k).sp = s.sp := rfl
@[simp] theorem State.fset_spCode : (s.fset f v i j k).spCode = s.spCode := rfl
@[simp] theorem State.fset_spTag : (s.fset f v i j k).spTag = s.spTag := rfl
@[simp] theorem State.fset_spc : (s.fset f v i j k).spc = s.spc := rfl
@[simp] theorem State.fset_fbc : (s.fset f v i j k).fbc = s.fbc := rfl
@[simp] theorem State.fset_flights : (s.fset f v i j k).flights = s.flights := rfl
@[simp] theorem State.fset_rimDown : (s.fset f v i j k).rimDown = s.rimDown := rfl
@[simp] theorem State.fset_bow : (s.fset f v i j k).bow = s.bow := rfl
@[simp] theorem State.fset_nextBow : (s.fset f v i j k).nextBow = s.nextBow := rfl
@[simp] theorem State.fset_bowBus : (s.fset f v i j k).bowBus = s.bowBus := rfl
@[simp] theorem State.fset_ep : (s.fset f v i j k).ep = s.ep := rfl
@[simp] theorem State.fset_tracts : (s.fset f v i j k).tracts = s.tracts := rfl
@[simp] theorem State.fset_mx : (s.fset f v i j k).mx = s.mx := rfl
@[simp] theorem State.fset_vx : (s.fset f v i j k).vx = s.vx := rfl
@[simp] theorem State.fset_stp : (s.fset f v i j k).stp = s.stp := rfl
@[simp] theorem State.fset_hbm : (s.fset f v i j k).hbm = s.hbm := rfl
@[simp] theorem State.fset_hbmPoison : (s.fset f v i j k).hbmPoison = s.hbmPoison := rfl
@[simp] theorem State.fset_hbmErr : (s.fset f v i j k).hbmErr = s.hbmErr := rfl
@[simp] theorem State.fset_chans : (s.fset f v i j k).chans = s.chans := rfl
@[simp] theorem State.fset_stk : (s.fset f v i j k).stk = s.stk := rfl
@[simp] theorem State.fset_gs : (s.fset f v i j k).gs = s.gs := rfl
@[simp] theorem State.fset_rack : (s.fset f v i j k).rack = s.rack := rfl
@[simp] theorem State.fset_red : (s.fset f v i j k).red = s.red := rfl
@[simp] theorem State.fset_hlth : (s.fset f v i j k).hlth = s.hlth := rfl
@[simp] theorem State.fset_host : (s.fset f v i j k).host = s.host := rfl
@[simp] theorem State.fset_brim : (s.fset f v i j k).brim = s.brim := rfl
@[simp] theorem State.fset_boot : (s.fset f v i j k).boot = s.boot := rfl
@[simp] theorem State.fset_pins : (s.fset f v i j k).pins = s.pins := rfl
@[simp] theorem State.fset_pwr : (s.fset f v i j k).pwr = s.pwr := rfl
@[simp] theorem State.fset_log : (s.fset f v i j k).log = s.log := rfl
@[simp] theorem State.fset_mgmt : (s.fset f v i j k).mgmt = s.mgmt := rfl

/-! ## Free values, packets in flight -/

variable (p : Packet) (l : Loc)

@[simp] theorem State.free_pending : s.free.2.pending = s.pending := rfl
@[simp] theorem State.free_clk : s.free.2.clk = s.clk := rfl
@[simp] theorem State.free_regs : s.free.2.regs = s.regs := rfl
@[simp] theorem State.free_wHold : s.free.2.wHold = s.wHold := rfl
@[simp] theorem State.free_rHold : s.free.2.rHold = s.rHold := rfl
@[simp] theorem State.free_ring : s.free.2.ring = s.ring := rfl
@[simp] theorem State.free_evtSeen : s.free.2.evtSeen = s.evtSeen := rfl
@[simp] theorem State.free_sp : s.free.2.sp = s.sp := rfl
@[simp] theorem State.free_spCode : s.free.2.spCode = s.spCode := rfl
@[simp] theorem State.free_spTag : s.free.2.spTag = s.spTag := rfl
@[simp] theorem State.free_spc : s.free.2.spc = s.spc := rfl
@[simp] theorem State.free_fbc : s.free.2.fbc = s.fbc := rfl
@[simp] theorem State.free_flights : s.free.2.flights = s.flights := rfl
@[simp] theorem State.free_rimDown : s.free.2.rimDown = s.rimDown := rfl
@[simp] theorem State.free_bow : s.free.2.bow = s.bow := rfl
@[simp] theorem State.free_nextBow : s.free.2.nextBow = s.nextBow := rfl
@[simp] theorem State.free_bowBus : s.free.2.bowBus = s.bowBus := rfl
@[simp] theorem State.free_ep : s.free.2.ep = s.ep := rfl
@[simp] theorem State.free_tracts : s.free.2.tracts = s.tracts := rfl
@[simp] theorem State.free_mx : s.free.2.mx = s.mx := rfl
@[simp] theorem State.free_vx : s.free.2.vx = s.vx := rfl
@[simp] theorem State.free_stp : s.free.2.stp = s.stp := rfl
@[simp] theorem State.free_hbm : s.free.2.hbm = s.hbm := rfl
@[simp] theorem State.free_hbmPoison : s.free.2.hbmPoison = s.hbmPoison := rfl
@[simp] theorem State.free_hbmErr : s.free.2.hbmErr = s.hbmErr := rfl
@[simp] theorem State.free_chans : s.free.2.chans = s.chans := rfl
@[simp] theorem State.free_stk : s.free.2.stk = s.stk := rfl
@[simp] theorem State.free_gs : s.free.2.gs = s.gs := rfl
@[simp] theorem State.free_rack : s.free.2.rack = s.rack := rfl
@[simp] theorem State.free_red : s.free.2.red = s.red := rfl
@[simp] theorem State.free_hlth : s.free.2.hlth = s.hlth := rfl
@[simp] theorem State.free_host : s.free.2.host = s.host := rfl
@[simp] theorem State.free_brim : s.free.2.brim = s.brim := rfl
@[simp] theorem State.free_boot : s.free.2.boot = s.boot := rfl
@[simp] theorem State.free_pins : s.free.2.pins = s.pins := rfl
@[simp] theorem State.free_pwr : s.free.2.pwr = s.pwr := rfl
@[simp] theorem State.free_log : s.free.2.log = s.log := rfl
@[simp] theorem State.free_mgmt : s.free.2.mgmt = s.mgmt := rfl
@[simp] theorem State.free_freeCtr : s.free.2.freeCtr = s.freeCtr + 1 := rfl

@[simp] theorem State.send_pending : (s.send p l n v).pending = s.pending := rfl
@[simp] theorem State.send_clk : (s.send p l n v).clk = s.clk := rfl
@[simp] theorem State.send_freeCtr : (s.send p l n v).freeCtr = s.freeCtr := rfl
@[simp] theorem State.send_regs : (s.send p l n v).regs = s.regs := rfl
@[simp] theorem State.send_wHold : (s.send p l n v).wHold = s.wHold := rfl
@[simp] theorem State.send_rHold : (s.send p l n v).rHold = s.rHold := rfl
@[simp] theorem State.send_ring : (s.send p l n v).ring = s.ring := rfl
@[simp] theorem State.send_evtSeen : (s.send p l n v).evtSeen = s.evtSeen := rfl
@[simp] theorem State.send_sp : (s.send p l n v).sp = s.sp := rfl
@[simp] theorem State.send_spCode : (s.send p l n v).spCode = s.spCode := rfl
@[simp] theorem State.send_spTag : (s.send p l n v).spTag = s.spTag := rfl
@[simp] theorem State.send_spc : (s.send p l n v).spc = s.spc := rfl
@[simp] theorem State.send_fbc : (s.send p l n v).fbc = s.fbc := rfl
@[simp] theorem State.send_rimDown : (s.send p l n v).rimDown = s.rimDown := rfl
@[simp] theorem State.send_bow : (s.send p l n v).bow = s.bow := rfl
@[simp] theorem State.send_nextBow : (s.send p l n v).nextBow = s.nextBow := rfl
@[simp] theorem State.send_bowBus : (s.send p l n v).bowBus = s.bowBus := rfl
@[simp] theorem State.send_ep : (s.send p l n v).ep = s.ep := rfl
@[simp] theorem State.send_tracts : (s.send p l n v).tracts = s.tracts := rfl
@[simp] theorem State.send_mx : (s.send p l n v).mx = s.mx := rfl
@[simp] theorem State.send_vx : (s.send p l n v).vx = s.vx := rfl
@[simp] theorem State.send_stp : (s.send p l n v).stp = s.stp := rfl
@[simp] theorem State.send_hbm : (s.send p l n v).hbm = s.hbm := rfl
@[simp] theorem State.send_hbmPoison : (s.send p l n v).hbmPoison = s.hbmPoison := rfl
@[simp] theorem State.send_hbmErr : (s.send p l n v).hbmErr = s.hbmErr := rfl
@[simp] theorem State.send_chans : (s.send p l n v).chans = s.chans := rfl
@[simp] theorem State.send_stk : (s.send p l n v).stk = s.stk := rfl
@[simp] theorem State.send_gs : (s.send p l n v).gs = s.gs := rfl
@[simp] theorem State.send_rack : (s.send p l n v).rack = s.rack := rfl
@[simp] theorem State.send_red : (s.send p l n v).red = s.red := rfl
@[simp] theorem State.send_hlth : (s.send p l n v).hlth = s.hlth := rfl
@[simp] theorem State.send_host : (s.send p l n v).host = s.host := rfl
@[simp] theorem State.send_brim : (s.send p l n v).brim = s.brim := rfl
@[simp] theorem State.send_boot : (s.send p l n v).boot = s.boot := rfl
@[simp] theorem State.send_pins : (s.send p l n v).pins = s.pins := rfl
@[simp] theorem State.send_pwr : (s.send p l n v).pwr = s.pwr := rfl
@[simp] theorem State.send_log : (s.send p l n v).log = s.log := rfl
@[simp] theorem State.send_mgmt : (s.send p l n v).mgmt = s.mgmt := rfl
@[simp] theorem State.send_flights : (s.send p l n v).flights = s.flights ++ [⟨p, l, n, v⟩] := rfl

/-! ## Counts of the lifetime log -/

@[simp] theorem State.life_pending : (s.life k n).pending = s.pending := rfl
@[simp] theorem State.life_clk : (s.life k n).clk = s.clk := rfl
@[simp] theorem State.life_freeCtr : (s.life k n).freeCtr = s.freeCtr := rfl
@[simp] theorem State.life_regs : (s.life k n).regs = s.regs := rfl
@[simp] theorem State.life_wHold : (s.life k n).wHold = s.wHold := rfl
@[simp] theorem State.life_rHold : (s.life k n).rHold = s.rHold := rfl
@[simp] theorem State.life_ring : (s.life k n).ring = s.ring := rfl
@[simp] theorem State.life_evtSeen : (s.life k n).evtSeen = s.evtSeen := rfl
@[simp] theorem State.life_sp : (s.life k n).sp = s.sp := rfl
@[simp] theorem State.life_spCode : (s.life k n).spCode = s.spCode := rfl
@[simp] theorem State.life_spTag : (s.life k n).spTag = s.spTag := rfl
@[simp] theorem State.life_spc : (s.life k n).spc = s.spc := rfl
@[simp] theorem State.life_fbc : (s.life k n).fbc = s.fbc := rfl
@[simp] theorem State.life_flights : (s.life k n).flights = s.flights := rfl
@[simp] theorem State.life_rimDown : (s.life k n).rimDown = s.rimDown := rfl
@[simp] theorem State.life_bow : (s.life k n).bow = s.bow := rfl
@[simp] theorem State.life_nextBow : (s.life k n).nextBow = s.nextBow := rfl
@[simp] theorem State.life_bowBus : (s.life k n).bowBus = s.bowBus := rfl
@[simp] theorem State.life_ep : (s.life k n).ep = s.ep := rfl
@[simp] theorem State.life_tracts : (s.life k n).tracts = s.tracts := rfl
@[simp] theorem State.life_mx : (s.life k n).mx = s.mx := rfl
@[simp] theorem State.life_vx : (s.life k n).vx = s.vx := rfl
@[simp] theorem State.life_stp : (s.life k n).stp = s.stp := rfl
@[simp] theorem State.life_hbm : (s.life k n).hbm = s.hbm := rfl
@[simp] theorem State.life_hbmPoison : (s.life k n).hbmPoison = s.hbmPoison := rfl
@[simp] theorem State.life_hbmErr : (s.life k n).hbmErr = s.hbmErr := rfl
@[simp] theorem State.life_chans : (s.life k n).chans = s.chans := rfl
@[simp] theorem State.life_stk : (s.life k n).stk = s.stk := rfl
@[simp] theorem State.life_gs : (s.life k n).gs = s.gs := rfl
@[simp] theorem State.life_rack : (s.life k n).rack = s.rack := rfl
@[simp] theorem State.life_red : (s.life k n).red = s.red := rfl
@[simp] theorem State.life_hlth : (s.life k n).hlth = s.hlth := rfl
@[simp] theorem State.life_host : (s.life k n).host = s.host := rfl
@[simp] theorem State.life_brim : (s.life k n).brim = s.brim := rfl
@[simp] theorem State.life_boot : (s.life k n).boot = s.boot := rfl
@[simp] theorem State.life_pins : (s.life k n).pins = s.pins := rfl
@[simp] theorem State.life_pwr : (s.life k n).pwr = s.pwr := rfl
@[simp] theorem State.life_mgmt : (s.life k n).mgmt = s.mgmt := rfl

/-! ## Per-unit tables -/

@[simp] theorem State.setCore_pending (y : Epru) : (s.setCore n y).pending = s.pending := rfl
@[simp] theorem State.setCore_clk (y : Epru) : (s.setCore n y).clk = s.clk := rfl
@[simp] theorem State.setCore_freeCtr (y : Epru) : (s.setCore n y).freeCtr = s.freeCtr := rfl
@[simp] theorem State.setCore_regs (y : Epru) : (s.setCore n y).regs = s.regs := rfl
@[simp] theorem State.setCore_wHold (y : Epru) : (s.setCore n y).wHold = s.wHold := rfl
@[simp] theorem State.setCore_rHold (y : Epru) : (s.setCore n y).rHold = s.rHold := rfl
@[simp] theorem State.setCore_ring (y : Epru) : (s.setCore n y).ring = s.ring := rfl
@[simp] theorem State.setCore_evtSeen (y : Epru) : (s.setCore n y).evtSeen = s.evtSeen := rfl
@[simp] theorem State.setCore_sp (y : Epru) : (s.setCore n y).sp = s.sp := rfl
@[simp] theorem State.setCore_spCode (y : Epru) : (s.setCore n y).spCode = s.spCode := rfl
@[simp] theorem State.setCore_spTag (y : Epru) : (s.setCore n y).spTag = s.spTag := rfl
@[simp] theorem State.setCore_spc (y : Epru) : (s.setCore n y).spc = s.spc := rfl
@[simp] theorem State.setCore_fbc (y : Epru) : (s.setCore n y).fbc = s.fbc := rfl
@[simp] theorem State.setCore_flights (y : Epru) : (s.setCore n y).flights = s.flights := rfl
@[simp] theorem State.setCore_rimDown (y : Epru) : (s.setCore n y).rimDown = s.rimDown := rfl
@[simp] theorem State.setCore_bow (y : Epru) : (s.setCore n y).bow = s.bow := rfl
@[simp] theorem State.setCore_nextBow (y : Epru) : (s.setCore n y).nextBow = s.nextBow := rfl
@[simp] theorem State.setCore_bowBus (y : Epru) : (s.setCore n y).bowBus = s.bowBus := rfl
@[simp] theorem State.setCore_tracts (y : Epru) : (s.setCore n y).tracts = s.tracts := rfl
@[simp] theorem State.setCore_mx (y : Epru) : (s.setCore n y).mx = s.mx := rfl
@[simp] theorem State.setCore_vx (y : Epru) : (s.setCore n y).vx = s.vx := rfl
@[simp] theorem State.setCore_stp (y : Epru) : (s.setCore n y).stp = s.stp := rfl
@[simp] theorem State.setCore_hbm (y : Epru) : (s.setCore n y).hbm = s.hbm := rfl
@[simp] theorem State.setCore_hbmPoison (y : Epru) : (s.setCore n y).hbmPoison = s.hbmPoison := rfl
@[simp] theorem State.setCore_hbmErr (y : Epru) : (s.setCore n y).hbmErr = s.hbmErr := rfl
@[simp] theorem State.setCore_chans (y : Epru) : (s.setCore n y).chans = s.chans := rfl
@[simp] theorem State.setCore_stk (y : Epru) : (s.setCore n y).stk = s.stk := rfl
@[simp] theorem State.setCore_gs (y : Epru) : (s.setCore n y).gs = s.gs := rfl
@[simp] theorem State.setCore_rack (y : Epru) : (s.setCore n y).rack = s.rack := rfl
@[simp] theorem State.setCore_red (y : Epru) : (s.setCore n y).red = s.red := rfl
@[simp] theorem State.setCore_hlth (y : Epru) : (s.setCore n y).hlth = s.hlth := rfl
@[simp] theorem State.setCore_host (y : Epru) : (s.setCore n y).host = s.host := rfl
@[simp] theorem State.setCore_brim (y : Epru) : (s.setCore n y).brim = s.brim := rfl
@[simp] theorem State.setCore_boot (y : Epru) : (s.setCore n y).boot = s.boot := rfl
@[simp] theorem State.setCore_pins (y : Epru) : (s.setCore n y).pins = s.pins := rfl
@[simp] theorem State.setCore_pwr (y : Epru) : (s.setCore n y).pwr = s.pwr := rfl
@[simp] theorem State.setCore_log (y : Epru) : (s.setCore n y).log = s.log := rfl
@[simp] theorem State.setCore_mgmt (y : Epru) : (s.setCore n y).mgmt = s.mgmt := rfl
@[simp] theorem State.core_setCore_same (y : Epru) : (s.setCore n y).core n = y := mget_mput_same _ _ _ _
theorem State.core_setCore_ne (y : Epru) (h : i ≠ n) : (s.setCore n y).core i = s.core i := mget_mput_ne _ _ _ _ _ _ h

@[simp] theorem State.setSp_pending (y : SpCore) : (s.setSp n y).pending = s.pending := rfl
@[simp] theorem State.setSp_clk (y : SpCore) : (s.setSp n y).clk = s.clk := rfl
@[simp] theorem State.setSp_freeCtr (y : SpCore) : (s.setSp n y).freeCtr = s.freeCtr := rfl
@[simp] theorem State.setSp_regs (y : SpCore) : (s.setSp n y).regs = s.regs := rfl
@[simp] theorem State.setSp_wHold (y : SpCore) : (s.setSp n y).wHold = s.wHold := rfl
@[simp] theorem State.setSp_rHold (y : SpCore) : (s.setSp n y).rHold = s.rHold := rfl
@[simp] theorem State.setSp_ring (y : SpCore) : (s.setSp n y).ring = s.ring := rfl
@[simp] theorem State.setSp_evtSeen (y : SpCore) : (s.setSp n y).evtSeen = s.evtSeen := rfl
@[simp] theorem State.setSp_sp (y : SpCore) : (s.setSp n y).sp = s.sp := rfl
@[simp] theorem State.setSp_spCode (y : SpCore) : (s.setSp n y).spCode = s.spCode := rfl
@[simp] theorem State.setSp_spTag (y : SpCore) : (s.setSp n y).spTag = s.spTag := rfl
@[simp] theorem State.setSp_fbc (y : SpCore) : (s.setSp n y).fbc = s.fbc := rfl
@[simp] theorem State.setSp_flights (y : SpCore) : (s.setSp n y).flights = s.flights := rfl
@[simp] theorem State.setSp_rimDown (y : SpCore) : (s.setSp n y).rimDown = s.rimDown := rfl
@[simp] theorem State.setSp_bow (y : SpCore) : (s.setSp n y).bow = s.bow := rfl
@[simp] theorem State.setSp_nextBow (y : SpCore) : (s.setSp n y).nextBow = s.nextBow := rfl
@[simp] theorem State.setSp_bowBus (y : SpCore) : (s.setSp n y).bowBus = s.bowBus := rfl
@[simp] theorem State.setSp_ep (y : SpCore) : (s.setSp n y).ep = s.ep := rfl
@[simp] theorem State.setSp_tracts (y : SpCore) : (s.setSp n y).tracts = s.tracts := rfl
@[simp] theorem State.setSp_mx (y : SpCore) : (s.setSp n y).mx = s.mx := rfl
@[simp] theorem State.setSp_vx (y : SpCore) : (s.setSp n y).vx = s.vx := rfl
@[simp] theorem State.setSp_stp (y : SpCore) : (s.setSp n y).stp = s.stp := rfl
@[simp] theorem State.setSp_hbm (y : SpCore) : (s.setSp n y).hbm = s.hbm := rfl
@[simp] theorem State.setSp_hbmPoison (y : SpCore) : (s.setSp n y).hbmPoison = s.hbmPoison := rfl
@[simp] theorem State.setSp_hbmErr (y : SpCore) : (s.setSp n y).hbmErr = s.hbmErr := rfl
@[simp] theorem State.setSp_chans (y : SpCore) : (s.setSp n y).chans = s.chans := rfl
@[simp] theorem State.setSp_stk (y : SpCore) : (s.setSp n y).stk = s.stk := rfl
@[simp] theorem State.setSp_gs (y : SpCore) : (s.setSp n y).gs = s.gs := rfl
@[simp] theorem State.setSp_rack (y : SpCore) : (s.setSp n y).rack = s.rack := rfl
@[simp] theorem State.setSp_red (y : SpCore) : (s.setSp n y).red = s.red := rfl
@[simp] theorem State.setSp_hlth (y : SpCore) : (s.setSp n y).hlth = s.hlth := rfl
@[simp] theorem State.setSp_host (y : SpCore) : (s.setSp n y).host = s.host := rfl
@[simp] theorem State.setSp_brim (y : SpCore) : (s.setSp n y).brim = s.brim := rfl
@[simp] theorem State.setSp_boot (y : SpCore) : (s.setSp n y).boot = s.boot := rfl
@[simp] theorem State.setSp_pins (y : SpCore) : (s.setSp n y).pins = s.pins := rfl
@[simp] theorem State.setSp_pwr (y : SpCore) : (s.setSp n y).pwr = s.pwr := rfl
@[simp] theorem State.setSp_log (y : SpCore) : (s.setSp n y).log = s.log := rfl
@[simp] theorem State.setSp_mgmt (y : SpCore) : (s.setSp n y).mgmt = s.mgmt := rfl
@[simp] theorem State.spCore_setSp_same (y : SpCore) : (s.setSp n y).spCore n = y := mget_mput_same _ _ _ _
theorem State.spCore_setSp_ne (y : SpCore) (h : i ≠ n) : (s.setSp n y).spCore i = s.spCore i := mget_mput_ne _ _ _ _ _ _ h

@[simp] theorem State.setFb_pending (y : FbCore) : (s.setFb n y).pending = s.pending := rfl
@[simp] theorem State.setFb_clk (y : FbCore) : (s.setFb n y).clk = s.clk := rfl
@[simp] theorem State.setFb_freeCtr (y : FbCore) : (s.setFb n y).freeCtr = s.freeCtr := rfl
@[simp] theorem State.setFb_regs (y : FbCore) : (s.setFb n y).regs = s.regs := rfl
@[simp] theorem State.setFb_wHold (y : FbCore) : (s.setFb n y).wHold = s.wHold := rfl
@[simp] theorem State.setFb_rHold (y : FbCore) : (s.setFb n y).rHold = s.rHold := rfl
@[simp] theorem State.setFb_ring (y : FbCore) : (s.setFb n y).ring = s.ring := rfl
@[simp] theorem State.setFb_evtSeen (y : FbCore) : (s.setFb n y).evtSeen = s.evtSeen := rfl
@[simp] theorem State.setFb_sp (y : FbCore) : (s.setFb n y).sp = s.sp := rfl
@[simp] theorem State.setFb_spCode (y : FbCore) : (s.setFb n y).spCode = s.spCode := rfl
@[simp] theorem State.setFb_spTag (y : FbCore) : (s.setFb n y).spTag = s.spTag := rfl
@[simp] theorem State.setFb_spc (y : FbCore) : (s.setFb n y).spc = s.spc := rfl
@[simp] theorem State.setFb_flights (y : FbCore) : (s.setFb n y).flights = s.flights := rfl
@[simp] theorem State.setFb_rimDown (y : FbCore) : (s.setFb n y).rimDown = s.rimDown := rfl
@[simp] theorem State.setFb_bow (y : FbCore) : (s.setFb n y).bow = s.bow := rfl
@[simp] theorem State.setFb_nextBow (y : FbCore) : (s.setFb n y).nextBow = s.nextBow := rfl
@[simp] theorem State.setFb_bowBus (y : FbCore) : (s.setFb n y).bowBus = s.bowBus := rfl
@[simp] theorem State.setFb_ep (y : FbCore) : (s.setFb n y).ep = s.ep := rfl
@[simp] theorem State.setFb_tracts (y : FbCore) : (s.setFb n y).tracts = s.tracts := rfl
@[simp] theorem State.setFb_mx (y : FbCore) : (s.setFb n y).mx = s.mx := rfl
@[simp] theorem State.setFb_vx (y : FbCore) : (s.setFb n y).vx = s.vx := rfl
@[simp] theorem State.setFb_stp (y : FbCore) : (s.setFb n y).stp = s.stp := rfl
@[simp] theorem State.setFb_hbm (y : FbCore) : (s.setFb n y).hbm = s.hbm := rfl
@[simp] theorem State.setFb_hbmPoison (y : FbCore) : (s.setFb n y).hbmPoison = s.hbmPoison := rfl
@[simp] theorem State.setFb_hbmErr (y : FbCore) : (s.setFb n y).hbmErr = s.hbmErr := rfl
@[simp] theorem State.setFb_chans (y : FbCore) : (s.setFb n y).chans = s.chans := rfl
@[simp] theorem State.setFb_stk (y : FbCore) : (s.setFb n y).stk = s.stk := rfl
@[simp] theorem State.setFb_gs (y : FbCore) : (s.setFb n y).gs = s.gs := rfl
@[simp] theorem State.setFb_rack (y : FbCore) : (s.setFb n y).rack = s.rack := rfl
@[simp] theorem State.setFb_red (y : FbCore) : (s.setFb n y).red = s.red := rfl
@[simp] theorem State.setFb_hlth (y : FbCore) : (s.setFb n y).hlth = s.hlth := rfl
@[simp] theorem State.setFb_host (y : FbCore) : (s.setFb n y).host = s.host := rfl
@[simp] theorem State.setFb_brim (y : FbCore) : (s.setFb n y).brim = s.brim := rfl
@[simp] theorem State.setFb_boot (y : FbCore) : (s.setFb n y).boot = s.boot := rfl
@[simp] theorem State.setFb_pins (y : FbCore) : (s.setFb n y).pins = s.pins := rfl
@[simp] theorem State.setFb_pwr (y : FbCore) : (s.setFb n y).pwr = s.pwr := rfl
@[simp] theorem State.setFb_log (y : FbCore) : (s.setFb n y).log = s.log := rfl
@[simp] theorem State.setFb_mgmt (y : FbCore) : (s.setFb n y).mgmt = s.mgmt := rfl
@[simp] theorem State.fb_setFb_same (y : FbCore) : (s.setFb n y).fb n = y := mget_mput_same _ _ _ _
theorem State.fb_setFb_ne (y : FbCore) (h : i ≠ n) : (s.setFb n y).fb i = s.fb i := mget_mput_ne _ _ _ _ _ _ h

@[simp] theorem State.setMx_pending (y : Mx) : (s.setMx n y).pending = s.pending := rfl
@[simp] theorem State.setMx_clk (y : Mx) : (s.setMx n y).clk = s.clk := rfl
@[simp] theorem State.setMx_freeCtr (y : Mx) : (s.setMx n y).freeCtr = s.freeCtr := rfl
@[simp] theorem State.setMx_regs (y : Mx) : (s.setMx n y).regs = s.regs := rfl
@[simp] theorem State.setMx_wHold (y : Mx) : (s.setMx n y).wHold = s.wHold := rfl
@[simp] theorem State.setMx_rHold (y : Mx) : (s.setMx n y).rHold = s.rHold := rfl
@[simp] theorem State.setMx_ring (y : Mx) : (s.setMx n y).ring = s.ring := rfl
@[simp] theorem State.setMx_evtSeen (y : Mx) : (s.setMx n y).evtSeen = s.evtSeen := rfl
@[simp] theorem State.setMx_sp (y : Mx) : (s.setMx n y).sp = s.sp := rfl
@[simp] theorem State.setMx_spCode (y : Mx) : (s.setMx n y).spCode = s.spCode := rfl
@[simp] theorem State.setMx_spTag (y : Mx) : (s.setMx n y).spTag = s.spTag := rfl
@[simp] theorem State.setMx_spc (y : Mx) : (s.setMx n y).spc = s.spc := rfl
@[simp] theorem State.setMx_fbc (y : Mx) : (s.setMx n y).fbc = s.fbc := rfl
@[simp] theorem State.setMx_flights (y : Mx) : (s.setMx n y).flights = s.flights := rfl
@[simp] theorem State.setMx_rimDown (y : Mx) : (s.setMx n y).rimDown = s.rimDown := rfl
@[simp] theorem State.setMx_bow (y : Mx) : (s.setMx n y).bow = s.bow := rfl
@[simp] theorem State.setMx_nextBow (y : Mx) : (s.setMx n y).nextBow = s.nextBow := rfl
@[simp] theorem State.setMx_bowBus (y : Mx) : (s.setMx n y).bowBus = s.bowBus := rfl
@[simp] theorem State.setMx_ep (y : Mx) : (s.setMx n y).ep = s.ep := rfl
@[simp] theorem State.setMx_tracts (y : Mx) : (s.setMx n y).tracts = s.tracts := rfl
@[simp] theorem State.setMx_vx (y : Mx) : (s.setMx n y).vx = s.vx := rfl
@[simp] theorem State.setMx_stp (y : Mx) : (s.setMx n y).stp = s.stp := rfl
@[simp] theorem State.setMx_hbm (y : Mx) : (s.setMx n y).hbm = s.hbm := rfl
@[simp] theorem State.setMx_hbmPoison (y : Mx) : (s.setMx n y).hbmPoison = s.hbmPoison := rfl
@[simp] theorem State.setMx_hbmErr (y : Mx) : (s.setMx n y).hbmErr = s.hbmErr := rfl
@[simp] theorem State.setMx_chans (y : Mx) : (s.setMx n y).chans = s.chans := rfl
@[simp] theorem State.setMx_stk (y : Mx) : (s.setMx n y).stk = s.stk := rfl
@[simp] theorem State.setMx_gs (y : Mx) : (s.setMx n y).gs = s.gs := rfl
@[simp] theorem State.setMx_rack (y : Mx) : (s.setMx n y).rack = s.rack := rfl
@[simp] theorem State.setMx_red (y : Mx) : (s.setMx n y).red = s.red := rfl
@[simp] theorem State.setMx_hlth (y : Mx) : (s.setMx n y).hlth = s.hlth := rfl
@[simp] theorem State.setMx_host (y : Mx) : (s.setMx n y).host = s.host := rfl
@[simp] theorem State.setMx_brim (y : Mx) : (s.setMx n y).brim = s.brim := rfl
@[simp] theorem State.setMx_boot (y : Mx) : (s.setMx n y).boot = s.boot := rfl
@[simp] theorem State.setMx_pins (y : Mx) : (s.setMx n y).pins = s.pins := rfl
@[simp] theorem State.setMx_pwr (y : Mx) : (s.setMx n y).pwr = s.pwr := rfl
@[simp] theorem State.setMx_log (y : Mx) : (s.setMx n y).log = s.log := rfl
@[simp] theorem State.setMx_mgmt (y : Mx) : (s.setMx n y).mgmt = s.mgmt := rfl
@[simp] theorem State.mxc_setMx_same (y : Mx) : (s.setMx n y).mxc n = y := mget_mput_same _ _ _ _
theorem State.mxc_setMx_ne (y : Mx) (h : i ≠ n) : (s.setMx n y).mxc i = s.mxc i := mget_mput_ne _ _ _ _ _ _ h

@[simp] theorem State.setVx_pending (y : Vx) : (s.setVx n y).pending = s.pending := rfl
@[simp] theorem State.setVx_clk (y : Vx) : (s.setVx n y).clk = s.clk := rfl
@[simp] theorem State.setVx_freeCtr (y : Vx) : (s.setVx n y).freeCtr = s.freeCtr := rfl
@[simp] theorem State.setVx_regs (y : Vx) : (s.setVx n y).regs = s.regs := rfl
@[simp] theorem State.setVx_wHold (y : Vx) : (s.setVx n y).wHold = s.wHold := rfl
@[simp] theorem State.setVx_rHold (y : Vx) : (s.setVx n y).rHold = s.rHold := rfl
@[simp] theorem State.setVx_ring (y : Vx) : (s.setVx n y).ring = s.ring := rfl
@[simp] theorem State.setVx_evtSeen (y : Vx) : (s.setVx n y).evtSeen = s.evtSeen := rfl
@[simp] theorem State.setVx_sp (y : Vx) : (s.setVx n y).sp = s.sp := rfl
@[simp] theorem State.setVx_spCode (y : Vx) : (s.setVx n y).spCode = s.spCode := rfl
@[simp] theorem State.setVx_spTag (y : Vx) : (s.setVx n y).spTag = s.spTag := rfl
@[simp] theorem State.setVx_spc (y : Vx) : (s.setVx n y).spc = s.spc := rfl
@[simp] theorem State.setVx_fbc (y : Vx) : (s.setVx n y).fbc = s.fbc := rfl
@[simp] theorem State.setVx_flights (y : Vx) : (s.setVx n y).flights = s.flights := rfl
@[simp] theorem State.setVx_rimDown (y : Vx) : (s.setVx n y).rimDown = s.rimDown := rfl
@[simp] theorem State.setVx_bow (y : Vx) : (s.setVx n y).bow = s.bow := rfl
@[simp] theorem State.setVx_nextBow (y : Vx) : (s.setVx n y).nextBow = s.nextBow := rfl
@[simp] theorem State.setVx_bowBus (y : Vx) : (s.setVx n y).bowBus = s.bowBus := rfl
@[simp] theorem State.setVx_ep (y : Vx) : (s.setVx n y).ep = s.ep := rfl
@[simp] theorem State.setVx_tracts (y : Vx) : (s.setVx n y).tracts = s.tracts := rfl
@[simp] theorem State.setVx_mx (y : Vx) : (s.setVx n y).mx = s.mx := rfl
@[simp] theorem State.setVx_stp (y : Vx) : (s.setVx n y).stp = s.stp := rfl
@[simp] theorem State.setVx_hbm (y : Vx) : (s.setVx n y).hbm = s.hbm := rfl
@[simp] theorem State.setVx_hbmPoison (y : Vx) : (s.setVx n y).hbmPoison = s.hbmPoison := rfl
@[simp] theorem State.setVx_hbmErr (y : Vx) : (s.setVx n y).hbmErr = s.hbmErr := rfl
@[simp] theorem State.setVx_chans (y : Vx) : (s.setVx n y).chans = s.chans := rfl
@[simp] theorem State.setVx_stk (y : Vx) : (s.setVx n y).stk = s.stk := rfl
@[simp] theorem State.setVx_gs (y : Vx) : (s.setVx n y).gs = s.gs := rfl
@[simp] theorem State.setVx_rack (y : Vx) : (s.setVx n y).rack = s.rack := rfl
@[simp] theorem State.setVx_red (y : Vx) : (s.setVx n y).red = s.red := rfl
@[simp] theorem State.setVx_hlth (y : Vx) : (s.setVx n y).hlth = s.hlth := rfl
@[simp] theorem State.setVx_host (y : Vx) : (s.setVx n y).host = s.host := rfl
@[simp] theorem State.setVx_brim (y : Vx) : (s.setVx n y).brim = s.brim := rfl
@[simp] theorem State.setVx_boot (y : Vx) : (s.setVx n y).boot = s.boot := rfl
@[simp] theorem State.setVx_pins (y : Vx) : (s.setVx n y).pins = s.pins := rfl
@[simp] theorem State.setVx_pwr (y : Vx) : (s.setVx n y).pwr = s.pwr := rfl
@[simp] theorem State.setVx_log (y : Vx) : (s.setVx n y).log = s.log := rfl
@[simp] theorem State.setVx_mgmt (y : Vx) : (s.setVx n y).mgmt = s.mgmt := rfl
@[simp] theorem State.vxc_setVx_same (y : Vx) : (s.setVx n y).vxc n = y := mget_mput_same _ _ _ _
theorem State.vxc_setVx_ne (y : Vx) (h : i ≠ n) : (s.setVx n y).vxc i = s.vxc i := mget_mput_ne _ _ _ _ _ _ h

@[simp] theorem State.setStp_pending (y : Stp) : (s.setStp n y).pending = s.pending := rfl
@[simp] theorem State.setStp_clk (y : Stp) : (s.setStp n y).clk = s.clk := rfl
@[simp] theorem State.setStp_freeCtr (y : Stp) : (s.setStp n y).freeCtr = s.freeCtr := rfl
@[simp] theorem State.setStp_regs (y : Stp) : (s.setStp n y).regs = s.regs := rfl
@[simp] theorem State.setStp_wHold (y : Stp) : (s.setStp n y).wHold = s.wHold := rfl
@[simp] theorem State.setStp_rHold (y : Stp) : (s.setStp n y).rHold = s.rHold := rfl
@[simp] theorem State.setStp_ring (y : Stp) : (s.setStp n y).ring = s.ring := rfl
@[simp] theorem State.setStp_evtSeen (y : Stp) : (s.setStp n y).evtSeen = s.evtSeen := rfl
@[simp] theorem State.setStp_sp (y : Stp) : (s.setStp n y).sp = s.sp := rfl
@[simp] theorem State.setStp_spCode (y : Stp) : (s.setStp n y).spCode = s.spCode := rfl
@[simp] theorem State.setStp_spTag (y : Stp) : (s.setStp n y).spTag = s.spTag := rfl
@[simp] theorem State.setStp_spc (y : Stp) : (s.setStp n y).spc = s.spc := rfl
@[simp] theorem State.setStp_fbc (y : Stp) : (s.setStp n y).fbc = s.fbc := rfl
@[simp] theorem State.setStp_flights (y : Stp) : (s.setStp n y).flights = s.flights := rfl
@[simp] theorem State.setStp_rimDown (y : Stp) : (s.setStp n y).rimDown = s.rimDown := rfl
@[simp] theorem State.setStp_bow (y : Stp) : (s.setStp n y).bow = s.bow := rfl
@[simp] theorem State.setStp_nextBow (y : Stp) : (s.setStp n y).nextBow = s.nextBow := rfl
@[simp] theorem State.setStp_bowBus (y : Stp) : (s.setStp n y).bowBus = s.bowBus := rfl
@[simp] theorem State.setStp_ep (y : Stp) : (s.setStp n y).ep = s.ep := rfl
@[simp] theorem State.setStp_tracts (y : Stp) : (s.setStp n y).tracts = s.tracts := rfl
@[simp] theorem State.setStp_mx (y : Stp) : (s.setStp n y).mx = s.mx := rfl
@[simp] theorem State.setStp_vx (y : Stp) : (s.setStp n y).vx = s.vx := rfl
@[simp] theorem State.setStp_hbm (y : Stp) : (s.setStp n y).hbm = s.hbm := rfl
@[simp] theorem State.setStp_hbmPoison (y : Stp) : (s.setStp n y).hbmPoison = s.hbmPoison := rfl
@[simp] theorem State.setStp_hbmErr (y : Stp) : (s.setStp n y).hbmErr = s.hbmErr := rfl
@[simp] theorem State.setStp_chans (y : Stp) : (s.setStp n y).chans = s.chans := rfl
@[simp] theorem State.setStp_stk (y : Stp) : (s.setStp n y).stk = s.stk := rfl
@[simp] theorem State.setStp_gs (y : Stp) : (s.setStp n y).gs = s.gs := rfl
@[simp] theorem State.setStp_rack (y : Stp) : (s.setStp n y).rack = s.rack := rfl
@[simp] theorem State.setStp_red (y : Stp) : (s.setStp n y).red = s.red := rfl
@[simp] theorem State.setStp_hlth (y : Stp) : (s.setStp n y).hlth = s.hlth := rfl
@[simp] theorem State.setStp_host (y : Stp) : (s.setStp n y).host = s.host := rfl
@[simp] theorem State.setStp_brim (y : Stp) : (s.setStp n y).brim = s.brim := rfl
@[simp] theorem State.setStp_boot (y : Stp) : (s.setStp n y).boot = s.boot := rfl
@[simp] theorem State.setStp_pins (y : Stp) : (s.setStp n y).pins = s.pins := rfl
@[simp] theorem State.setStp_pwr (y : Stp) : (s.setStp n y).pwr = s.pwr := rfl
@[simp] theorem State.setStp_log (y : Stp) : (s.setStp n y).log = s.log := rfl
@[simp] theorem State.setStp_mgmt (y : Stp) : (s.setStp n y).mgmt = s.mgmt := rfl
@[simp] theorem State.stpc_setStp_same (y : Stp) : (s.setStp n y).stpc n = y := mget_mput_same _ _ _ _
theorem State.stpc_setStp_ne (y : Stp) (h : i ≠ n) : (s.setStp n y).stpc i = s.stpc i := mget_mput_ne _ _ _ _ _ _ h

@[simp] theorem State.setChan_pending (y : HChan) : (s.setChan n y).pending = s.pending := rfl
@[simp] theorem State.setChan_clk (y : HChan) : (s.setChan n y).clk = s.clk := rfl
@[simp] theorem State.setChan_freeCtr (y : HChan) : (s.setChan n y).freeCtr = s.freeCtr := rfl
@[simp] theorem State.setChan_regs (y : HChan) : (s.setChan n y).regs = s.regs := rfl
@[simp] theorem State.setChan_wHold (y : HChan) : (s.setChan n y).wHold = s.wHold := rfl
@[simp] theorem State.setChan_rHold (y : HChan) : (s.setChan n y).rHold = s.rHold := rfl
@[simp] theorem State.setChan_ring (y : HChan) : (s.setChan n y).ring = s.ring := rfl
@[simp] theorem State.setChan_evtSeen (y : HChan) : (s.setChan n y).evtSeen = s.evtSeen := rfl
@[simp] theorem State.setChan_sp (y : HChan) : (s.setChan n y).sp = s.sp := rfl
@[simp] theorem State.setChan_spCode (y : HChan) : (s.setChan n y).spCode = s.spCode := rfl
@[simp] theorem State.setChan_spTag (y : HChan) : (s.setChan n y).spTag = s.spTag := rfl
@[simp] theorem State.setChan_spc (y : HChan) : (s.setChan n y).spc = s.spc := rfl
@[simp] theorem State.setChan_fbc (y : HChan) : (s.setChan n y).fbc = s.fbc := rfl
@[simp] theorem State.setChan_flights (y : HChan) : (s.setChan n y).flights = s.flights := rfl
@[simp] theorem State.setChan_rimDown (y : HChan) : (s.setChan n y).rimDown = s.rimDown := rfl
@[simp] theorem State.setChan_bow (y : HChan) : (s.setChan n y).bow = s.bow := rfl
@[simp] theorem State.setChan_nextBow (y : HChan) : (s.setChan n y).nextBow = s.nextBow := rfl
@[simp] theorem State.setChan_bowBus (y : HChan) : (s.setChan n y).bowBus = s.bowBus := rfl
@[simp] theorem State.setChan_ep (y : HChan) : (s.setChan n y).ep = s.ep := rfl
@[simp] theorem State.setChan_tracts (y : HChan) : (s.setChan n y).tracts = s.tracts := rfl
@[simp] theorem State.setChan_mx (y : HChan) : (s.setChan n y).mx = s.mx := rfl
@[simp] theorem State.setChan_vx (y : HChan) : (s.setChan n y).vx = s.vx := rfl
@[simp] theorem State.setChan_stp (y : HChan) : (s.setChan n y).stp = s.stp := rfl
@[simp] theorem State.setChan_hbm (y : HChan) : (s.setChan n y).hbm = s.hbm := rfl
@[simp] theorem State.setChan_hbmPoison (y : HChan) : (s.setChan n y).hbmPoison = s.hbmPoison := rfl
@[simp] theorem State.setChan_hbmErr (y : HChan) : (s.setChan n y).hbmErr = s.hbmErr := rfl
@[simp] theorem State.setChan_stk (y : HChan) : (s.setChan n y).stk = s.stk := rfl
@[simp] theorem State.setChan_gs (y : HChan) : (s.setChan n y).gs = s.gs := rfl
@[simp] theorem State.setChan_rack (y : HChan) : (s.setChan n y).rack = s.rack := rfl
@[simp] theorem State.setChan_red (y : HChan) : (s.setChan n y).red = s.red := rfl
@[simp] theorem State.setChan_hlth (y : HChan) : (s.setChan n y).hlth = s.hlth := rfl
@[simp] theorem State.setChan_host (y : HChan) : (s.setChan n y).host = s.host := rfl
@[simp] theorem State.setChan_brim (y : HChan) : (s.setChan n y).brim = s.brim := rfl
@[simp] theorem State.setChan_boot (y : HChan) : (s.setChan n y).boot = s.boot := rfl
@[simp] theorem State.setChan_pins (y : HChan) : (s.setChan n y).pins = s.pins := rfl
@[simp] theorem State.setChan_pwr (y : HChan) : (s.setChan n y).pwr = s.pwr := rfl
@[simp] theorem State.setChan_log (y : HChan) : (s.setChan n y).log = s.log := rfl
@[simp] theorem State.setChan_mgmt (y : HChan) : (s.setChan n y).mgmt = s.mgmt := rfl
@[simp] theorem State.chan_setChan_same (y : HChan) : (s.setChan n y).chan n = y := mget_mput_same _ _ _ _
theorem State.chan_setChan_ne (y : HChan) (h : i ≠ n) : (s.setChan n y).chan i = s.chan i := mget_mput_ne _ _ _ _ _ _ h

@[simp] theorem State.setStack_pending (y : HStack) : (s.setStack n y).pending = s.pending := rfl
@[simp] theorem State.setStack_clk (y : HStack) : (s.setStack n y).clk = s.clk := rfl
@[simp] theorem State.setStack_freeCtr (y : HStack) : (s.setStack n y).freeCtr = s.freeCtr := rfl
@[simp] theorem State.setStack_regs (y : HStack) : (s.setStack n y).regs = s.regs := rfl
@[simp] theorem State.setStack_wHold (y : HStack) : (s.setStack n y).wHold = s.wHold := rfl
@[simp] theorem State.setStack_rHold (y : HStack) : (s.setStack n y).rHold = s.rHold := rfl
@[simp] theorem State.setStack_ring (y : HStack) : (s.setStack n y).ring = s.ring := rfl
@[simp] theorem State.setStack_evtSeen (y : HStack) : (s.setStack n y).evtSeen = s.evtSeen := rfl
@[simp] theorem State.setStack_sp (y : HStack) : (s.setStack n y).sp = s.sp := rfl
@[simp] theorem State.setStack_spCode (y : HStack) : (s.setStack n y).spCode = s.spCode := rfl
@[simp] theorem State.setStack_spTag (y : HStack) : (s.setStack n y).spTag = s.spTag := rfl
@[simp] theorem State.setStack_spc (y : HStack) : (s.setStack n y).spc = s.spc := rfl
@[simp] theorem State.setStack_fbc (y : HStack) : (s.setStack n y).fbc = s.fbc := rfl
@[simp] theorem State.setStack_flights (y : HStack) : (s.setStack n y).flights = s.flights := rfl
@[simp] theorem State.setStack_rimDown (y : HStack) : (s.setStack n y).rimDown = s.rimDown := rfl
@[simp] theorem State.setStack_bow (y : HStack) : (s.setStack n y).bow = s.bow := rfl
@[simp] theorem State.setStack_nextBow (y : HStack) : (s.setStack n y).nextBow = s.nextBow := rfl
@[simp] theorem State.setStack_bowBus (y : HStack) : (s.setStack n y).bowBus = s.bowBus := rfl
@[simp] theorem State.setStack_ep (y : HStack) : (s.setStack n y).ep = s.ep := rfl
@[simp] theorem State.setStack_tracts (y : HStack) : (s.setStack n y).tracts = s.tracts := rfl
@[simp] theorem State.setStack_mx (y : HStack) : (s.setStack n y).mx = s.mx := rfl
@[simp] theorem State.setStack_vx (y : HStack) : (s.setStack n y).vx = s.vx := rfl
@[simp] theorem State.setStack_stp (y : HStack) : (s.setStack n y).stp = s.stp := rfl
@[simp] theorem State.setStack_hbm (y : HStack) : (s.setStack n y).hbm = s.hbm := rfl
@[simp] theorem State.setStack_hbmPoison (y : HStack) : (s.setStack n y).hbmPoison = s.hbmPoison := rfl
@[simp] theorem State.setStack_hbmErr (y : HStack) : (s.setStack n y).hbmErr = s.hbmErr := rfl
@[simp] theorem State.setStack_chans (y : HStack) : (s.setStack n y).chans = s.chans := rfl
@[simp] theorem State.setStack_gs (y : HStack) : (s.setStack n y).gs = s.gs := rfl
@[simp] theorem State.setStack_rack (y : HStack) : (s.setStack n y).rack = s.rack := rfl
@[simp] theorem State.setStack_red (y : HStack) : (s.setStack n y).red = s.red := rfl
@[simp] theorem State.setStack_hlth (y : HStack) : (s.setStack n y).hlth = s.hlth := rfl
@[simp] theorem State.setStack_host (y : HStack) : (s.setStack n y).host = s.host := rfl
@[simp] theorem State.setStack_brim (y : HStack) : (s.setStack n y).brim = s.brim := rfl
@[simp] theorem State.setStack_boot (y : HStack) : (s.setStack n y).boot = s.boot := rfl
@[simp] theorem State.setStack_pins (y : HStack) : (s.setStack n y).pins = s.pins := rfl
@[simp] theorem State.setStack_pwr (y : HStack) : (s.setStack n y).pwr = s.pwr := rfl
@[simp] theorem State.setStack_log (y : HStack) : (s.setStack n y).log = s.log := rfl
@[simp] theorem State.setStack_mgmt (y : HStack) : (s.setStack n y).mgmt = s.mgmt := rfl
@[simp] theorem State.stack_setStack_same (y : HStack) : (s.setStack n y).stack n = y := mget_mput_same _ _ _ _
theorem State.stack_setStack_ne (y : HStack) (h : i ≠ n) : (s.setStack n y).stack i = s.stack i := mget_mput_ne _ _ _ _ _ _ h

@[simp] theorem State.setGrist_pending (y : Grist) : (s.setGrist n y).pending = s.pending := rfl
@[simp] theorem State.setGrist_clk (y : Grist) : (s.setGrist n y).clk = s.clk := rfl
@[simp] theorem State.setGrist_freeCtr (y : Grist) : (s.setGrist n y).freeCtr = s.freeCtr := rfl
@[simp] theorem State.setGrist_regs (y : Grist) : (s.setGrist n y).regs = s.regs := rfl
@[simp] theorem State.setGrist_wHold (y : Grist) : (s.setGrist n y).wHold = s.wHold := rfl
@[simp] theorem State.setGrist_rHold (y : Grist) : (s.setGrist n y).rHold = s.rHold := rfl
@[simp] theorem State.setGrist_ring (y : Grist) : (s.setGrist n y).ring = s.ring := rfl
@[simp] theorem State.setGrist_evtSeen (y : Grist) : (s.setGrist n y).evtSeen = s.evtSeen := rfl
@[simp] theorem State.setGrist_sp (y : Grist) : (s.setGrist n y).sp = s.sp := rfl
@[simp] theorem State.setGrist_spCode (y : Grist) : (s.setGrist n y).spCode = s.spCode := rfl
@[simp] theorem State.setGrist_spTag (y : Grist) : (s.setGrist n y).spTag = s.spTag := rfl
@[simp] theorem State.setGrist_spc (y : Grist) : (s.setGrist n y).spc = s.spc := rfl
@[simp] theorem State.setGrist_fbc (y : Grist) : (s.setGrist n y).fbc = s.fbc := rfl
@[simp] theorem State.setGrist_flights (y : Grist) : (s.setGrist n y).flights = s.flights := rfl
@[simp] theorem State.setGrist_rimDown (y : Grist) : (s.setGrist n y).rimDown = s.rimDown := rfl
@[simp] theorem State.setGrist_bow (y : Grist) : (s.setGrist n y).bow = s.bow := rfl
@[simp] theorem State.setGrist_nextBow (y : Grist) : (s.setGrist n y).nextBow = s.nextBow := rfl
@[simp] theorem State.setGrist_bowBus (y : Grist) : (s.setGrist n y).bowBus = s.bowBus := rfl
@[simp] theorem State.setGrist_ep (y : Grist) : (s.setGrist n y).ep = s.ep := rfl
@[simp] theorem State.setGrist_tracts (y : Grist) : (s.setGrist n y).tracts = s.tracts := rfl
@[simp] theorem State.setGrist_mx (y : Grist) : (s.setGrist n y).mx = s.mx := rfl
@[simp] theorem State.setGrist_vx (y : Grist) : (s.setGrist n y).vx = s.vx := rfl
@[simp] theorem State.setGrist_stp (y : Grist) : (s.setGrist n y).stp = s.stp := rfl
@[simp] theorem State.setGrist_hbm (y : Grist) : (s.setGrist n y).hbm = s.hbm := rfl
@[simp] theorem State.setGrist_hbmPoison (y : Grist) : (s.setGrist n y).hbmPoison = s.hbmPoison := rfl
@[simp] theorem State.setGrist_hbmErr (y : Grist) : (s.setGrist n y).hbmErr = s.hbmErr := rfl
@[simp] theorem State.setGrist_chans (y : Grist) : (s.setGrist n y).chans = s.chans := rfl
@[simp] theorem State.setGrist_stk (y : Grist) : (s.setGrist n y).stk = s.stk := rfl
@[simp] theorem State.setGrist_rack (y : Grist) : (s.setGrist n y).rack = s.rack := rfl
@[simp] theorem State.setGrist_red (y : Grist) : (s.setGrist n y).red = s.red := rfl
@[simp] theorem State.setGrist_hlth (y : Grist) : (s.setGrist n y).hlth = s.hlth := rfl
@[simp] theorem State.setGrist_host (y : Grist) : (s.setGrist n y).host = s.host := rfl
@[simp] theorem State.setGrist_brim (y : Grist) : (s.setGrist n y).brim = s.brim := rfl
@[simp] theorem State.setGrist_boot (y : Grist) : (s.setGrist n y).boot = s.boot := rfl
@[simp] theorem State.setGrist_pins (y : Grist) : (s.setGrist n y).pins = s.pins := rfl
@[simp] theorem State.setGrist_pwr (y : Grist) : (s.setGrist n y).pwr = s.pwr := rfl
@[simp] theorem State.setGrist_log (y : Grist) : (s.setGrist n y).log = s.log := rfl
@[simp] theorem State.setGrist_mgmt (y : Grist) : (s.setGrist n y).mgmt = s.mgmt := rfl
@[simp] theorem State.grist_setGrist_same (y : Grist) : (s.setGrist n y).grist n = y := mget_mput_same _ _ _ _
theorem State.grist_setGrist_ne (y : Grist) (h : i ≠ n) : (s.setGrist n y).grist i = s.grist i := mget_mput_ne _ _ _ _ _ _ h

@[simp] theorem State.setTract_pending (y : Tract) : (s.setTract n y).pending = s.pending := rfl
@[simp] theorem State.setTract_clk (y : Tract) : (s.setTract n y).clk = s.clk := rfl
@[simp] theorem State.setTract_freeCtr (y : Tract) : (s.setTract n y).freeCtr = s.freeCtr := rfl
@[simp] theorem State.setTract_regs (y : Tract) : (s.setTract n y).regs = s.regs := rfl
@[simp] theorem State.setTract_wHold (y : Tract) : (s.setTract n y).wHold = s.wHold := rfl
@[simp] theorem State.setTract_rHold (y : Tract) : (s.setTract n y).rHold = s.rHold := rfl
@[simp] theorem State.setTract_ring (y : Tract) : (s.setTract n y).ring = s.ring := rfl
@[simp] theorem State.setTract_evtSeen (y : Tract) : (s.setTract n y).evtSeen = s.evtSeen := rfl
@[simp] theorem State.setTract_sp (y : Tract) : (s.setTract n y).sp = s.sp := rfl
@[simp] theorem State.setTract_spCode (y : Tract) : (s.setTract n y).spCode = s.spCode := rfl
@[simp] theorem State.setTract_spTag (y : Tract) : (s.setTract n y).spTag = s.spTag := rfl
@[simp] theorem State.setTract_spc (y : Tract) : (s.setTract n y).spc = s.spc := rfl
@[simp] theorem State.setTract_fbc (y : Tract) : (s.setTract n y).fbc = s.fbc := rfl
@[simp] theorem State.setTract_flights (y : Tract) : (s.setTract n y).flights = s.flights := rfl
@[simp] theorem State.setTract_rimDown (y : Tract) : (s.setTract n y).rimDown = s.rimDown := rfl
@[simp] theorem State.setTract_bow (y : Tract) : (s.setTract n y).bow = s.bow := rfl
@[simp] theorem State.setTract_nextBow (y : Tract) : (s.setTract n y).nextBow = s.nextBow := rfl
@[simp] theorem State.setTract_bowBus (y : Tract) : (s.setTract n y).bowBus = s.bowBus := rfl
@[simp] theorem State.setTract_ep (y : Tract) : (s.setTract n y).ep = s.ep := rfl
@[simp] theorem State.setTract_mx (y : Tract) : (s.setTract n y).mx = s.mx := rfl
@[simp] theorem State.setTract_vx (y : Tract) : (s.setTract n y).vx = s.vx := rfl
@[simp] theorem State.setTract_stp (y : Tract) : (s.setTract n y).stp = s.stp := rfl
@[simp] theorem State.setTract_hbm (y : Tract) : (s.setTract n y).hbm = s.hbm := rfl
@[simp] theorem State.setTract_hbmPoison (y : Tract) : (s.setTract n y).hbmPoison = s.hbmPoison := rfl
@[simp] theorem State.setTract_hbmErr (y : Tract) : (s.setTract n y).hbmErr = s.hbmErr := rfl
@[simp] theorem State.setTract_chans (y : Tract) : (s.setTract n y).chans = s.chans := rfl
@[simp] theorem State.setTract_stk (y : Tract) : (s.setTract n y).stk = s.stk := rfl
@[simp] theorem State.setTract_gs (y : Tract) : (s.setTract n y).gs = s.gs := rfl
@[simp] theorem State.setTract_rack (y : Tract) : (s.setTract n y).rack = s.rack := rfl
@[simp] theorem State.setTract_red (y : Tract) : (s.setTract n y).red = s.red := rfl
@[simp] theorem State.setTract_hlth (y : Tract) : (s.setTract n y).hlth = s.hlth := rfl
@[simp] theorem State.setTract_host (y : Tract) : (s.setTract n y).host = s.host := rfl
@[simp] theorem State.setTract_brim (y : Tract) : (s.setTract n y).brim = s.brim := rfl
@[simp] theorem State.setTract_boot (y : Tract) : (s.setTract n y).boot = s.boot := rfl
@[simp] theorem State.setTract_pins (y : Tract) : (s.setTract n y).pins = s.pins := rfl
@[simp] theorem State.setTract_pwr (y : Tract) : (s.setTract n y).pwr = s.pwr := rfl
@[simp] theorem State.setTract_log (y : Tract) : (s.setTract n y).log = s.log := rfl
@[simp] theorem State.setTract_mgmt (y : Tract) : (s.setTract n y).mgmt = s.mgmt := rfl
@[simp] theorem State.tract_setTract_same (y : Tract) : (s.setTract n y).tract n = y := mget_mput_same _ _ _ _
theorem State.tract_setTract_ne (y : Tract) (h : i ≠ n) : (s.setTract n y).tract i = s.tract i := mget_mput_ne _ _ _ _ _ _ h

end Sys2Proof.Machine
end

