-- ==== Sys2Proof/Laws/Ops.lean ====
section
/-! SUPPORT. What each shared operation over State does: registers and fields, counters, time, events, free values, packets. A proof
cites these and leaves the operations folded. -/

namespace Sys2Proof.Machine
open Sys2Proof

variable (s : State)

/-! ## Registers and fields -/

/-- A register that has been written reads as written, for an element with the same offset and reset value. -/
@[simp] theorem State.rd_wr_same (r : RegId) (v : Word64) (i j k : Nat) : (s.wr r v i j k).rd r i j k = v :=
  mget_mput_same _ _ _ _

/-- A write of another offset changes nothing in a register. -/
theorem State.rd_wr_ne (r r' : RegId) (v : Word64) (i j k i' j' k' : Nat) (h : r'.addr i' j' k' ≠ r.addr i j k) :
    (s.wr r v i j k).rd r' i' j' k' = s.rd r' i' j' k' := mget_mput_ne _ _ _ _ _ _ h

/-- All that a write of a register does to the map of registers. -/
theorem State.wr_regs_get (r : RegId) (v : Word64) (i j k a : Nat) (d : Word64) (h : a ≠ r.addr i j k) :
    mget d (s.wr r v i j k).regs a = mget d s.regs a := mget_mput_ne _ _ _ _ _ _ h

theorem State.fset_regs_get (f : Fld) (v i j k a : Nat) (d : Word64) (h : a ≠ f.reg.addr i j k) :
    mget d (s.fset f v i j k).regs a = mget d s.regs a := s.wr_regs_get f.reg _ i j k a d h

theorem State.rd_fset_ne (f : Fld) (r' : RegId) (v i j k i' j' k' : Nat) (h : r'.addr i' j' k' ≠ f.reg.addr i j k) :
    (s.fset f v i j k).rd r' i' j' k' = s.rd r' i' j' k' := s.rd_wr_ne _ _ _ _ _ _ _ _ _ h

/-- What a register holds after one of its fields has been set. -/
theorem State.rd_fset_same (f : Fld) (v i j k : Nat) (h : f.lo ≤ f.hi) (hw : f.hi < 64) :
    ((s.fset f v i j k).rd f.reg i j k).toNat = setBits (s.rd f.reg i j k).toNat f.hi f.lo v := by
  rw [State.fset, State.rd_wr_same, BitVec.toNat_ofNat]
  exact Nat.mod_eq_of_lt (setBits_lt _ _ _ _ _ h hw (s.rd f.reg i j k).isLt)

/-- A field that has been set reads as the value, cut to its width. -/
theorem State.fget_fset_same (f : Fld) (v i j k : Nat) (h : f.lo ≤ f.hi) (hw : f.hi < 64) :
    (s.fset f v i j k).fget f i j k = v % 2 ^ (f.hi + 1 - f.lo) := by
  rw [State.fget, s.rd_fset_same f v i j k h hw, bits_setBits_same _ _ _ _ h]

/-- Another field of the register stays. -/
theorem State.fget_fset_field (f g : Fld) (v i j k : Nat) (hr : g.reg = f.reg) (h : f.lo ≤ f.hi) (hw : f.hi < 64)
    (hd : g.hi < f.lo ∨ f.hi < g.lo) : (s.fset f v i j k).fget g i j k = s.fget g i j k := by
  rw [State.fget, State.fget, hr, s.rd_fset_same f v i j k h hw, bits_setBits_ne _ _ _ _ _ _ h hd]

/-- A field of a register at another offset stays. -/
theorem State.fget_fset_ne (f g : Fld) (v i j k i' j' k' : Nat) (h : g.reg.addr i' j' k' ≠ f.reg.addr i j k) :
    (s.fset f v i j k).fget g i' j' k' = s.fget g i' j' k' := by
  rw [State.fget, State.fget, s.rd_fset_ne _ _ _ _ _ _ _ _ _ h]

theorem State.fget_wr_ne (r : RegId) (g : Fld) (v : Word64) (i j k i' j' k' : Nat) (h : g.reg.addr i' j' k' ≠ r.addr i j k) :
    (s.wr r v i j k).fget g i' j' k' = s.fget g i' j' k' := by
  rw [State.fget, State.fget, s.rd_wr_ne _ _ _ _ _ _ _ _ _ h]

/-- A field within its width (R9). -/
theorem State.fget_lt (f : Fld) (i j k : Nat) : s.fget f i j k < 2 ^ (f.hi + 1 - f.lo) := bits_lt _ _ _

/-- Reading a register depends on the map of registers alone. -/
theorem State.rd_congr (t : State) (r : RegId) (i j k : Nat) (h : t.regs = s.regs) : t.rd r i j k = s.rd r i j k := by
  simp [State.rd, h]

theorem State.fget_congr (t : State) (f : Fld) (i j k : Nat) (h : t.regs = s.regs) : t.fget f i j k = s.fget f i j k := by
  simp [State.fget, s.rd_congr t _ _ _ _ h]

/-! ## Counters (R13, R525) -/

/-- All that counting does: the register, which saturates, and for some the lifetime log's count. -/
theorem State.count_eq (r : RegId) (n i j k : Nat) : ∃ l : LifeLog,
    s.count r n i j k = { s with
      log := l, regs := mput (r.init j) s.regs (r.addr i j k) (BitVec.ofNat 64 (min ((s.rd r i j k).toNat + n) (2 ^ 64 - 1))) } := by
  unfold State.count
  cases liveKey r i with
  | none => exact ⟨s.log, rfl⟩
  | some key => exact ⟨(s.life key n).log, rfl⟩

/-- A counter rises by n, or stands at its largest value. -/
theorem State.rd_count_same (r : RegId) (n i j k : Nat) :
    ((s.count r n i j k).rd r i j k).toNat = min ((s.rd r i j k).toNat + n) (2 ^ 64 - 1) := by
  obtain ⟨l, h⟩ := s.count_eq r n i j k
  rw [h, State.rd, mget_mput_same, BitVec.toNat_ofNat]
  omega

theorem State.rd_count_ne (r r' : RegId) (n i j k i' j' k' : Nat) (h : r'.addr i' j' k' ≠ r.addr i j k) :
    (s.count r n i j k).rd r' i' j' k' = s.rd r' i' j' k' := by
  obtain ⟨l, e⟩ := s.count_eq r n i j k
  rw [e]
  exact mget_mput_ne _ _ _ _ _ _ h

theorem State.count_regs_get (r : RegId) (n i j k a : Nat) (d : Word64) (h : a ≠ r.addr i j k) :
    mget d (s.count r n i j k).regs a = mget d s.regs a := by
  obtain ⟨l, e⟩ := s.count_eq r n i j k
  rw [e]
  exact mget_mput_ne _ _ _ _ _ _ h

/-! ## Time (R429 to R435) -/

/-- All that passing time does: the clocks, CLK_SKIMMED. -/
theorem State.adv_eq (n : Nat) : ∃ m : SMap Word64, s.adv n = { s with clk := s.clk.adv s.level n, regs := m } ∧
    ∀ a d, a ≠ RegId.CLK_SKIMMED.addr 0 0 0 → mget d m a = mget d s.regs a := by
  unfold State.adv
  extract_lets k s' rem
  by_cases h : rem = 0
  · rw [if_pos h]; exact ⟨s.regs, rfl, fun _ _ _ => rfl⟩
  · rw [if_neg h]; exact ⟨_, rfl, fun a d ha => mget_mput_ne _ _ _ _ _ _ ha⟩

theorem State.adv_cyc (n : Nat) : (s.adv n).clk.cyc = s.clk.cyc + n := by
  obtain ⟨m, h, _⟩ := s.adv_eq n
  rw [h]; rfl

/-- WT does not go back (R435). -/
theorem State.adv_wt (n : Nat) : s.clk.wt ≤ (s.adv n).clk.wt := by
  obtain ⟨m, h, _⟩ := s.adv_eq n
  rw [h]; exact Nat.le_add_right _ _

/-- Waiting for an instant is passing some time. -/
theorem State.atTb_adv (t : Nat) : s.atTb t = s ∨ ∃ n, s.atTb t = s.adv n := by
  unfold State.atTb; split
  · exact .inr ⟨_, rfl⟩
  · exact .inl rfl

theorem State.atWt_adv (t : Nat) : s.atWt t = s ∨ ∃ n, s.atWt t = s.adv n := by
  unfold State.atWt; split
  · exact .inr ⟨_, rfl⟩
  · exact .inl rfl

theorem State.atCyc_adv (t : Nat) : s.atCyc t = s ∨ ∃ n, s.atCyc t = s.adv n := by
  unfold State.atCyc; split
  · exact .inr ⟨_, rfl⟩
  · exact .inl rfl

theorem State.atCyc_cyc (c : Nat) : c ≤ (s.atCyc c).clk.cyc := by
  unfold State.atCyc; split
  · rw [s.adv_cyc]; omega
  · omega

/-- An instant of WT that is waited for is reached, unless the rate has been corrected to nothing (R435). -/
theorem State.atWt_wt (w : Nat) (h : 0 < s.clk.rate) : w ≤ (s.atWt w).clk.wt := by
  unfold State.atWt
  split
  · rename_i hc
    obtain ⟨m, e, _⟩ := s.adv_eq (((w - s.clk.wt) * wtUnit - s.clk.wtFrac + s.clk.rate - 1) / s.clk.rate)
    rw [e]
    have hu : 0 < wtUnit := by decide
    have key : (w - s.clk.wt) * wtUnit ≤ s.clk.wtFrac + (((w - s.clk.wt) * wtUnit - s.clk.wtFrac + s.clk.rate - 1) / s.clk.rate) * s.clk.rate := by
      generalize hD : (w - s.clk.wt) * wtUnit - s.clk.wtFrac = D
      have h1 : D ≤ (D + s.clk.rate - 1) / s.clk.rate * s.clk.rate := by
        have := Nat.div_add_mod (D + s.clk.rate - 1) s.clk.rate
        have hm := Nat.mod_lt (D + s.clk.rate - 1) h
        rw [Nat.mul_comm] at this
        omega
      omega
    have h2 : w - s.clk.wt ≤ (s.clk.wtFrac + (((w - s.clk.wt) * wtUnit - s.clk.wtFrac + s.clk.rate - 1) / s.clk.rate) * s.clk.rate) / wtUnit :=
      (Nat.le_div_iff_mul_le hu).2 key
    have h3 := hc.1
    show w ≤ s.clk.wt + _
    omega
  · rename_i hc
    have : ¬ s.clk.wt < w := fun h' => hc ⟨h', h⟩
    omega

/-! ## Events (R48, R409, R498) -/

theorem State.msix_eq (v : Nat) : ∃ h : HostPort, s.msix v = { s with host := h } := by
  unfold State.msix; split
  · exact ⟨_, rfl⟩
  · exact ⟨_, rfl⟩

theorem State.strike_eq (code kind idx : Nat) : ∃ h : Hlth, s.strike code kind idx = { s with hlth := h } := by
  unfold State.strike
  extract_lets pos sec x n h0 s' lim
  by_cases h : kind ≠ kCORE ∨ (code ≠ 0x2001 ∧ code ≠ 0x3001)
  · rw [if_pos h]; exact ⟨s.hlth, rfl⟩
  · rw [if_neg h]
    by_cases h2 : lim ≠ 0 ∧ n = lim
    · rw [if_pos h2]; exact ⟨_, rfl⟩
    · rw [if_neg h2]; exact ⟨_, rfl⟩

/-- All that raising an event does: an entry of the ring or a count of lost ones, the weights' sum and strikes, MSI-X. -/
theorem State.raise_eq (code kind idx detail : Nat) : ∃ (m : SMap Word64) (g : SMap EvtEntry) (h : Hlth) (p : HostPort),
    s.raise code kind idx detail = { s with regs := m, ring := g, hlth := h, host := p } ∧
    (∀ a d, a ≠ RegId.MOD_EVT_WR.addr 0 0 0 → a ≠ RegId.MOD_EVT_LOST.addr 0 0 0 → mget d m a = mget d s.regs a) := by
  unfold State.raise
  simp only
  obtain ⟨h, e⟩ := ({ s with hlth := { s.hlth with acc := mupd 0 s.hlth.acc (s.clk.wt / 10000000) (· + s.weight code) } } : State).strike_eq code kind idx
  rw [e]
  split
  · exact ⟨_, _, _, _, rfl, fun a d _ h2 => mget_mput_ne _ _ _ _ _ _ h2⟩
  · split
    · obtain ⟨p, e2⟩ := State.msix_eq (({ s with
        hlth := h
        ring := mput EvtEntry.zero s.ring (s.fget F.MOD_EVT_WR_INDEX % 4096) ⟨code, kind, idx, s.clk.wt,
          if kind = kCORE ∨ kind = kPHYS ∨ kind = kTRACT then s.clk.tb else 0, detail % 2 ^ 64⟩ } : State).fset F.MOD_EVT_WR_INDEX
          ((s.fget F.MOD_EVT_WR_INDEX + 1) % 8192)) 0
      refine ⟨_, _, _, _, e2, fun a d h1 _ => ?_⟩
      exact mget_mput_ne _ _ _ _ _ _ h1
    · exact ⟨_, _, _, _, rfl, fun a d h1 _ => mget_mput_ne _ _ _ _ _ _ h1⟩

/-- An event that finds room stands in the ring (R48). -/
theorem State.raise_ring (code kind idx detail : Nat)
    (h : (s.fget F.MOD_EVT_WR_INDEX + 8192 - s.fget F.MOD_EVT_RD_INDEX) % 8192 < 4096) :
    (s.raise code kind idx detail).ring = mput EvtEntry.zero s.ring (s.fget F.MOD_EVT_WR_INDEX % 4096) ⟨code, kind, idx, s.clk.wt,
      if kind = kCORE ∨ kind = kPHYS ∨ kind = kTRACT then s.clk.tb else 0, detail % 2 ^ 64⟩ := by
  unfold State.raise
  simp only
  obtain ⟨y, e⟩ := ({ s with hlth := { s.hlth with acc := mupd 0 s.hlth.acc (s.clk.wt / 10000000) (· + s.weight code) } } : State).strike_eq code kind idx
  rw [e, if_neg (by omega)]
  split
  · obtain ⟨p, e2⟩ := State.msix_eq (({ s with
        hlth := y
        ring := mput EvtEntry.zero s.ring (s.fget F.MOD_EVT_WR_INDEX % 4096) ⟨code, kind, idx, s.clk.wt,
          if kind = kCORE ∨ kind = kPHYS ∨ kind = kTRACT then s.clk.tb else 0, detail % 2 ^ 64⟩ } : State).fset F.MOD_EVT_WR_INDEX
          ((s.fget F.MOD_EVT_WR_INDEX + 1) % 8192)) 0
    exact congrArg State.ring e2
  · rfl

/-- A limited event is raised or suppressed (R84). -/
theorem State.raiseLim_cases (code kind idx detail : Nat) : s.raiseLim code kind idx detail = s ∨
    ∃ m, s.raiseLim code kind idx detail = ({ s with evtSeen := m } : State).raise code kind idx detail := by
  unfold State.raiseLim
  extract_lets key mark
  by_cases h : mget 0 s.evtSeen key = mark
  · rw [if_pos h]; exact .inl rfl
  · rw [if_neg h]; exact .inr ⟨_, rfl⟩

/-- All that counting non-finite values does (R410, R412). -/
theorem State.nonfinite_eq (n : Nat) : ∃ (m : SMap Word64) (h : Hlth), s.nonfinite n = { s with regs := m, hlth := h } ∧
    ∀ a d, a ≠ RegId.HLTH_NONFINITE.addr 0 0 0 → mget d m a = mget d s.regs a := by
  unfold State.nonfinite
  split
  · exact ⟨s.regs, s.hlth, rfl, fun _ _ _ => rfl⟩
  · exact ⟨_, _, rfl, fun a d h => mget_mput_ne _ _ _ _ _ _ h⟩

/-! ## Packets in flight -/

/-- A packet that is not in flight is taken at the present instant, and nothing changes (log entry 12). -/
theorem State.take_absent (p : Packet) (l : Loc) (h : p ∉ s.flights.map (·.pkt)) : s.take p l = s := by
  have : s.flights.find? (fun f => f.pkt == p && f.loc == l) = none := by
    rw [List.find?_eq_none]
    intro f hf
    simp only [Bool.and_eq_true, beq_iff_eq, not_and]
    intro e
    exact absurd (List.mem_map.2 ⟨f, hf, e⟩) h
  simp [State.take, State.takeF, this]

/-- All that taking a packet does: it is no longer in flight, and time passes until it is there. -/
theorem State.take_cases (p : Packet) (l : Loc) : s.take p l = s ∨
    ∃ f ∈ s.flights, f.pkt = p ∧ f.loc = l ∧ s.take p l = ({ s with flights := s.flights.erase f } : State).atTb f.tb := by
  unfold State.take State.takeF
  cases h : s.flights.find? (fun f => f.pkt == p && f.loc == l) with
  | none => exact .inl rfl
  | some f =>
    have h1 := List.find?_some h
    simp only [Bool.and_eq_true, beq_iff_eq] at h1
    exact .inr ⟨f, List.mem_of_find?_eq_some h, h1.1, h1.2, rfl⟩

/-! ## Arrival counters (R172, R175) -/

/-- All that an arrival counter's test does: a wait may be marked satisfied. -/
theorem State.ctrSatisfies_cases (c n : Nat) : s.ctrSatisfies c n = s ∨
    s.ctrSatisfies c n = s.setCore c { s.core c with sat := some s.clk.tb } := by
  unfold State.ctrSatisfies
  simp only
  split
  · split
    · exact .inr rfl
    · exact .inl rfl
  · exact .inl rfl

end Sys2Proof.Machine
end

