-- ==== Sys2Proof/Laws/Memory.lean ====
section
/-! SUPPORT. The memories of scratchpads and stacks: every operation that writes them keeps their canonical form, and which bytes each
writes. -/

namespace Sys2Proof.Machine
open Sys2Proof

variable (s t : State)

/-! ## Canonical form -/

/-- Leaving entries out keeps the canonical form. -/
theorem filter_above {α : Type} (p : Nat × α → Bool) (m : SMap α) (b : Nat) (d : α) [DecidableEq α] (h : mwf d m = true)
    (ha : above b m) : above b (m.filter p) := by
  induction m generalizing b with
  | nil => simpa using ha
  | cons e m ih =>
    rw [mwf_cons] at h
    rw [List.filter_cons]
    split
    · exact ha
    · apply ih _ h.2.2
      cases m with
      | nil => trivial
      | cons e' m => exact Nat.lt_trans ha h.2.1

theorem filter_wf {α : Type} [DecidableEq α] (d : α) (p : Nat × α → Bool) (m : SMap α) (h : mwf d m = true) :
    mwf d (m.filter p) = true := by
  induction m with
  | nil => exact h
  | cons e m ih =>
    have h' := (mwf_cons d e m).1 h
    rw [List.filter_cons]
    split
    · rw [mwf_cons]; exact ⟨h'.1, filter_above p m e.1 d h'.2.2 h'.2.1, ih h'.2.2⟩
    · exact ih h'.2.2

theorem reset_memOk : MemOk State.reset := ⟨rfl, rfl⟩

/-- A state with the same two memories. -/
theorem MemOk.congr {s t : State} (h : MemOk s) (h1 : t.sp = s.sp) (h2 : t.hbm = s.hbm) : MemOk t := by
  unfold MemOk; rw [h1, h2]; exact h

/-- A step over a list keeps what each of its steps keeps. -/
theorem foldl_keeps {α β : Type} (P : β → Prop) (f : β → α → β) (hf : ∀ b a, P b → P (f b a)) (l : List α) (b : β) (h : P b) :
    P (l.foldl f b) := by
  induction l generalizing b with
  | nil => exact h
  | cons a l ih => exact ih _ (hf b a h)

/-- Events leave the memories alone. -/
theorem State.raise_memOk (code kind idx detail : Nat) (h : MemOk s) : MemOk (s.raise code kind idx detail) := by
  obtain ⟨m, g, y, p, e, _⟩ := s.raise_eq code kind idx detail
  rw [e]; exact h.congr rfl rfl

theorem State.raiseLim_memOk (code kind idx detail : Nat) (h : MemOk s) : MemOk (s.raiseLim code kind idx detail) := by
  obtain e | ⟨m, e⟩ := s.raiseLim_cases code kind idx detail
  · rw [e]; exact h
  · rw [e]; exact State.raise_memOk _ _ _ _ _ (h.congr rfl rfl)

theorem State.count_memOk (r : RegId) (n i j k : Nat) (h : MemOk s) : MemOk (s.count r n i j k) := by
  obtain ⟨l, e⟩ := s.count_eq r n i j k
  rw [e]; exact h.congr rfl rfl

theorem State.adv_memOk (n : Nat) (h : MemOk s) : MemOk (s.adv n) := by
  obtain ⟨m, e, _⟩ := s.adv_eq n
  rw [e]; exact h.congr rfl rfl

/-- An access stored in a stack. -/
theorem State.hbmStore_memOk (ch a : Nat) (d : List Byte) (p : Bool) (h : MemOk s) : MemOk (s.hbmStore ch a d p) :=
  ⟨h.1, mputs_wf _ _ _ _ h.2⟩

theorem State.accPut_memOk (ch a : Nat) (d : List Byte) (p : Bool) (h : MemOk s) : MemOk (s.accPut ch a d p) := by
  unfold State.accPut
  simp only
  split
  · exact h.congr rfl rfl
  · exact s.hbmStore_memOk ch a d p h

/-- Bytes written at a module-local address. -/
theorem State.memPut_memOk (a : Nat) (d : List Byte) (p : Bool) (h : MemOk s) : MemOk (s.memPut a d p) := by
  unfold State.memPut
  exact foldl_keeps MemOk _ (fun b l hb => State.accPut_memOk _ _ _ _ _ hb) _ _ h

/-- A detection and its event. -/
theorem State.spDetect_memOk (c line port : Nat) (h : MemOk s) : MemOk (s.spDetect c line port) := by
  unfold State.spDetect
  extract_lets s1 s2 s3
  have h1 : MemOk s1 := h.congr (s.wr_sp _ _ _ _ _) (s.wr_hbm _ _ _ _ _)
  have h2 : MemOk s2 := State.count_memOk _ _ _ _ _ _ h1
  have h3 : MemOk s3 := h2.congr (s2.wr_sp _ _ _ _ _) (s2.wr_hbm _ _ _ _ _)
  exact State.raiseLim_memOk _ _ _ _ _ h3

theorem State.spBadAccess_memOk (c reason : Nat) (h : MemOk s) : MemOk (s.spBadAccess c reason) := by
  unfold State.spBadAccess
  exact State.raiseLim_memOk _ _ _ _ _ (State.count_memOk _ _ _ _ _ _ h)

theorem State.latchRerun_memOk (c k : Nat) (h : MemOk s) : MemOk (s.latchRerun c k) := by
  unfold State.latchRerun
  exact h.congr rfl rfl

theorem memOk_ite {c : Prop} [Decidable c] {s t : State} (h : c → MemOk s) (h' : MemOk t) : MemOk (if c then s else t) := by
  split
  · exact h ‹c›
  · exact h'

/-- A line written at a port of a scratchpad. -/
theorem State.spWrite_memOk (c line port : Nat) (w : SpWr) (h : MemOk s) : MemOk (s.spWrite c line port w) := by
  unfold State.spWrite
  extract_lets whole wasBad s1 s2 inj bad
  have h1 : MemOk s1 := memOk_ite (fun _ => State.spDetect_memOk _ _ _ _ h) h
  have h2 : MemOk s2 := memOk_ite (fun _ => State.latchRerun_memOk _ _ _ h1) h1
  obtain ⟨bytes, part, ovs⟩ := lineAfter w.wop w.mask (s2.spLine c line) w.data
  dsimp -zeta only
  extract_lets s3 s4 s5
  have h3 : MemOk s3 := ⟨mputs_wf _ _ _ _ h2.1, h2.2⟩
  have h4 : MemOk s4 := memOk_ite (fun _ => h3.congr rfl rfl) h3
  have h5 : MemOk s5 := memOk_ite (fun _ => State.spBadAccess_memOk _ _ _ h4) h4
  exact foldl_keeps MemOk _ (fun b i hb => State.raiseLim_memOk _ _ _ _ _ hb) _ _ h5

/-- A row written in row mode. -/
theorem State.rowWrite_memOk (c row : Nat) (d : List Byte) (h : MemOk s) : MemOk (s.rowWrite c row d) :=
  ⟨mputs_wf _ _ _ _ h.1, h.2⟩

/-- A scratchpad cleared. -/
theorem State.spZero_memOk (pos : Nat) (h : MemOk s) : MemOk (s.spZero pos) := ⟨filter_wf _ _ _ h.1, h.2⟩

/-- Firmware put into a scratchpad. -/
theorem State.firmwareAt_memOk (pos : Nat) (h : MemOk s) : MemOk (s.firmwareAt pos) :=
  ⟨mputs_wf _ _ _ _ (mputs_wf _ _ _ _ h.1), h.2⟩

/-- A spare prepared. -/
theorem State.spareFresh_memOk (pos : Nat) (h : MemOk s) : MemOk (s.spareFresh pos) :=
  State.firmwareAt_memOk _ _ ⟨filter_wf _ _ _ h.1, h.2⟩

/-! ## Which bytes an operation writes -/

/-- A row of a scratchpad: its bytes, and no others. -/
theorem State.rowWrite_get (c row a : Nat) (d : List Byte) : mget 0 (s.rowWrite c row d).sp a =
    if s.spByte c (512 * row) ≤ a ∧ a < s.spByte c (512 * row) + d.length then d.getD (a - s.spByte c (512 * row)) 0
    else mget 0 s.sp a := mget_mputs _ _ _ _ _

/-- An access of a stack: its bytes, and no others. -/
theorem State.hbmStore_get (ch a b : Nat) (d : List Byte) (p : Bool) : mget 0 (s.hbmStore ch a d p).hbm b =
    if ch * 2 ^ 32 + 64 * a ≤ b ∧ b < ch * 2 ^ 32 + 64 * a + d.length then d.getD (b - (ch * 2 ^ 32 + 64 * a)) 0
    else mget 0 s.hbm b := mget_mputs _ _ _ _ _

/-! ## What is kept -/

theorem MemKept.refl : MemKept s s := ⟨⟨fun _ => rfl, fun _ => rfl, fun _ => rfl⟩, fun _ => rfl, fun _ => rfl, fun _ => rfl⟩

theorem MemKept.trans {s t u : State} (h : MemKept s t) (h' : MemKept t u) : MemKept s u :=
  ⟨⟨fun a => (h'.1.1 a).trans (h.1.1 a), fun a => (h'.1.2.1 a).trans (h.1.2.1 a), fun a => (h'.1.2.2 a).trans (h.1.2.2 a)⟩,
    fun a => (h'.2.1 a).trans (h.2.1 a), fun a => (h'.2.2.1 a).trans (h.2.2.1 a), fun a => (h'.2.2.2 a).trans (h.2.2.2 a)⟩

/-- States that hold the same memories, codes, tags, poison bits and error symbols. -/
theorem MemKept.of_eq {s t : State} (h1 : t.sp = s.sp) (h2 : t.spCode = s.spCode) (h3 : t.spTag = s.spTag) (h4 : t.hbm = s.hbm)
    (h5 : t.hbmPoison = s.hbmPoison) (h6 : t.hbmErr = s.hbmErr) : MemKept s t := by
  unfold MemKept SpKept StacksKept
  rw [h1, h2, h3, h4, h5, h6]
  exact MemKept.refl s

theorem RegsKept.refl (l : List Nat) : RegsKept s s l := fun _ _ _ => rfl

theorem RegsKept.trans {s t u : State} {l : List Nat} (h : RegsKept s t l) (h' : RegsKept t u l) : RegsKept s u l :=
  fun a d ha => (h' a d ha).trans (h a d ha)

theorem RegsKept.mono {s t : State} {l m : List Nat} (h : RegsKept s t l) (hs : ∀ a ∈ l, a ∈ m) : RegsKept s t m :=
  fun a d ha => h a d fun hl => ha (hs a hl)

/-- A register that is not among those named reads as before. -/
theorem RegsKept.rd {s t : State} {l : List Nat} (h : RegsKept s t l) (r : RegId) (i j k : Nat) (hr : r.addr i j k ∉ l) :
    t.rd r i j k = s.rd r i j k := h _ _ hr

theorem RegsKept.fget {s t : State} {l : List Nat} (h : RegsKept s t l) (f : Fld) (i j k : Nat) (hr : f.reg.addr i j k ∉ l) :
    t.fget f i j k = s.fget f i j k := by
  rw [State.fget, State.fget, h.rd _ _ _ _ hr]

theorem State.wr_regsKept (r : RegId) (v : Word64) (i j k : Nat) (l : List Nat) (h : r.addr i j k ∈ l) : RegsKept s (s.wr r v i j k) l :=
  fun a d ha => s.wr_regs_get r v i j k a d fun e => ha (e ▸ h)

theorem State.fset_regsKept (f : Fld) (v i j k : Nat) (l : List Nat) (h : f.reg.addr i j k ∈ l) : RegsKept s (s.fset f v i j k) l :=
  s.wr_regsKept f.reg _ i j k l h

theorem State.count_regsKept (r : RegId) (n i j k : Nat) (l : List Nat) (h : r.addr i j k ∈ l) : RegsKept s (s.count r n i j k) l :=
  fun a d ha => s.count_regs_get r n i j k a d fun e => ha (e ▸ h)

theorem State.adv_regsKept (n : Nat) (l : List Nat) (h : RegId.CLK_SKIMMED.addr 0 0 0 ∈ l) : RegsKept s (s.adv n) l := by
  intro a d ha
  obtain ⟨m, e, hm⟩ := s.adv_eq n
  rw [e]
  exact hm a d fun e' => ha (e' ▸ h)

theorem State.raise_regsKept (code kind idx detail : Nat) (l : List Nat) (h1 : RegId.MOD_EVT_WR.addr 0 0 0 ∈ l)
    (h2 : RegId.MOD_EVT_LOST.addr 0 0 0 ∈ l) : RegsKept s (s.raise code kind idx detail) l := by
  intro a d ha
  obtain ⟨m, g, y, p, e, hm⟩ := s.raise_eq code kind idx detail
  rw [e]
  exact hm a d (fun e' => ha (e' ▸ h1)) fun e' => ha (e' ▸ h2)

end Sys2Proof.Machine
end

