-- ==== Sys2Proof/WellFormed.lean ====
section
/-! DEFINITION. What an operand must be beside its type: fields within their widths, lists of the lengths that go together. A
command whose operands break one of these spells nothing that its sender can send. -/

namespace Sys2Proof

/-- Every field of a packet fits its place in the header (R231), and the payload is at most 4 KiB: 512 bytes
on the fabric, and a granule in the packets of the model's own that stand for Racking's copies. -/
def Packet.wf (p : Packet) : Bool :=
  decide (1 ≤ p.typ ∧ p.typ ≤ 11) && decide (p.dest < 2 ^ 16) && decide (p.src < 2 ^ 16) && decide (p.count < 2 ^ 16)
    && decide (p.addr < 2 ^ 46) && decide (p.lenm1 < 2 ^ 12) && decide (p.wop < 2 ^ 3) && decide (p.ctr < 2 ^ 6)
    && decide (p.mid < 2 ^ 10) && decide (p.rid < 2 ^ 12) && decide (p.flags < 2 ^ 4) && decide (p.data.length ≤ 4096)

/-- Every field of a Brim packet fits its place in the header (R349), and the payload has at most as many bytes as LENM1 counts. -/
def BrimPkt.wf (p : BrimPkt) : Bool :=
  decide (p.typ < 2 ^ 4) && decide (p.status < 2 ^ 4) && decide (p.dmid < 2 ^ 10) && decide (p.smid < 2 ^ 10)
    && decide (p.tag < 2 ^ 14) && decide (p.epoch < 2 ^ 2) && decide (p.flow < 2 ^ 8) && decide (p.prof < 2 ^ 4)
    && decide (p.hops < 2 ^ 4) && decide (p.lseq < 2 ^ 10) && decide (p.lenm1 < 2 ^ 13) && decide (p.wop < 2 ^ 3)
    && decide (p.ctr < 2 ^ 6) && decide (p.addr < 2 ^ 46) && decide (p.tspec < 2 ^ 51) && decide (p.wt < 2 ^ 64)
    && decide (p.data.length ≤ 8192)

/-- Error symbols of an access: at most 72, at rising positions, each a difference of one byte other than 0 (R272). -/
def Upset.wf (u : Upset) : Bool :=
  u.syms.all (fun x => decide (x.1 < 72 ∧ 1 ≤ x.2 ∧ x.2 < 256)) && decide ((u.syms.map (·.1)).Pairwise (· < ·))

/-- The fields of a native flit fit its header (R342), and the packets whose last byte it brings are well formed. -/
def BrimFlit.wf (f : BrimFlit) : Bool :=
  decide (f.ack < 1024 ∧ f.crq < 128 ∧ f.crs < 128) && f.pkts.all BrimPkt.wf

/-- The initial credits of a PEER message fit ten bits (R339, R344). -/
def PeerMsg.wf (m : PeerMsg) : Bool := decide (m.crq < 1024 ∧ m.crs < 1024)

/-- Does a write of host memory space carry one byte enable for each byte, and at least one byte? -/
def bytesOk (data : List Byte) (be : List Bool) : Bool :=
  decide (data.length = be.length) && decide (1 ≤ data.length) && decide (data.length ≤ 4096)

/-- Are the operands of a command well formed? -/
def Instr.wf (i : Instr) : Bool :=
  match i with
  | .registerWrite _ _ _ _ => true
  | .counterLowRead _ _ => true
  | .splitLowWordWrite _ _ => true
  | .splitHighWordWrite _ _ => true
  | .modLockWrite => true
  | .profilePresetWrite _ _ => true
  | .rwnWrite _ _ => true
  | .rwnCommit => true
  | .evtRdWrite _ => true
  | .amaxApply packet => packet.wf
  | .mxNop _ _ => true
  | .mxLoad _ _ => true
  | .mxLoadBegin _ => true
  | .mxLoadComplete _ => true
  | .mxPass _ _ => true
  | .mxPassFirstEntry _ => true
  | .mxVectorEntry _ => true
  | .mxVectorComplete _ => true
  | .mxOutputRowServed _ => true
  | .mxPassComplete _ => true
  | .mxEpi _ _ => true
  | .mxDrain _ _ => true
  | .mxDrainComplete _ => true
  | .mxEnableWrite _ _ => true
  | .mxStoppingEnd _ => true
  | .mxEnablingEnd _ => true
  | .vxNop _ _ => true
  | .vsetl _ _ => true
  | .chain _ _ => true
  | .vxBeatEntry _ => true
  | .vxBeatWritten _ => true
  | .vxChainComplete _ => true
  | .chload _ _ => true
  | .vxChloadComplete _ => true
  | .posBase _ _ _ => true
  | .posWindow _ _ _ => true
  | .docld _ _ => true
  | .vdrain _ _ => true
  | .vxVdrainComplete _ => true
  | .vxEnableWrite _ _ => true
  | .vxStoppingEnd _ => true
  | .vxEnablingEnd _ => true
  | .add _ _ _ _ => true
  | .sub _ _ _ _ => true
  | .and _ _ _ _ => true
  | .or _ _ _ _ => true
  | .xor _ _ _ _ => true
  | .sll _ _ _ _ => true
  | .srl _ _ _ _ => true
  | .sra _ _ _ _ => true
  | .mul _ _ _ _ => true
  | .mulhu _ _ _ _ => true
  | .slt _ _ _ _ => true
  | .sltu _ _ _ _ => true
  | .seq _ _ _ _ => true
  | .flt _ _ _ _ => true
  | .fle _ _ _ _ => true
  | .feq _ _ _ _ => true
  | .addi _ _ _ _ => true
  | .andi _ _ _ _ => true
  | .ori _ _ _ _ => true
  | .xori _ _ _ _ => true
  | .shiSll _ _ _ _ => true
  | .shiSrl _ _ _ _ => true
  | .shiSra _ _ _ _ => true
  | .lui _ _ _ => true
  | .ld _ _ _ _ => true
  | .lw _ _ _ _ => true
  | .sd _ _ _ _ => true
  | .sw _ _ _ _ => true
  | .epruStoreWrite _ => true
  | .rld _ _ _ _ => true
  | .rst _ _ _ _ => true
  | .beq _ _ _ _ => true
  | .bne _ _ _ _ => true
  | .blt _ _ _ _ => true
  | .bge _ _ _ _ => true
  | .bltu _ _ _ _ => true
  | .bgeu _ _ _ _ => true
  | .jal _ _ _ => true
  | .jr _ _ _ _ => true
  | .csrr _ _ _ => true
  | .csrw _ _ _ => true
  | .rdtTb _ _ => true
  | .rdtWt _ _ => true
  | .rdtSegBase _ _ => true
  | .rdtCoreIndex _ _ => true
  | .rdtTractSlot _ _ => true
  | .rdtSegmentNumber _ _ => true
  | .rdtRerunCount _ _ => true
  | .issue _ _ _ _ => true
  | .biss _ _ _ _ => true
  | .issueQueueWaitEnd _ => true
  | .waitc _ _ _ => true
  | .waitcSatisfied _ => true
  | .setc _ _ _ => true
  | .rdc _ _ _ => true
  | .ifill _ _ _ _ => true
  | .barSeg _ => true
  | .barStep _ => true
  | .reqr _ _ => true
  | .tfault _ _ => true
  | .srNop _ _ => true
  | .larrive _ _ => true
  | .deferredBundleRelease _ => true
  | .barrierArrival _ => true
  | .barPacketForward _ => true
  | .brelReceive _ => true
  | .barrierRelease _ => true
  | .barrierTimeout _ => true
  | .tagBlockTimeout _ _ _ => true
  | .tractLoad _ => true
  | .tractFree _ => true
  | .tractEnable _ => true
  | .tractDisable _ => true
  | .tractCodeFillComplete _ => true
  | .scratchpadAccessServed _ _ _ => true
  | .rowAccessServed _ _ => true
  | .spInjArmWrite _ => true
  | .spBistStart _ => true
  | .spBistComplete _ _ _ => true
  | .bar4Read _ _ _ => true
  | .bar4Write _ data be => bytesOk data be
  | .routerHop _ packet => packet.wf
  | .mergeStageEntry _ packet => packet.wf
  | .mergeStageExit _ => true
  | .rimRingHop _ packet => packet.wf
  | .fbWrDeliver _ packet => packet.wf
  | .fbRdDeliver _ packet => packet.wf
  | .fbRedDeliver _ packet => packet.wf
  | .regrdDeliver packet => packet.wf
  | .regwrDeliver packet => packet.wf
  | .rdrReceive packet => packet.wf
  | .wackReceive packet => packet.wf
  | .regrReceive packet => packet.wf
  | .fwr _ _ => true
  | .frd _ _ => true
  | .fred _ _ => true
  | .linkFlitError _ => true
  | .heartbeatSend _ => true
  | .linkHeartbeatLapse _ => true
  | .bowWriteInject _ _ => true
  | .bowLineAtTap _ => true
  | .hbmRead _ upsets => upsets.all Upset.wf
  | .hbmWrite _ upsets => upsets.all Upset.wf
  | .hbmAccumulate _ upsets => upsets.all Upset.wf
  | .hbmReadClear _ _ upsets => upsets.all Upset.wf
  | .channelRequestAccept packet => packet.wf
  | .hbmReadComplete _ => true
  | .hbmRequestTimeout _ => true
  | .eccWriteback _ => true
  | .patrolScrubRead _ upsets => upsets.all Upset.wf
  | .hbmFlushWrite _ => true
  | .hbmFlushEnd _ => true
  | .hbmMapoutWrite _ => true
  | .hbmEnableWrite _ _ => true
  | .hbmEnablingEnd _ => true
  | .hbmStoppingEnd _ => true
  | .stackTempSample _ _ => true
  | .gsEnableWrite _ _ => true
  | .gsStoppingEnd _ => true
  | .gristPositionFetch _ => true
  | .gristSourceResponse packet => packet.wf
  | .gneed _ _ => true
  | .grel _ _ => true
  | .save _ _ => true
  | .saveComplete _ => true
  | .pfstart _ _ => true
  | .pfRecordFetch _ => true
  | .pfRecordComplete _ => true
  | .aneed _ _ => true
  | .arel _ _ => true
  | .stpEnableWrite _ _ => true
  | .stpStoppingEnd _ => true
  | .stpEnablingEnd _ => true
  | .rackGranuleCopy => true
  | .rackCopyResponse packet => packet.wf
  | .rkEnableWrite _ => true
  | .rkNowWrite _ => true
  | .brimEnableWrite _ _ => true
  | .brimRetrainWrite _ => true
  | .blockLockLoss _ _ => true
  | .brimTrainingAttemptEnd _ _ _ => true
  | .brimGroupRetry _ _ => true
  | .brimStoppingEnd _ => true
  | .brimDataFlit _ flit => flit.wf
  | .brimIdleFlit _ flit => flit.wf
  | .brimPeerFlit _ msg => msg.wf
  | .brimTimeFlit _ _ t1 t2 t3 => decide (t1 < 2 ^ 64 ∧ t2 < 2 ^ 64 ∧ t3 < 2 ^ 64)
  | .timeExchangeStart => true
  | .ptpMessage _ msg => decide (msg.domain < 256)
  | .brimReplayTimeout _ => true
  | .brimFrameReceive _ _ _ _ _ packet => packet.wf
  | .pfcPauseFrame _ _ _ times => decide (times.length = 8)
  | .brimPacketTransmit _ => true
  | .brimRequestQueue _ packet => packet.wf
  | .brimWr _ packet => packet.wf
  | .brimRd _ packet => packet.wf
  | .brimRegrd _ packet => packet.wf
  | .brimRegwr _ packet => packet.wf
  | .brimRdr _ packet => packet.wf
  | .brimWack _ packet => packet.wf
  | .brimRegr _ packet => packet.wf
  | .brimRacc _ packet => packet.wf
  | .remoteTagTimeout _ => true
  | .tagCoolEnd _ => true
  | .brimFlowWrite _ _ _ => true
  | .redToRacc _ packet => packet.wf
  | .raccAccept packet => packet.wf
  | .localRedAccept packet => packet.wf
  | .countUpdate _ => true
  | .redWinEnableWrite _ _ => true
  | .windowClearingComplete _ => true
  | .windowDeadline _ => true
  | .closeOutStart _ => true
  | .closeOutEnd _ => true
  | .stepBoundaryProcessing => true
  | .stepSyncEdge => true
  | .syncWindowEnd => true
  | .stepOutEnd => true
  | .corePulseLapse _ => true
  | .hlthCoreFailWrite _ _ => true
  | .coreFailureDeclaration => true
  | .spareSubstitution _ => true
  | .rePlacement => true
  | .hlthLossWrite _ => true
  | .hlthLossClear => true
  | .hlthNfAddWrite _ => true
  | .hydrometerUpdate => true
  | .pwrOkLow => true
  | .pwrOkRelease => true
  | .busbarUvloFall => true
  | .busbarUvloRise => true
  | .perstNAssert => true
  | .perstNDeassert => true
  | .modRstNLow => true
  | .modRstNHigh => true
  | .rstCmdWarm _ _ => true
  | .rstCmdCompute _ _ => true
  | .rstCmdTract _ _ _ => true
  | .rstCmdCore _ _ _ _ => true
  | .wdogKickWrite => true
  | .watchdogExpiry => true
  | .pllLossOfLock _ => true
  | .clockLoss _ _ => true
  | .clockGood _ => true
  | .domainRelease _ _ => true
  | .startUpPhaseEnd _ => true
  | .karReport _ _ _ => true
  | .karDeadline _ => true
  | .readySet => true
  | .startUpMapCommit => true
  | .trimRetryWrite => true
  | .skimLevelChange => true
  | .pwrTargetWrite _ => true
  | .powerRungEnter => true
  | .powerRungReached => true
  | .powerExitComplete => true
  | .autoSimmerIdle => true
  | .coresReadySet => true
  | .powerSample _ _ => true
  | .rampStep => true
  | .fieldTempSample _ _ _ _ => true
  | .fldParkWrite _ _ => true
  | .fieldParkComplete _ => true
  | .fieldUnparkComplete _ => true
  | .fldMaxClrWrite _ => true
  | .bar2Read _ _ _ => true
  | .bar2Write _ data be _ => bytesOk data be
  | .hostDmaWrite packet => packet.wf
  | .hostDmaRead packet => packet.wf
  | .hostCompletion _ _ data _ => decide (data.length ≤ 4096)
  | .hostCompletionTimeout => true
  | .jobOwnerWrite _ => true
  | .jobTablePoll => true
  | .jobLoad _ _ => true
  | .jobStart _ => true
  | .jobStop _ => true
  | .jobUnload _ => true
  | .jobCommandComplete _ => true
  | .intakeGo _ _ => true
  | .intakeHeaderArrive _ => true
  | .intakeHeaderRetry _ => true
  | .intakeWaitExpire _ => true
  | .intakeFetchComplete _ => true
  | .intakeRelease _ _ => true
  | .i3cAddressAssign _ => true
  | .mctpSetEndpointId _ _ => true
  | .pldmBaseCommand _ => true
  | .pldmGetSensorReading _ => true
  | .pldmFirmwareUpdate _ _ _ => true
  | .pldmActivateFirmware _ => true
  | .spdmNegotiate _ _ _ => true
  | .spdmGetCertificate _ => true
  | .spdmChallenge _ nonce => decide (nonce.length = 32)
  | .spdmGetMeasurements _ nonce => decide (nonce.length = 32)
  | .mctpReset _ => true
  | .mctpWdogKick => true
  | .mctpRegRead _ => true
  | .mctpRegWrite _ _ => true
  | .debugUnlock token => decide (token.serial < 2 ^ 64 ∧ token.arg < 2 ^ 32)
  | .keyRevoke token => decide (token.serial < 2 ^ 64 ∧ token.arg < 2 ^ 32)
  | .jtagInstruction _ => true
  | .logSecondUpdate => true
  | .logPeriodicCommit => true
  | .monClearWrite _ => true
  | .monSourceChange _ _ _ => true
  | .pllLock _ => true
  | .referenceNclk _ => true
  | .configurationWrite _ => true
  | .reservedOpcodeRelease _ _ _ => true
  | .epruReservedInstruction _ => true

end Sys2Proof
end

