-- ==== Sys2Proof/Tests/Slice0.lean ====
section
/-! SUPPORT. Tests of the model, and a witness for the premises of every statement. -/

namespace Sys2Proof.Tests

set_option Elab.async false

open Sys2Proof Sys2Proof.Machine

/-- A module that is up: READY, its clocks running, nothing in it. -/
def base : State := { (State.reset.fset F.MOD_STATUS_READY 1).fset F.RST_STATUS_ACTIVE 0 with clk := { run := true, cyc := 160, tb := 160, wt := 44 }, boot := { hostUp := true, transitUp := true, hbmUp := true, coresUp := true } }

/-- Slot 2 placed on cores 6, 7, 156 and 157, in a state. -/
def inTract (st : Nat) (s : State) : State :=
  ((((s.fset F.TRACT_STATUS_STATE st 2).fset F.TRACT_SIZE_ROW 2 2).fset F.TRACT_SIZE_COL 2 2).fset F.TRACT_ORIGIN_COL 6 2)

/-- Bytes of core c's scratchpad. -/
def wm (s : State) (c a : Nat) (l : List Byte) : State := { s with sp := mputs 0 s.sp (s.spByte c a) l }

/-- A bundle word, or a payload, from the values of its fields and their places. -/
def fields (f : List (Nat × Nat)) : Nat := f.foldl (fun a x => a + x.1 * 2 ^ x.2) 0

/-! ### Operands: each check of `Instr.wf` refuses a term -/

def okPkt : Packet := { typ := 11, dest := 2 ^ 16 - 1, src := 2 ^ 16 - 1, count := 2 ^ 16 - 1, addr := 2 ^ 46 - 1, lenm1 := 2 ^ 12 - 1, wop := 7, ctr := 63, mid := 1023, rid := 4095, flags := 15, data := List.replicate 64 1 }
def okBrim : BrimPkt := { typ := 15, dmid := 1023, smid := 1023, status := 15, tag := 2 ^ 14 - 1, epoch := 3, flow := 255, prof := 15, hops := 15, lseq := 1023, lenm1 := 2 ^ 13 - 1, wop := 7, ctr := 63, addr := 2 ^ 46 - 1, tspec := 2 ^ 51 - 1, wt := 2 ^ 64 - 1 }
def okFlit : BrimFlit := { crc := true, corr := 0, uncorr := 0, ack := 1023, nak := false, crq := 127, crs := 127, pkts := [okBrim] }
def okToken : Token := { serial := 2 ^ 64 - 1, nonce := 0, arg := 2 ^ 32 - 1, reserved := [], pubkey := [], sig := [] }

theorem test_wf_packet_fits : (Instr.routerHop 0 okPkt).wf = true := by decide +kernel
theorem test_wf_packet_type : [0, 12].all (fun n => !(Instr.fbWrDeliver 0 { okPkt with typ := n }).wf) = true := by decide +kernel
theorem test_wf_packet_header : [{ okPkt with dest := 2 ^ 16 }, { okPkt with src := 2 ^ 16 }, { okPkt with count := 2 ^ 16 }, { okPkt with addr := 2 ^ 46 },
    { okPkt with lenm1 := 2 ^ 12 }, { okPkt with wop := 8 }, { okPkt with ctr := 64 }, { okPkt with mid := 1024 }, { okPkt with rid := 4096 },
    { okPkt with flags := 16 }].all (fun p => !(Instr.regrdDeliver p).wf) = true := by decide +kernel
theorem test_wf_packet_data : ({ okPkt with data := List.replicate 4097 0 } : Packet).wf = false := by decide +kernel
theorem test_wf_brim_fits : (Instr.brimRacc 3 okBrim).wf = true := by decide +kernel
theorem test_wf_brim_header : ([{ okBrim with typ := 16 }, { okBrim with status := 16 }, { okBrim with dmid := 1024 }, { okBrim with smid := 1024 },
    { okBrim with tag := 2 ^ 14 }, { okBrim with epoch := 4 }, { okBrim with flow := 256 }, { okBrim with prof := 16 }, { okBrim with hops := 16 },
    { okBrim with lseq := 1024 }, { okBrim with lenm1 := 2 ^ 13 }, { okBrim with wop := 8 }, { okBrim with ctr := 64 }, { okBrim with addr := 2 ^ 46 },
    { okBrim with tspec := 2 ^ 51 }, { okBrim with wt := 2 ^ 64 }] : List BrimPkt).all (fun p => !(Instr.brimRacc 0 p).wf) = true := by decide +kernel
theorem test_wf_brim_data : ({ okBrim with data := List.replicate 8193 0 } : BrimPkt).wf = false := by decide +kernel
theorem test_wf_flit : (Instr.brimDataFlit 1 okFlit).wf = true ∧ [{ okFlit with ack := 1024 }, { okFlit with crq := 128 }, { okFlit with crs := 128 },
    { okFlit with pkts := [okBrim, { okBrim with typ := 16 }] }].all (fun f => !(Instr.brimDataFlit 1 f).wf) = true := by decide +kernel
theorem test_wf_peer : [((1023, 1023), true), ((1024, 0), false), ((0, 1024), false)].all (fun x => (Instr.brimPeerFlit 0 ⟨5, 2, false, x.1.1, x.1.2⟩).wf == x.2) = true := by decide +kernel
theorem test_wf_upset : [([(0, 1), (71, 255)], true), ([(72, 1)], false), ([(3, 0)], false), ([(3, 256)], false), ([(4, 1), (3, 1)], false), ([(4, 1), (4, 1)], false)].all
    (fun x => (Instr.hbmRead 9 [⟨0, x.1⟩]).wf == x.2) = true := by decide +kernel
theorem test_wf_bytes : [([1, 2], [true, false], true), ([1, 2], [true], false), ([], [], false), (List.replicate 4097 1, List.replicate 4097 true, false)].all
    (fun x => (Instr.bar4Write 0 x.1 x.2.1).wf == x.2.2 && (Instr.bar2Write 0 x.1 x.2.1 false).wf == x.2.2) = true := by decide +kernel
theorem test_wf_times : (Instr.brimTimeFlit 0 3 0 0 (2 ^ 64)).wf = false ∧ (Instr.brimTimeFlit 0 3 0 (2 ^ 64) 0).wf = false ∧ (Instr.brimTimeFlit 0 3 (2 ^ 64) 0 0).wf = false := by decide +kernel
theorem test_wf_domain : (Instr.ptpMessage 0 ⟨0, 256, 0⟩).wf = false := by decide +kernel
theorem test_wf_pause_times : (Instr.pfcPauseFrame 0 false 255 (List.replicate 7 1)).wf = false := by decide +kernel
theorem test_wf_completion : (Instr.hostCompletion 0 0 (List.replicate 4097 0) false).wf = false := by decide +kernel
theorem test_wf_nonce : (Instr.spdmChallenge 0 (List.replicate 31 0)).wf = false ∧ (Instr.spdmGetMeasurements 1 (List.replicate 33 0)).wf = false := by decide +kernel
theorem test_wf_token : (Instr.debugUnlock okToken).wf = true ∧ (Instr.debugUnlock { okToken with serial := 2 ^ 64 }).wf = false ∧ (Instr.keyRevoke { okToken with arg := 2 ^ 32 }).wf = false := by decide +kernel

/-- The command table gives no row bits. -/
theorem test_no_command_word : decodeTableWord 32 0xFFFF_FFFF = none := rfl

/-! ### The spec's worked examples -/

/-- 08, the example after R266: address 0x0051_2345_6740 with G = 1 and granules of 256 B, and with G = 2. -/
theorem test_interleave : ilv 0 8 0x51_2345_6740 = ⟨4, 7, 0x91A_2B40⟩ ∧ ilv 1 8 0x51_2345_6740 = ⟨5, 7, 0x48D_1540⟩ := by decide +kernel

/-- 01, after R46, and 03, after R116: C(50,69) has index 7,569, and its MX_CTRL lies at 0x04EC_8A04. -/
theorem test_core_register : RegId.MX_CTRL.addr 7569 0 0 = 0x4EC_8A04 := by decide +kernel

/-- 15, the ring example: HOST_IN_GO[2] lies at 0x0380_0108. -/
theorem test_go_register : RegId.HOST_IN_GO.addr 0 2 0 = 0x380_0108 := by decide +kernel

/-- 01, the substitution example: before, C(50,69) is at P(50,73); with MOD_SPARE_SKIP[252] = 0x07E9 it is at P(50,74), and the core with
j = 29, C(50,89) by R30, moves from P(50,93) to P(50,94). -/
theorem test_spare_map : (base.phys 7567, base.phys 7569, base.phys 7589) = (50 * 160 + 71, 50 * 160 + 73, 50 * 160 + 93)
    ∧ ((base.wr .MOD_SPARE_SKIP 0x7E9 0 252).phys 7567, (base.wr .MOD_SPARE_SKIP 0x7E9 0 252).phys 7569, (base.wr .MOD_SPARE_SKIP 0x7E9 0 252).phys 7589)
      = (50 * 160 + 71, 50 * 160 + 74, 50 * 160 + 94) := by decide +kernel

/-- 10, after R347: interface A of BX0 on module 347. -/
theorem test_brim_mac : brimMac 347 0 0 = 0x25A_0000_15B0 := by decide

/-- The check values of the CRC with generator 0x1021 from 0xFFFF (R204) and of the IEEE 802.3 sequence (R342) on the nine digits 1 to 9. -/
theorem test_codes : crc16 [0x31, 0x32, 0x33, 0x34, 0x35, 0x36, 0x37, 0x38, 0x39] = 0x29B1 ∧ crc32 [0x31, 0x32, 0x33, 0x34, 0x35, 0x36, 0x37, 0x38, 0x39] = 0xCBF4_3926 := by decide +kernel

/-- 09, after R318: five elements pack into ten bytes, and come back. -/
theorem test_bf16_ll : packLL [0x3F80, 0, 0x4000, 0xBF00, 0] = [0x0D, 0, 0, 0, 0x7E, 2, 0, 0, 0x80, 9]
    ∧ unpackLL 5 [0x0D, 0, 0, 0, 0x7E, 2, 0, 0, 0x80, 9] = [0x3F80, 0, 0x4000, 0xBF00, 0] := by decide +kernel

/-- A scale record of E4M3 whose history holds the amaxes of 02's worked history so far, updated with the step's amax. -/
def scaleRec (exp head margin : Nat) (h : List Nat) (amax : Nat) : State :=
  (h.zip (List.range 16)).foldl (fun s x => s.setHist 17 x.2 x.1)
    (((((base.fset F.SCALE_CTRL_FMT 3 17).fset F.SCALE_CTRL_MARGIN margin 17).fset F.SCALE_STATE_EXP exp 17).fset F.SCALE_STATE_HEAD head 17).fset F.SCALE_CUR_AMAX_AMAX amax 17)

/-- 02, the worked history: 3.25 gives EXP 7, then 5.75 gives 6; 40.0 held gives 3, and 2 with MARGIN 1. -/
theorem test_scale_history : ((scaleRec 0 0 0 [] 0x4050_0000).scaleUpdate 17).fget F.SCALE_STATE_EXP 17 = 7
    ∧ ((scaleRec 7 1 0 [0x4050] 0x40B8_0000).scaleUpdate 17).fget F.SCALE_STATE_EXP 17 = 6
    ∧ ((scaleRec 3 4 1 [0x4050, 0x40B8, 0x4020, 0x4220] 0x3FC0_0000).scaleUpdate 17).fget F.SCALE_STATE_EXP 17 = 2
    ∧ ((scaleRec 3 4 0 [0x4050, 0x40B8, 0x4020, 0x4220] 0x3FC0_0000).scaleUpdate 17).fget F.SCALE_STATE_EXP 17 = 3
    ∧ ((scaleRec 3 4 0 [0x4050, 0x40B8, 0x4020, 0x4220] 0x3FC0_0000).scaleUpdate 17).fget F.SCALE_STATE_HEAD 17 = 5 := by decide +kernel

/-- 03, after R106: W[k][n] = (n + 1) × 2^-8 in FP32 codes, and a row's c[k] and a[k], 2.0625. -/
def checkW (n : Nat) : Val := v32 (fp32.roundMag .rne false (n + 1) 256 0).code
theorem test_row_check : (rowCheck ((List.range 32).map checkW)).c = 0x4004_0000 ∧ (rowCheck ((List.range 32).map checkW)).a = 0x4004_0000 := by decide +kernel

/-- 03: y[17] of x[k] = 1.0 is 18 ÷ 8. -/
theorem test_column_sum : columnSum 0 (List.replicate 32 (prodTerm (v32 0x3F80_0000) (checkW 17))) = (0x4010_0000, false) := by decide +kernel

/-- 03: the check of those outputs with 2^-20 added to column 17. -/
def faultVerdict : Verdict :=
  arrayCheck true 30 (List.replicate 32 (v32 0x3F80_0000)) (List.replicate 32 (rowCheck ((List.range 32).map checkW))) (List.replicate 32 0)
    ((List.range 32).map (fun n => if n = 17 then 0x4010_0004 else (fp32.roundMag .rne false (n + 1) 8 0).code))
    false

/-- 03: with TAU = 30, D.hi is 2^-20, A is 66 and the vector mismatches. -/
theorem test_array_check : (faultVerdict.code, faultVerdict.d, faultVerdict.a) = (1, 0x3580_0000, 0x4284_0000) := by decide +kernel

/-- 04, after R138: indices 5, 0, 6, 300, 2, 511 over six elements. -/
def permChain : ChainEnv :=
  { d := zeros 32 ++ leBytes 4 (0x28 * 2 ^ 26) ++ zeros 28, n := 6, a := [10, 11, 12, 13, 14, 15], b := [], c := [], idx := [5, 0, 6, 300, 2, 511], posQ := 0, posK := 0, window := 0, rlog := 0, docs := [], key := 0, seq := 0, core := 0, dexp := none }
theorem test_perm : (chainEval permChain).outs.map (·.map (·.v)) = [[15, 10, 0, 0, 12, 0]] := by decide +kernel

/-- 11, after R401: P = 250 ms, L = 50 µs, S = 2 s; the edge at 2,000,012,300 and the edge at 1,999,920,000. -/
def syncAt (w : Nat) : State :=
  { (((base.fset F.RED_CTRL_SYNC_EN 1).fset F.RED_CTRL_SCHED 1).wr .RED_STEP_PERIOD 250000000).wr .RED_STEP_NEXT 2000000000 with clk := { base.clk with wt := w }, red := { base.red with sync := some (0, 2000000000, 1875000000) } }
theorem test_step_sync_edge : (match execStepSyncEdge (syncAt 2000012300) with | .next t => (t.red.deltas, t.fget F.RED_SYNC_ERR_ERR, t.fget F.RED_STATUS_SYNC) | _ => default) = ([(0, 12300)], 12300, 1) := by decide +kernel
theorem test_step_sync_early : (match execStepSyncEdge (syncAt 1999920000) with | .next t => (t.red.deltas, t.fget F.RED_SYNC_ERR_ERR, t.fget F.RED_STATUS_SYNC) | _ => default) = ([(0, -50000)], 2 ^ 32 - 80000, 2) := by decide +kernel

/-- 10, after R369: 820 units held; a flow of 100 more is refused with DETAIL naming it, one of 80 is admitted. -/
def flowsHeld : State := (base.fset F.BRIM_FLOW_EN 1 0 3).fset F.BRIM_FLOW_RATE 820 0 3
theorem test_flow_admission : (flowsHeld.bFlowWrite 0 17 true 100 16).flag F.BRIM_FLOW_EN 0 17 = false
    ∧ (flowsHeld.bFlowWrite 0 17 true 80 16).flag F.BRIM_FLOW_EN 0 17 = true := by decide +kernel

/-- 06, the worked timing: C(41,61) under DEFAULT, SEG_BASE 0; held lines of banks 0 and 31 asked from ACLK 9 and, in its turn, from 73 on, bank 8 for the Epru from 40, FAB_IN in banks 8 to 11 from 101. -/
def wheelState : State := ((inTract tRUNNING base).fset F.TRACT_ORIGIN_COL 60 2).fset F.TRACT_ORIGIN_ROW 40 2
theorem test_worked_timing : (wheelState.slotFor 6211 pMX_HELD 0 9, wheelState.slotFor 6211 pMX_HELD 31 73, wheelState.slotFor 6211 pEPRU 8 40,
    [8, 9, 10, 11].map (fun b => wheelState.slotFor 6211 pFAB_IN b 101)) = (some 12, some 74, some 48, [some 120, some 122, some 124, some 126]) := by decide +kernel

/-- 07, after R258: a 32-line write from the west end begun at 0 passes the tap of column 149 with its last line in NCLK 42. -/
theorem test_bow_tap : (⟨0, false, ⟨149, 0, 0, 31, true, false, false, 0⟩, (List.range 32).map fun j => (2 * j, []), 0, false⟩ : BowBus).passes 31 149 = 2 * 42 := by decide +kernel

/-! ### Epru -/

def ep0 (e : Epru) : State := (base.setEpState 7 epRUN).setCore 7 e
def eRun : State := ep0 { g := [(3, 5), (4, 2 ^ 64 - 7), (5, 0x4F_FFF8), (6, 0x7FF_FFFC), (7, 0x50_0000), (8, 65)], next := 160 }
def eAt100 : State := eRun.fset F.EP_STATUS_PC 100 7
def eStores : State := wm (ep0 { stores := [⟨0x4F_FFF8, 8, 5, 150⟩, ⟨8, 4, 0x11223344, 150⟩] }) 7 0 (leBytes 16 0x0123456789abcdef00112233445566ff)

/-- A bundle of a queue with its TS, DEFER and payload. -/
def bun (q ts defer payload : Nat) : Nat := fields [(q, 126), (ts, 84), (defer, 83), (payload, 0)]
def eIssue : State := ep0 { g := [(4, bun 0 4 0 0 / 2 ^ 64), (6, bun 2 0 1 (7 * 2 ^ 76) % 2 ^ 64), (7, bun 2 0 1 (7 * 2 ^ 76) / 2 ^ 64)], defq := List.replicate 31 ⟨0, 0, 0⟩, next := 160, segBase := 160 }
def eBlock1 : State := wm (ep0 { g := [(3, 64), (4, 1)], next := 160, segBase := 160 }) 7 64 (leBytes 16 (bun 0 4 0 0))
def eBlock3 : State := wm (ep0 { g := [(3, 64), (4, 3)], defq := List.replicate 29 ⟨0, 0, 0⟩, next := 160, segBase := 160 }) 7 64
  (leBytes 16 (bun 2 0 1 (7 * 2 ^ 76)) ++ leBytes 16 (bun 2 0 1 (7 * 2 ^ 76 + 3 * 2 ^ 70)) ++ leBytes 16 (bun 2 0 1 (7 * 2 ^ 76)))
def eQueue : State := (base.setEpState 7 epWAIT_QUEUE).setCore 7 { wait := .queue [bun 1 50 0 0] 3, next := 162, segBase := 160, relAt := [(1, 170)] }
def eCtr : State := (base.setEpState 7 epWAIT_CTR).setCore 7 { wait := .ctr 63 2, sat := some 62 }
def eFill : State := ep0 { g := [(3, 0x4F_FFC0), (4, 0xFFC0)], next := 160 }

/-! ### Matrix engine -/

def mOn (x : Mx) : State := (base.fset F.MX_STATUS_STATE eENABLED 7).setMx 7 x
def mOff : State := inTract tRUNNING (base.fset F.MX_STATUS_STATE eDISABLED 7)
def mLoad : MxLoad := { payload := 2 ^ 76 + fields [(3, 54), (0xFFF, 42), (10, 59)], rel := 150, waits := none, after := 151 }
def mLoaded : MxLoad := { mLoad with begun := true, got := List.range 32, last := 200 }
def mPass (top swap : Nat) : MxPass := { id := 4, payload := 2 * 2 ^ 76 + fields [(1, 47), (0xFFF, 35), (31, 51), (100, 59), (top, 20), (swap, 21), (250, 27)], released := true, rel := 120, presented := true }
def mTile : MxTile := { lines := (List.range 32).map fun i => (i, List.replicate 64 1), hfmt := 1, cap := 32 }
def mEnter (begun swap : Bool) : MxPass := { mPass 1 (b2n swap) with begun := begun, tile := mTile }
def mVec (p : MxPass) : State :=
  ((mOn { passes := [p], shadow := mTile, held := mTile }).setSp 7 { rx := (List.range 32).map fun o => ⟨.feed 4 o, List.replicate 64 1, 150, false⟩ }).fset F.MX_STATUS_SHADOW_FULL 1 7
def mCol (verdict : Nat) : MxVec := ⟨4, 0, 100, List.replicate 32 5, verdict, 2 ^ 64 - 1, 88⟩
def mOut (verdict : Nat) : State := mOn { passes := [mPass 0 0], vecs := [mCol verdict] }
def lineWr : SpWr := ⟨2 ^ 64 - 1, leBytes 64 0x1234567890abcdef, 0, false⟩
def mReq : SpReq := ⟨81919, .out 0 0, some lineWr, 100⟩
def mRow : State := (mOn {}).setSp 7 { reqs := [(pMX_COLL, [mReq])] }
def mDone : MxPass := { mPass 0 0 with ents := List.replicate 32 100, begun := true }

/-- States that meet the premises of `Claim.EpruRegisterResults`, a part of `Obligations.EpruResults`. -/
theorem witness_EpruResults_EpruRegisterResults :
    (∃ s : State, ∃ c : Core, EpReady s c) :=
  ⟨eRun, 7, by dsimp only [EpReady]; decide +kernel⟩

/-- States that meet the premises of `Claim.EpruImmediateResults`, a part of `Obligations.EpruResults`. -/
theorem witness_EpruResults_EpruImmediateResults :
    (∃ s : State, ∃ c : Core, EpReady s c) :=
  ⟨eRun, 7, by dsimp only [EpReady]; decide +kernel⟩

/-- States that meet the premises of `Claim.EpruBranches`, a part of `Obligations.EpruControlFlow`. -/
theorem witness_EpruControlFlow_EpruBranches :
    (∃ s : State, ∃ c : Core, ∃ off : BitVec 16, EpReady s c ∧ 0 ≤ (s.pc c : Int) + toSigned 16 off.toNat ∧ (s.pc c : Int) + toSigned 16 off.toNat ≤ 16383) :=
  ⟨eAt100, 7, 16283, by dsimp only [EpReady]; decide +kernel⟩

/-- States that meet the premises of `Claim.EpruJumps`, a part of `Obligations.EpruControlFlow`. -/
theorem witness_EpruControlFlow_EpruJumps :
    (∃ s : State, ∃ c : Core, s.epState c = epRUN) :=
  ⟨eRun, 7, by decide +kernel⟩

/-- States that meet the premises of `Claim.EpruLoads`, a part of `Obligations.EpruMemoryAccess`, clause by clause. -/
theorem witness_EpruMemoryAccess_EpruLoads :
    (∃ s : State, ∃ c : Core, ∃ ra : RegNo, ∃ imm : BitVec 16, EpReady s c ∧ let a := s.epAddr c ra imm.toNat; Untagged s c (a / 64) ∧ s.lineBad c (a / 64) = false ∧ a ≤ 0x4F_FFFF ∧ a % 8 = 0)
    ∧ (∃ s : State, ∃ c : Core, ∃ ra : RegNo, ∃ imm : BitVec 16, EpReady s c ∧ let a := s.epAddr c ra imm.toNat; Untagged s c (a / 64) ∧ s.lineBad c (a / 64) = false ∧ a ≤ 0x4F_FFFF ∧ a % 4 = 0) :=
  ⟨⟨eRun, 7, 5, 0, by dsimp only [EpReady, Untagged]; decide +kernel⟩,
  ⟨eRun, 7, 5, 4, by dsimp only [EpReady, Untagged]; decide +kernel⟩⟩

/-- States that meet the premises of `Claim.EpruStoresAreBuffered`, a part of `Obligations.EpruMemoryAccess`, clause by clause. -/
theorem witness_EpruMemoryAccess_EpruStoresAreBuffered :
    (∃ s : State, ∃ c : Core, ∃ ra : RegNo, ∃ imm : BitVec 16, EpReady s c ∧ (s.core c).stores.length < 8 ∧ let a := s.epAddr c ra imm.toNat; a ≤ 0x4F_FFFF ∧ a % 8 = 0)
    ∧ (∃ s : State, ∃ c : Core, ∃ ra : RegNo, ∃ imm : BitVec 16, EpReady s c ∧ (s.core c).stores.length < 8 ∧ let a := s.epAddr c ra imm.toNat; a ≤ 0x4F_FFFF ∧ a % 4 = 0) :=
  ⟨⟨eRun, 7, 5, 0, by dsimp only [EpReady]; decide +kernel⟩,
  ⟨eRun, 7, 5, 4, by dsimp only [EpReady]; decide +kernel⟩⟩

/-- States that meet the premises of `Claim.EpruStoreWrites`, a part of `Obligations.EpruMemoryAccess`, clause by clause. -/
theorem witness_EpruMemoryAccess_EpruStoreWrites :
    (∃ s : State, ∃ c : Core, ∃ st : EpStore, ∃ rest : List EpStore, (s.core c).stores = st :: rest ∧ st.byte % 64 + st.size ≤ 64 ∧ Untagged s c (st.byte / 64) ∧ s.lineBad c (st.byte / 64) = false ∧ s.flag F.SP_CTRL_INJ_ARM c = false ∧ (s.slotFor c pEPRU (st.byte / 64 % 32) (max st.tb s.clk.tb)).isSome ∧ ∃ a, ¬ spRange s c st.byte st.size a)
    ∧ (∃ s : State, ∃ c : Core, ∃ st : EpStore, ∃ rest : List EpStore, (s.core c).stores = st :: rest ∧ st.byte % 64 + st.size ≤ 64 ∧ Untagged s c (st.byte / 64) ∧ s.lineBad c (st.byte / 64) = false ∧ s.flag F.SP_CTRL_INJ_ARM c = false ∧ (s.slotFor c pEPRU (st.byte / 64 % 32) (max st.tb s.clk.tb)).isSome ∧ ∃ d, d ≠ c.val) :=
  ⟨⟨eStores, 7, ⟨0x4F_FFF8, 8, 5, 150⟩, [⟨8, 4, 0x11223344, 150⟩], by decide +kernel, by decide +kernel, by dsimp only [Untagged]; decide +kernel, by decide +kernel, by decide +kernel, by decide +kernel, 0, by dsimp only [spRange]; decide +kernel⟩,
  ⟨eStores, 7, ⟨0x4F_FFF8, 8, 5, 150⟩, [⟨8, 4, 0x11223344, 150⟩], by decide +kernel, by decide +kernel, by dsimp only [Untagged]; decide +kernel, by decide +kernel, by decide +kernel, by decide +kernel, 8, by decide +kernel⟩⟩

/-- States that meet the premises of `Claim.EpruRegisterSpace`, a part of `Obligations.EpruRegisterAccess`. -/
theorem witness_EpruRegisterAccess_EpruRegisterSpace :
    (∃ s : State, ∃ c : Core, ∃ ra : RegNo, ∃ imm : BitVec 16, s.epState c = epRUN ∧ let a := s.epAddr c ra imm.toNat; a < 0x800_0000 ∧ a % 4 = 0) :=
  ⟨eRun, 7, 6, 0, by dsimp only; decide +kernel⟩

/-- States that meet the premises of `Claim.EpruCoreRegisters`, a part of `Obligations.EpruRegisterAccess`, clause by clause. -/
theorem witness_EpruRegisterAccess_EpruCoreRegisters :
    (∃ s : State, ∃ c : Core, ∃ off : BitVec 11, EpReady s c ∧ off.toNat % 4 = 0 ∧ let at_ := coreBase c + off.toNat; ∃ r : RegRef, regAt at_ = some r ∧ r.id ≠ .EP_INSTRUCTIONS ∧ r.id ≠ .EP_WAIT_CCLK ∧ r.id.defn.wide = true ∧ at_ = r.addr)
    ∧ (∃ s : State, ∃ c : Core, ∃ off : BitVec 11, EpReady s c ∧ off.toNat % 4 = 0 ∧ let at_ := coreBase c + off.toNat; ∃ r : RegRef, regAt at_ = some r ∧ r.id ≠ .EP_INSTRUCTIONS ∧ r.id ≠ .EP_WAIT_CCLK ∧ r.id.defn.wide = false)
    ∧ (∃ s : State, ∃ c : Core, ∃ off : BitVec 11, EpReady s c ∧ off.toNat % 4 = 0 ∧ let at_ := coreBase c + off.toNat; ∃ r : RegRef, regAt at_ = some r ∧ r.id ≠ .EP_INSTRUCTIONS ∧ r.id ≠ .EP_WAIT_CCLK ∧ r.id.defn.wide = true ∧ at_ ≠ r.addr ∧ mget 0 s.rHold r.addr = 0)
    ∧ (∃ s : State, ∃ c : Core, ∃ off : BitVec 11, EpReady s c ∧ off.toNat % 4 = 0 ∧ let at_ := coreBase c + off.toNat; ∃ n : Ctr, at_ = RegId.EP_ARRIVE.addr c n 0)
    ∧ (∃ s : State, ∃ c : Core, ∃ off : BitVec 11, EpReady s c ∧ off.toNat % 4 = 0 ∧ let at_ := coreBase c + off.toNat; (at_ = RegId.MX_PASSES.addr c 0 0 + 4 ∨ at_ = RegId.MX_STATUS.addr c 0 0)) :=
  ⟨⟨eRun, 7, BitVec.ofNat 11 (RegId.MX_PASSES.addr 7 0 0 - coreBase 7), by dsimp only [EpReady]; decide +kernel, by decide +kernel, ⟨.MX_PASSES, 7, 0, 0⟩, by decide +kernel⟩,
  ⟨eRun, 7, BitVec.ofNat 11 (RegId.MX_STATUS.addr 7 0 0 - coreBase 7), by dsimp only [EpReady]; decide +kernel, by decide +kernel, ⟨.MX_STATUS, 7, 0, 0⟩, by decide +kernel⟩,
  ⟨eRun, 7, BitVec.ofNat 11 (RegId.MX_PASSES.addr 7 0 0 + 4 - coreBase 7), by dsimp only [EpReady]; decide +kernel, by decide +kernel, ⟨.MX_PASSES, 7, 0, 0⟩, by decide +kernel⟩,
  ⟨eRun, 7, BitVec.ofNat 11 (RegId.EP_ARRIVE.addr 7 63 0 - coreBase 7), by dsimp only [EpReady]; decide +kernel, by decide +kernel, 63, by decide +kernel⟩,
  ⟨eRun, 7, BitVec.ofNat 11 (RegId.MX_STATUS.addr 7 0 0 - coreBase 7), by dsimp only [EpReady]; decide +kernel⟩⟩

/-- States that meet the premises of `Claim.EpruIssue`, a part of `Obligations.EpruIssues`, clause by clause. -/
theorem witness_EpruIssues_EpruIssue :
    (∃ s : State, ∃ c : Core, ∃ rd : RegNo, ∃ ra : RegNo, ∃ rb : RegNo, EpReady s c ∧ EpStartsNow s c ∧ let b := s.g c ra + s.g c rb * 2 ^ 64; BundleOnTime s c b (s.g c rd) s.clk.tb)
    ∧ (∃ s : State, ∃ c : Core, ∃ rd : RegNo, ∃ ra : RegNo, ∃ rb : RegNo, EpReady s c ∧ EpStartsNow s c ∧ let b := s.g c ra + s.g c rb * 2 ^ 64; BundleDeferred b (s.g c rd) ∧ (s.core c).defq.length < 32) :=
  ⟨⟨eIssue, 7, 0, 0, 4, by dsimp only [EpReady]; decide +kernel, ⟨by decide +kernel, by decide +kernel, fun _ => Nat.zero_le _⟩, by dsimp only [BundleOnTime]; decide +kernel⟩,
  ⟨eIssue, 7, 0, 6, 7, by dsimp only [EpReady]; decide +kernel, ⟨by decide +kernel, by decide +kernel, fun _ => Nat.zero_le _⟩, by dsimp only [BundleDeferred]; decide +kernel, by decide +kernel⟩⟩

/-- States that meet the premises of `Claim.EpruBlockIssue`, a part of `Obligations.EpruIssues`, clause by clause. -/
theorem witness_EpruIssues_EpruBlockIssue :
    (∃ s : State, ∃ c : Core, ∃ rd : RegNo, ∃ ra : RegNo, ∃ rb : RegNo, EpReady s c ∧ EpStartsNow s c ∧ let a := s.g c ra; let n := s.g c rb; 1 ≤ n ∧ n ≤ 64 ∧ a % 16 = 0 ∧ a + 16 * n ≤ 0x50_0000 ∧ (∀ l, s.lineBad c l = false) ∧ let bundle := fun k => s.epLoad c (a + 16 * k) 16; n = 1 ∧ BundleOnTime s c (bundle 0) (s.g c rd) s.clk.tb)
    ∧ (∃ s : State, ∃ c : Core, ∃ rd : RegNo, ∃ ra : RegNo, ∃ rb : RegNo, EpReady s c ∧ EpStartsNow s c ∧ let a := s.g c ra; let n := s.g c rb; 1 ≤ n ∧ n ≤ 64 ∧ a % 16 = 0 ∧ a + 16 * n ≤ 0x50_0000 ∧ (∀ l, s.lineBad c l = false) ∧ let bundle := fun k => s.epLoad c (a + 16 * k) 16; (∀ k, k < n → BundleDeferred (bundle k) (s.g c rd)) ∧ (s.core c).defq.length + n ≤ 32) :=
  ⟨⟨eBlock1, 7, 0, 3, 4, by dsimp only [EpReady]; decide +kernel, ⟨by decide +kernel, by decide +kernel, fun _ => Nat.zero_le _⟩, by decide +kernel, by decide +kernel, by decide +kernel, by decide +kernel, fun _ => rfl, by decide +kernel, by dsimp only [BundleOnTime]; decide +kernel⟩,
  ⟨eBlock3, 7, 0, 3, 4, by dsimp only [EpReady]; decide +kernel, ⟨by decide +kernel, by decide +kernel, fun _ => Nat.zero_le _⟩, by decide +kernel, by decide +kernel, by decide +kernel, by decide +kernel, fun _ => rfl, by simp only [BundleDeferred]; decide +kernel, by decide +kernel⟩⟩

/-- States that meet the premises of `Claim.EpruQueueWaitEnds`, a part of `Obligations.EpruIssues`. -/
theorem witness_EpruIssues_EpruQueueWaitEnds :
    (∃ s : State, ∃ c : Core, ∃ b : Nat, ∃ add : Nat, (s.core c).wait = .queue [b] add ∧ s.pc c < 16383 ∧ ((s.core c).queue (bQ b)).length < queueCap (bQ b) ∧ let e := s.core c; let t0 := upTo 4 (max e.next (mget 0 e.relAt (bQ b) + 1)); BundleOnTime s c b add t0) :=
  ⟨eQueue, 7, bun 1 50 0 0, 3, by dsimp only [BundleOnTime]; decide +kernel⟩

/-- States that meet the premises of `Claim.EpruArrivalCounters`, a part of `Obligations.EpruWaitsAndCounters`, clause by clause. -/
theorem witness_EpruWaitsAndCounters_EpruArrivalCounters :
    (∃ s : State, ∃ c : Core, ∃ imm : BitVec 16, s.pc c < 16383 ∧ let n := imm.toNat; s.epState c = epRUN ∧ n < 64)
    ∧ (∃ s : State, ∃ c : Core, s.pc c < 16383 ∧ ∃ m, ∃ v, ∃ at_, (s.core c).wait = .ctr m v ∧ (s.core c).sat = some at_) :=
  ⟨⟨eRun, 7, 63, by dsimp only; decide +kernel⟩,
  ⟨eCtr, 7, by decide +kernel, 63, 2, 62, by decide +kernel⟩⟩

/-- States that meet the premises of `Claim.EpruInstructionFill`, a part of `Obligations.EpruMemoryAccess`. -/
theorem witness_EpruMemoryAccess_EpruInstructionFill :
    (∃ s : State, ∃ c : Core, ∃ ra : RegNo, ∃ rb : RegNo, ∃ fn : BitVec 10, EpReady s c ∧ let n := fn.toNat + 1; let a := s.g c ra; let d := s.g c rb; a % 64 = 0 ∧ d % 64 = 0 ∧ d + 64 * n ≤ 0x1_0000 ∧ a + 64 * n ≤ 0x50_0000 ∧ (∀ l, s.lineBad c l = false) ∧ ∃ w, (w < d / 4 ∨ d / 4 + 16 * n ≤ w)) :=
  ⟨eFill, 7, 3, 4, 0, by dsimp only [EpReady]; decide +kernel, by decide +kernel, by decide +kernel, by decide +kernel, by decide +kernel, fun _ => rfl, 0, by decide +kernel⟩

/-- States that meet the premises of `Claim.EpruBarrierRerunFault`, a part of `Obligations.EpruWaitsAndCounters`, clause by clause. -/
theorem witness_EpruWaitsAndCounters_EpruBarrierRerunFault :
    (∃ s : State, ∃ c : Core, EpReady s c ∧ ∃ slot : Slot, s.slotOf c = some slot.val ∧ s.tstate slot = tRUNNING)
    ∧ (∃ s : State, ∃ c : Core, EpReady s c ∧ s.slotOf c = none) :=
  ⟨⟨inTract tRUNNING eRun, 7, by dsimp only [EpReady]; decide +kernel, 2, by decide +kernel⟩,
  ⟨eRun, 7, by dsimp only [EpReady]; decide +kernel⟩⟩

/-- States that meet the premises of `Obligations.EpruExceptions`, clause by clause. -/
theorem witness_EpruExceptions :
    (∃ s : State, ∃ c : Core, ∃ ra : RegNo, ∃ imm : BitVec 16, s.epState c = epRUN ∧ s.slotOf c = none ∧ let a := s.epAddr c ra imm.toNat; (0x4F_FFFF < a ∨ a % 8 ≠ 0))
    ∧ (∃ s : State, ∃ c : Core, ∃ ra : RegNo, ∃ imm : BitVec 16, s.epState c = epRUN ∧ s.slotOf c = none ∧ let a := s.epAddr c ra imm.toNat; (0x4F_FFFF < a ∨ a % 4 ≠ 0))
    ∧ (∃ s : State, ∃ c : Core, ∃ ra : RegNo, ∃ imm : BitVec 16, s.epState c = epRUN ∧ s.slotOf c = none ∧ let a := s.epAddr c ra imm.toNat; (0x800_0000 ≤ a ∨ a % 4 ≠ 0))
    ∧ (∃ s : State, ∃ c : Core, ∃ imm : BitVec 16, s.epState c = epRUN ∧ s.slotOf c = none ∧ 64 ≤ imm.toNat)
    ∧ (∃ s : State, ∃ c : Core, ∃ off : BitVec 11, s.epState c = epRUN ∧ s.slotOf c = none ∧ off.toNat % 4 ≠ 0)
    ∧ (∃ s : State, ∃ c : Core, ∃ ra : RegNo, ∃ rb : RegNo, s.epState c = epRUN ∧ s.slotOf c = none ∧ (s.g c rb = 0 ∨ 64 < s.g c rb ∨ s.g c ra % 16 ≠ 0)) :=
  ⟨⟨eRun, 7, 7, 0, by dsimp only; decide +kernel⟩,
  ⟨eRun, 7, 7, 0, by dsimp only; decide +kernel⟩,
  ⟨eRun, 7, 6, 4, by dsimp only; decide +kernel⟩,
  ⟨eRun, 7, 64, by decide +kernel⟩,
  ⟨eRun, 7, 2047, by decide +kernel⟩,
  ⟨eRun, 7, 3, 8, by decide +kernel⟩⟩

/-- States that meet the premises of `Claim.MatrixBundlesTakeEffect`, a part of `Obligations.MatrixBundles`, clause by clause. -/
theorem witness_MatrixBundles_MatrixBundlesTakeEffect :
    (∃ s : State, ∃ c : Core, ∃ p : BitVec 76, s.fget F.MX_STATUS_STATE c = eENABLED ∧ let v := p.toNat; v = 0)
    ∧ (∃ s : State, ∃ c : Core, ∃ p : BitVec 76, s.fget F.MX_STATUS_STATE c = eENABLED ∧ let v := p.toNat; bits v 41 0 = 0 ∧ (mxFamily (bits v 57 54)).isSome ∧ bits v 75 59 + tileLines (bits v 57 54) ≤ 81920 ∧ badRec (bits v 53 42) = false)
    ∧ (∃ s : State, ∃ c : Core, ∃ p : BitVec 76, s.fget F.MX_STATUS_STATE c = eENABLED ∧ let v := p.toNat; bits v 18 0 = 0 ∧ (mxFamily (bits v 50 47)).isSome ∧ bits v 26 24 ≤ 5 ∧ badRec (bits v 46 35) = false ∧ ({ id := 0, payload := 2 * 2 ^ 76 + v : MxPass }).lastLine ≤ 81919 ∧ (s.mxc c).passes = [])
    ∧ (∃ s : State, ∃ c : Core, ∃ p : BitVec 76, s.fget F.MX_STATUS_STATE c = eENABLED ∧ let v := p.toNat; bits v 14 0 = 0 ∧ (bits v 73 70 = 8 ∨ (mxFamily (bits v 73 70)).isSome) ∧ (bits v 73 70 ≠ 8 → (Rnd.ofCode (bits v 69 67)).isSome) ∧ bits v 37 36 ≠ 3 ∧ bits v 34 33 ≠ 3 ∧ bits v 54 38 ≤ 81919 ∧ bits v 32 16 ≤ 81919 ∧ badRec (bits v 66 55) = false ∧ (bits v 73 70 = 8 → bits v 66 55 = 0xFFF) ∧ (bit v 35 = true → bits v 66 55 ≠ 0xFFF) ∧ (bits v 37 36 = 1 → bits v 73 70 = 8 ∨ bits v 73 70 = 0 ∨ bits v 73 70 = 1) ∧ (bits v 37 36 = 2 → bits v 73 70 = 0 ∨ bits v 73 70 = 1))
    ∧ (∃ s : State, ∃ c : Core, ∃ p : BitVec 76, s.fget F.MX_STATUS_STATE c = eENABLED ∧ let v := p.toNat; bits v 68 0 = 0) :=
  ⟨⟨mOn {}, 7, 0, by dsimp only; decide +kernel⟩,
  ⟨mOn {}, 7, BitVec.ofNat 76 (fields [(0, 54), (3071, 42), (81920 - 64, 59)]), by dsimp only; decide +kernel⟩,
  ⟨mOn {}, 7, BitVec.ofNat 76 (fields [(0, 47), (0xFFF, 35), (255, 51), (81920 - 512, 59), (1, 21)]), by dsimp only; decide +kernel⟩,
  ⟨mOn {}, 7, BitVec.ofNat 76 (fields [(3, 74), (3, 70), (4, 67), (5, 55), (1, 35), (81919, 38), (2, 33)]), by dsimp only; decide +kernel⟩,
  ⟨mOn {}, 7, BitVec.ofNat 76 (fields [(1, 75), (63, 69)]), by dsimp only; decide +kernel⟩⟩

/-- States that meet the premises of `Claim.MatrixRejectsWhileOff`, a part of `Obligations.MatrixBundles`. -/
theorem witness_MatrixBundles_MatrixRejectsWhileOff :
    (∃ s : State, ∃ c : Core, ∃ slot : Slot, ∃ p : BitVec 76, s.fget F.MX_STATUS_STATE c ≠ eENABLED ∧ s.slotOf c = some slot.val ∧ s.tstate slot = tRUNNING ∧ (s.fget F.MOD_EVT_WR_INDEX + 8192 - s.fget F.MOD_EVT_RD_INDEX) % 8192 < 4096 ∧ p.toNat = 0) :=
  ⟨mOff, 7, 2, 0, by decide +kernel⟩

/-- States that meet the premises of `Claim.MatrixEngineEnables`, a part of `Obligations.EnginesEnable`, clause by clause. -/
theorem witness_EnginesEnable_MatrixEngineEnables :
    (∃ s : State, ∃ c : Core, ∃ b, (s.mxc c).enabling = some b)
    ∧ (∃ s : State, ∃ c : Core, ∃ d, ∃ b, (s.mxc c).stopping = some d ∧ d.t = some b ∧ (s.mxc c).vecs = []) :=
  ⟨⟨mOn { enabling := some 5 }, 7, 5, by decide +kernel⟩,
  ⟨mOn { stopping := some ⟨3, 0, some 4, false, 0⟩ }, 7, ⟨3, 0, some 4, false, 0⟩, 4, by decide +kernel⟩⟩

/-- States that meet the premises of `Claim.MatrixLoads`, a part of `Obligations.MatrixLoadsAndVectors`, clause by clause. -/
theorem witness_MatrixLoadsAndVectors_MatrixLoads :
    (∃ s : State, ∃ c : Core, ∃ l : MxLoad, (s.mxc c).loads = [l] ∧ l.begun = false ∧ l.waits = none)
    ∧ (∃ s : State, ∃ c : Core, ∃ l : MxLoad, (s.mxc c).loads = [l] ∧ l.begun = true ∧ tileLines (bits l.payload 57 54) ≤ l.got.length) :=
  ⟨⟨mOn { loads := [mLoad] }, 7, mLoad, by decide +kernel⟩,
  ⟨mOn { loads := [mLoaded] }, 7, mLoaded, by decide +kernel⟩⟩

/-- States that meet the premises of `Claim.MatrixVectorsEnter`, a part of `Obligations.MatrixLoadsAndVectors`, clause by clause. -/
theorem witness_MatrixLoadsAndVectors_MatrixVectorsEnter :
    (∃ s : State, ∃ c : Core, ∃ p : MxPass, (s.mxc c).passes = [p] ∧ p.slide = 0 ∧ p.out = false ∧ let u := p.ents.length; (s.mxComplete c p u).isSome ∧ p.begun = true ∧ u < p.nEnter ∧ (∀ n, s.mxFull c n = false))
    ∧ (∃ s : State, ∃ c : Core, ∃ p : MxPass, (s.mxc c).passes = [p] ∧ p.slide = 0 ∧ p.out = false ∧ let u := p.ents.length; (s.mxComplete c p 0).isSome ∧ p.begun = false ∧ p.released = true ∧ u = 0 ∧ (∀ n, s.mxFull c n = false) ∧ p.swap = true ∧ (s.mxc c).shadow.hfmt ≠ 15 ∧ mxFamily (s.mxc c).shadow.hfmt = mxFamily p.mfmt ∧ s.flag F.MX_STATUS_SHADOW_FULL c = true) :=
  ⟨⟨mVec (mEnter true false), 7, mEnter true false, by decide +kernel, by decide +kernel, by decide +kernel, by decide +kernel, by decide +kernel, by decide +kernel, fun _ => rfl⟩,
  ⟨mVec (mEnter false true), 7, mEnter false true, by decide +kernel, by decide +kernel, by decide +kernel, by decide +kernel, by decide +kernel, by decide +kernel, by decide +kernel, fun _ => rfl, by decide +kernel, by decide +kernel, by decide +kernel, by decide +kernel⟩⟩

/-- States that meet the premises of `Claim.MatrixVectorsComplete`, a part of `Obligations.MatrixOutputs`, clause by clause. -/
theorem witness_MatrixOutputs_MatrixVectorsComplete :
    (∃ s : State, ∃ c : Core, ∃ w : MxVec, ∃ rest : List MxVec, ∃ p : MxPass, (s.mxc c).vecs = w :: rest ∧ (s.mxc c).passes.find? (fun q => q.id == w.pass) = some p ∧ p.out = false ∧ w.d < 2 ^ 64 ∧ w.a < 2 ^ 64 ∧ w.verdict = 1)
    ∧ (∃ s : State, ∃ c : Core, ∃ w : MxVec, ∃ rest : List MxVec, ∃ p : MxPass, (s.mxc c).vecs = w :: rest ∧ (s.mxc c).passes.find? (fun q => q.id == w.pass) = some p ∧ p.out = false ∧ w.d < 2 ^ 64 ∧ w.a < 2 ^ 64 ∧ w.verdict ≠ 1) :=
  ⟨⟨mOut 1, 7, mCol 1, [], mPass 0 0, by decide +kernel⟩,
  ⟨mOut 0, 7, mCol 0, [], mPass 0 0, by decide +kernel⟩⟩

/-- States that meet the premises of `Claim.MatrixOutputRowServed`, a part of `Obligations.MatrixOutputs`. -/
theorem witness_MatrixOutputs_MatrixOutputRowServed :
    (∃ s : State, ∃ c : Core, ∃ r : SpReq, ∃ w : SpWr, mget [] (s.spCore c).reqs pMX_COLL = [r] ∧ r.use = .out 0 0 ∧ r.wr = some w ∧ w.wop = 0 ∧ w.data.length = 64 ∧ w.mask = 2 ^ 64 - 1 ∧ w.poison = false ∧ Untagged s c r.line ∧ s.flag F.SP_CTRL_INJ_ARM c = false ∧ (s.spCore c).rowHeld (r.line % 32 / 8) = false ∧ (s.slotFor c pMX_COLL (r.line % 32) (max r.tb s.clk.tb)).isSome ∧ ∃ a, ¬ spRange s c (64 * r.line) 64 a) :=
  ⟨mRow, 7, mReq, lineWr, by decide +kernel, by decide +kernel, by decide +kernel, by decide +kernel, by decide +kernel, by decide +kernel, by decide +kernel, by dsimp only [Untagged]; decide +kernel, by decide +kernel, by decide +kernel, by decide +kernel, 0, by dsimp only [spRange]; decide +kernel⟩

/-- States that meet the premises of `Claim.MatrixPassesAndDrainsComplete`, a part of `Obligations.MatrixOutputs`, clause by clause. -/
theorem witness_MatrixOutputs_MatrixPassesAndDrainsComplete :
    (∃ s : State, ∃ c : Core, ∃ p, ∃ rest, (s.mxc c).passes = p :: rest ∧ p.nEnter ≤ p.ents.length ∧ (s.mxc c).vecs.all (fun v => v.pass != p.id) = true)
    ∧ (∃ s : State, ∃ c : Core, ∃ d, ∃ rest, ∃ b, (s.mxc c).drains = d :: rest ∧ d.t = some b ∧ d.ctr < 64 ∧ (s.mxc c).vecs.all (fun v => d.upto ≤ v.pass) = true) :=
  ⟨⟨mOn { passes := [mDone] }, 7, mDone, [], by decide +kernel⟩,
  ⟨mOn { drains := [⟨1, 1, some 5, true, 63⟩] }, 7, ⟨1, 1, some 5, true, 63⟩, [], 5, by decide +kernel⟩⟩

/-! ### Vector engine -/

def vOn (x : Vx) : State := (base.fset F.VX_STATUS_STATE eENABLED 7).setVx 7 x
def vDoc : List (Nat × Byte) := mputs 0 [] 1024 (leBytes 4 5 ++ leBytes 4 9 ++ leBytes 4 0xFFF00010)
def vLoad : VxLoad := ⟨3, 3 * 2 ^ 76 + fields [(2, 70), (1, 64), (100, 47)], 150⟩
def vLines : State := (vOn { loads := [vLoad] }).setSp 7 { rx := [⟨.chload 3 0, leBytes 64 55, 160, false⟩, ⟨.chload 3 1, leBytes 64 57, 160, false⟩] }

/-- A descriptor of FP32 registers with one stage, ADD. -/
def vDesc : List Byte :=
  leBytes 4 0 ++ leBytes 4 0xFFFFFF ++ leBytes 4 0xFFFFFF ++ leBytes 20 0 ++ leBytes 4 0x04000000 ++ List.replicate 28 0
def vPay : Nat := fields [(5, 70), (1, 52), (2, 34), (3, 16)]
def vChain : VxChain := { id := 0, payload := 2 * 2 ^ 76 + vPay, rel := 150, n := 256 }
def vBegun : VxChain := { vChain with desc := vDesc, presented := true }
def vBeat : VxChain := { vBegun with ents := [170, 166, 162, 158], a := List.replicate 256 0x3f800000, b := List.replicate 256 0x40000000, wrote := 3 }
def vWhole : VxChain := { vBegun with ents := [170, 166, 162, 158], wrote := 4 }

/-! ### Tracts and cores -/

def tr (st : Nat) : State := inTract st base
def barrierOf (kind : Nat) (vote : Bool) : BarRec := ⟨170, kind, vote, false⟩
def tArrived : State := ((tr tRUNNING).setCore 6 { barIn := some (barrierOf 0 false) }).setCore 7 { barOut := some (barrierOf 0 false) }
  |>.setCore 156 { barOut := some (barrierOf 0 false) }
def tRel (rerun : Bool) : Rel := ⟨163, rerun, false, true, false, 140⟩
def tReleased (st : Nat) : State := (tr st).setTract 2 { rel := some (tRel true) }

/-- States that meet the premises of `Claim.VectorBundlesTakeEffect`, a part of `Obligations.VectorBundles`, clause by clause. -/
theorem witness_VectorBundles_VectorBundlesTakeEffect :
    (∃ s : State, ∃ c : Core, ∃ p : BitVec 76, s.fget F.VX_STATUS_STATE c = eENABLED ∧ let v := p.toNat; v = 0)
    ∧ (∃ s : State, ∃ c : Core, ∃ p : BitVec 76, s.fget F.VX_STATUS_STATE c = eENABLED ∧ let v := p.toNat; bits v 64 0 = 0)
    ∧ (∃ s : State, ∃ c : Core, ∃ w : BitVec 74, s.fget F.VX_STATUS_STATE c = eENABLED ∧ let u := w.toNat; bits u 33 0 = 0)
    ∧ (∃ s : State, ∃ c : Core, ∃ w : BitVec 74, s.fget F.VX_STATUS_STATE c = eENABLED ∧ let u := w.toNat; bits u 49 0 = 0 ∧ bits u 53 50 ≤ 9)
    ∧ (∃ s : State, ∃ c : Core, ∃ p : BitVec 76, s.fget F.VX_STATUS_STATE c = eENABLED ∧ let v := p.toNat; bits v 61 0 = 0 ∧ bits v 70 62 ≤ 256 ∧ (s.vxc c).docWait = [] ∧ (s.vxc c).chains = [] ∧ let entries := (((s.vxc c).regElems (bits v 75 71) 4 0 (bits v 70 62)).map (· % 2 ^ 20)); entries.IsChain (· < ·))
    ∧ (∃ s : State, ∃ c : Core, ∃ p : BitVec 76, s.fget F.VX_STATUS_STATE c = eENABLED ∧ let v := p.toNat; bits v 68 0 = 0) :=
  ⟨⟨vOn {}, 7, 0, by dsimp only; decide +kernel⟩,
  ⟨vOn {}, 7, BitVec.ofNat 76 (fields [(1, 75), (512, 65)]), by dsimp only; decide +kernel⟩,
  ⟨vOn {}, 7, BitVec.ofNat 74 (fields [(0xFFFFF, 54), (0xFFFFF, 34)]), by dsimp only; decide +kernel⟩,
  ⟨vOn {}, 7, BitVec.ofNat 74 (fields [(5, 54), (9, 50)]), by dsimp only; decide +kernel⟩,
  ⟨vOn { v := vDoc }, 7, BitVec.ofNat 76 (fields [(1, 71), (3, 62)]), by dsimp only; decide +kernel⟩,
  ⟨vOn {}, 7, BitVec.ofNat 76 (fields [(1, 75), (63, 69)]), by dsimp only; decide +kernel⟩⟩

/-- States that meet the premises of `Claim.VectorDescriptorsLoad`, a part of `Obligations.VectorBundles`, clause by clause. -/
theorem witness_VectorBundles_VectorDescriptorsLoad :
    (∃ s : State, ∃ c : Core, ∃ p : BitVec 76, let v := p.toNat; s.fget F.VX_STATUS_STATE c = eENABLED ∧ bits v 46 0 = 0 ∧ bits v 75 70 + bits v 69 64 < 64 ∧ bits v 63 47 + bits v 69 64 < 81920 ∧ mget [] (s.spCore c).reqs pVX_A = [])
    ∧ (∃ s : State, ∃ c : Core, ∃ l : VxLoad, (s.vxc c).loads = [l] ∧ (s.vxc c).chains = [] ∧ let n := bits l.payload 69 64 + 1; (∀ i, i < n → ((s.spCore c).got (.chload l.id i)).isSome)) :=
  ⟨⟨vOn {}, 7, BitVec.ofNat 76 (fields [(2, 70), (61, 64), (81920 - 62, 47)]), by decide +kernel⟩,
  ⟨vLines, 7, vLoad, by dsimp only; decide +kernel⟩⟩

/-- States that meet the premises of `Claim.VectorChainsBegin`, a part of `Obligations.VectorChains`, clause by clause. -/
theorem witness_VectorChains_VectorChainsBegin :
    (∃ s : State, ∃ c : Core, ∃ p : BitVec 76, ∃ q : VxChain, let v := p.toNat; s.fget F.VX_STATUS_STATE c = eENABLED ∧ bits v 2 0 = 0 ∧ (s.vxc c).loads = [] ∧ (s.vxc c).chains = [] ∧ q.payload = 2 * 2 ^ 76 + v ∧ q.opA ≠ .bad ∧ q.opB ≠ .bad ∧ q.opD ≠ .bad ∧ let d := mget [] (s.vxc c).desc q.cid; let n := min (s.fget F.VX_VL_VL c) (vlMax (dEw d)); chainReason q d n = none)
    ∧ (∃ s : State, ∃ c : Core, ∃ q : VxChain, (s.vxc c).chains = [q] ∧ q.desc ≠ [] ∧ q.entered = false ∧ q.cValid = false ∧ q.idxReg = none ∧ (s.vxc c).docWait = [] ∧ (s.spCore c).vxBeats.length < 32 ∧ ∃ av, ∃ ta, ∃ bv, ∃ tb, s.srcBeat c q q.opA pVX_A (dAfmt q.desc) (dAscale q.desc) q.ents.length = some (av, ta) ∧ s.srcBeat c q q.opB pVX_B (dBfmt q.desc) (dBscale q.desc) q.ents.length = some (bv, tb)) :=
  ⟨⟨(vOn { desc := [(5, vDesc)] }).fset F.VX_VL_VL 256 7, 7, BitVec.ofNat 76 vPay, vChain, by dsimp only; decide +kernel⟩,
  ⟨vOn { chains := [vBegun] }, 7, vBegun, by decide +kernel, by decide +kernel, by decide +kernel, by decide +kernel, by decide +kernel, by decide +kernel, by decide +kernel, List.replicate 64 0, 0, List.replicate 64 0, 0, by decide +kernel⟩⟩

/-- States that meet the premises of `Claim.VectorBeatsWritten`, a part of `Obligations.VectorChains`. -/
theorem witness_VectorChains_VectorBeatsWritten :
    (∃ s : State, ∃ c : Core, ∃ q : VxChain, ∃ r : Nat, ∃ tw : Nat, (s.vxc c).chains = [q] ∧ q.nextWrite = some tw ∧ q.opD = .reg r ∧ (s.vxc c).docWait = [] ∧ dDmask q.desc = false ∧ dDscale q.desc = 0xFFF ∧ let res := chainEval (s.vxEnv c q); res.lse = none ∧ let len := beatLen (dEw q.desc); let els := ((res.outs.getLastD []).drop (q.wrote * len)).take (min q.n (q.wrote * len + len) - q.wrote * len); let w := q.elemBytes; let at_ := r * 1024 + q.wrote * len * w; ∃ a, (a < at_ ∨ at_ + els.length * w ≤ a)) :=
  ⟨vOn { chains := [vBeat] }, 7, vBeat, 3, vBeat.nextWrite.getD 0, by decide +kernel, by decide +kernel, by decide +kernel, by decide +kernel, by decide +kernel, by decide +kernel, by decide +kernel, 0, by decide +kernel⟩

/-- States that meet the premises of `Claim.VectorChainsAndDrainsComplete`, a part of `Obligations.VectorChains`, clause by clause. -/
theorem witness_VectorChains_VectorChainsAndDrainsComplete :
    (∃ s : State, ∃ c : Core, ∃ q, (s.vxc c).chains = [q] ∧ q.entered = true ∧ q.beats ≤ q.wrote ∧ (s.vxc c).docWait = [])
    ∧ (∃ s : State, ∃ c : Core, ∃ d, ∃ rest, ∃ b, (s.vxc c).drains = d :: rest ∧ d.t = some b ∧ d.ctr < 64) :=
  ⟨⟨vOn { chains := [vWhole] }, 7, vWhole, by decide +kernel⟩,
  ⟨vOn { drains := [⟨1, 1, some 5, true, 63⟩] }, 7, ⟨1, 1, some 5, true, 63⟩, [], 5, by decide +kernel⟩⟩

/-- States that meet the premises of `Claim.VectorEngineEnables`, a part of `Obligations.EnginesEnable`, clause by clause. -/
theorem witness_EnginesEnable_VectorEngineEnables :
    (∃ s : State, ∃ c : Core, ∃ b, (s.vxc c).enabling = some b)
    ∧ (∃ s : State, ∃ c : Core, ∃ d, ∃ b, (s.vxc c).stopping = some d ∧ d.t = some b) :=
  ⟨⟨vOn { enabling := some 5 }, 7, 5, by decide +kernel⟩,
  ⟨vOn { stopping := some ⟨3, 0, some 4, false, 0⟩ }, 7, ⟨3, 0, some 4, false, 0⟩, 4, by decide +kernel⟩⟩

/-- States that meet the premises of `Claim.CoreBundlesTakeEffect`, a part of `Obligations.CoreBundles`, clause by clause. -/
theorem witness_CoreBundles_CoreBundlesTakeEffect :
    (∃ p : BitVec 76, let v := p.toNat; v = 0)
    ∧ (∃ s : State, ∃ c : Core, ∃ p : BitVec 76, let v := p.toNat; ∃ b, ∃ rest, bits v 69 0 = 0 ∧ (s.core c).defRel = b :: rest ∧ b.payload = 2 ^ 76 + v) :=
  ⟨⟨0, by decide +kernel⟩,
  ⟨base.setCore 7 { defRel := [⟨170, 2 ^ 76 + fields [(63, 70)], 0⟩] }, 7, BitVec.ofNat 76 (fields [(63, 70)]), ⟨170, 2 ^ 76 + fields [(63, 70)], 0⟩, [], by decide +kernel⟩⟩

/-- States that meet the premises of `Claim.ReservedOpcodesFault`, a part of `Obligations.CoreBundles`. -/
theorem witness_CoreBundles_ReservedOpcodesFault :
    (∃ s : State, ∃ c : Core, ∃ slot : Slot, ∃ q : Fin 3, ∃ p : BitVec 80, s.slotOf c = some slot.val ∧ s.tstate slot = tRUNNING ∧ (s.fget F.MOD_EVT_WR_INDEX + 8192 - s.fget F.MOD_EVT_RD_INDEX) % 8192 < 4096 ∧ let op := bits p.toNat 79 76; (q = 0 ∧ 5 ≤ op ∨ q = 1 ∧ 7 ≤ op ∨ q = 2 ∧ (5 ≤ op ∧ op ≤ 7 ∨ 14 ≤ op))) :=
  ⟨tr tRUNNING, 7, 2, 2, BitVec.ofNat 80 (7 * 2 ^ 76), by dsimp only; decide +kernel⟩

/-- States that meet the premises of `Claim.TractsLoadAndFree`, a part of `Obligations.TractSlots`, clause by clause. -/
theorem witness_TractSlots_TractsLoadAndFree :
    (∃ s : State, ∃ slot : Slot, s.tstate slot = tFREE ∧ s.flag F.PWR_STATUS_CORES_READY = true ∧ s.tractBad slot = none)
    ∧ (∃ s : State, ∃ slot : Slot, s.tstate slot = tFREE ∧ s.flag F.PWR_STATUS_CORES_READY = true ∧ ∃ r, s.tractBad slot = some r ∧ (s.fget F.MOD_EVT_WR_INDEX + 8192 - s.fget F.MOD_EVT_RD_INDEX) % 8192 < 4096)
    ∧ (∃ s : State, ∃ slot : Slot, (s.tstate slot = tLOADED ∨ s.tstate slot = tSTOPPED ∨ s.tstate slot = tHALTED ∨ s.tstate slot = tFAULTED)) :=
  ⟨⟨(tr tFREE).fset F.PWR_STATUS_CORES_READY 1, 2, by decide +kernel⟩,
  ⟨base.fset F.PWR_STATUS_CORES_READY 1, 2, by decide +kernel, by decide +kernel, 1, by decide +kernel⟩,
  ⟨tr tFAULTED, 2, by decide +kernel⟩⟩

/-- States that meet the premises of `Claim.TractsEnableAndDisable`, a part of `Obligations.TractSlots`, clause by clause. -/
theorem witness_TractSlots_TractsEnableAndDisable :
    (∃ s : State, s.pState = pBOIL ∧ s.pwr.move = none)
    ∧ (∃ s : State, ∃ slot : Slot, (s.tract slot).filling = true) :=
  ⟨⟨base, by decide +kernel⟩,
  ⟨base.setTract 2 { filling := true }, 2, by decide +kernel⟩⟩

/-- States that meet the premises of `Claim.BarrierArrivalsCombine`, a part of `Obligations.BarriersCombineAndRelease`, clause by clause. -/
theorem witness_BarriersCombineAndRelease_BarrierArrivalsCombine :
    (∃ s : State, ∃ c : Core, ∃ k, (s.core c).wait = .bar k ∧ (s.core c).barIn = none ∧ s.quiet c = true)
    ∧ (∃ s : State, ∃ c : Core, ∃ slot : Slot, ∃ own, s.slotOf c = some slot.val ∧ s.running c = true ∧ (s.core c).barIn = some own ∧ (s.core c).barOut = none ∧ (∀ d, d ∈ s.treeBeyond slot c → (s.core d).barOut ≠ none)) :=
  ⟨⟨base.setCore 7 { wait := .bar 1 }, 7, 1, by decide +kernel⟩,
  ⟨tArrived, 6, 2, barrierOf 0 false, by decide +kernel⟩⟩

/-- States that meet the premises of `Claim.BarrierReleaseReceived`, a part of `Obligations.BarriersCombineAndRelease`, clause by clause. -/
theorem witness_BarriersCombineAndRelease_BarrierReleaseReceived :
    (∃ s : State, ∃ c : Core, ∃ slot : Slot, ∃ r : Rel, s.slotOf c = some slot.val ∧ (s.tract slot).rel = some r ∧ r.barrier = true ∧ (s.core c).brel = none ∧ r.sent + 4 * (c.val / 150 - s.fget F.TRACT_ORIGIN_ROW slot + (c.val % 150 - s.fget F.TRACT_ORIGIN_COL slot)) + 4 ≤ s.clk.tb ∧ r.tb < s.clk.tb + 4)
    ∧ (∃ s : State, ∃ c : Core, ∃ slot : Slot, ∃ r : Rel, s.slotOf c = some slot.val ∧ (s.tract slot).rel = some r ∧ r.barrier = true ∧ (s.core c).brel = none ∧ r.sent + 4 * (c.val / 150 - s.fget F.TRACT_ORIGIN_ROW slot + (c.val % 150 - s.fget F.TRACT_ORIGIN_COL slot)) + 4 ≤ s.clk.tb ∧ ∃ d, d ≠ c.val) :=
  ⟨⟨tReleased tRUNNING, 157, 2, tRel true, by decide +kernel⟩,
  ⟨tReleased tRUNNING, 157, 2, tRel true, by decide +kernel, by decide +kernel, by decide +kernel, by decide +kernel, by decide +kernel, 7, by decide +kernel⟩⟩

/-- States that meet the premises of `Claim.BarriersRelease`, a part of `Obligations.BarriersCombineAndRelease`, clause by clause. -/
theorem witness_BarriersCombineAndRelease_BarriersRelease :
    (∃ s : State, ∃ slot : Slot, ∃ r : Rel, (s.tract slot).rel = some r ∧ 0 < r.tb ∧ r.barrier = true ∧ r.first = false ∧ r.tb < 2 ^ 64 ∧ s.fget F.TRACT_ORIGIN_COL slot + s.fget F.TRACT_SIZE_COL slot ≤ 150 ∧ (∀ c, (s.core c).brel = none) ∧ s.tstate slot = tRUNNING ∧ s.fieldsActive slot = true)
    ∧ (∃ s : State, ∃ slot : Slot, ∃ r : Rel, (s.tract slot).rel = some r ∧ 0 < r.tb ∧ r.barrier = true ∧ r.first = false ∧ r.tb < 2 ^ 64 ∧ s.fget F.TRACT_ORIGIN_COL slot + s.fget F.TRACT_SIZE_COL slot ≤ 150 ∧ (∀ c, (s.core c).brel = none) ∧ s.tstate slot = tSTOPPING ∧ s.flag F.TRACT_STATUS_ENABLE_PENDING slot = false) :=
  ⟨⟨tReleased tRUNNING, 2, tRel true, by decide +kernel, by decide +kernel, by decide +kernel, by decide +kernel, by decide +kernel, by decide +kernel, fun _ => rfl, by decide +kernel, by decide +kernel⟩,
  ⟨tReleased tSTOPPING, 2, tRel true, by decide +kernel, by decide +kernel, by decide +kernel, by decide +kernel, by decide +kernel, by decide +kernel, fun _ => rfl, by decide +kernel, by decide +kernel⟩⟩

/-- States that meet the premises of `Obligations.TractTimeouts`, clause by clause. -/
theorem witness_TractTimeouts :
    (∃ s : State, ∃ slot : Slot, s.tstate slot = tRUNNING ∧ (s.tract slot).rootT = none)
    ∧ (∃ s : State, ∃ slot : Slot, ∃ c : Core, ∃ port : Fin 16, ∃ bank : Fin 32, s.slotOf c = some slot.val ∧ s.tstate slot = tRUNNING ∧ s.fget F.TRACT_MODE_TAGMODE slot = 1 ∧ mget 0 (s.spCore c).blocked (port.val * 32 + bank.val) ≠ 0) :=
  ⟨⟨tr tRUNNING, 2, by decide +kernel⟩,
  ⟨((tr tRUNNING).fset F.TRACT_MODE_TAGMODE 1 2).setSp 7 { blocked := [(511, 40)] }, 2, 7, 15, 31, by decide +kernel⟩⟩

/-! ### Scratchpads -/

def pattern (k : Nat) : List Byte := (List.range 64).map fun i => BitVec.ofNat 8 (i * 7 + k)
def pWrite (wop mask : Nat) : SpWr := ⟨mask, pattern 3, wop, false⟩
def pWr (wop mask : Nat) : SpReq := ⟨81919, .out 0 0, some (pWrite wop mask), 100⟩
def pRd : SpReq := ⟨81919, .vxSrc 0 0 0, none, 100⟩
def pHas (port : Nat) (r : SpReq) : State := base.setSp 7 { reqs := [(port, [r])] }
def pRead (bad : Nat) : State := { pHas pVX_A pRd with spCode := mput 0 [] (base.lineKey 7 81919) bad }
def pRowPkt : Packet := { typ := Packet.RD, dest := 7, src := destHost, addr := 0x1000_0000_0000 + 7 * 0x80_0000 + 512 * 10239 + 5, lenm1 := 9, flags := 1 }
def pRow (d : Option (List Byte)) : RowReq := { agent := 4, row := 10239, data := d, pkt := some pRowPkt }
def pHost (w : Nat) : State := (base.fset F.PWR_STATUS_CORES_READY 1).fset F.HOST_BAR4_SEL_WINDOW w

/-! ### The fabric -/

def fWr (d : Nat) : Packet := { typ := Packet.WR, dest := d, src := 40, addr := 0x1000_0000_0000 + 7 * 0x80_0000 + 64 * 5 + 60, lenm1 := 63, data := pattern 3 }
def fRed (count : Nat) : Packet := { typ := Packet.RED, dest := 7, src := 40, count := count, addr := 0x1000_0000_0000 + 7 * 0x80_0000 + 64 * 5, lenm1 := 63, data := leBytes 8 0x3f800000 ++ List.replicate 56 0, rid := 4 }
def fMerge : State := base.fset F.FB_MERGE_MERGE_EN 1 7
def fHeld : MergeEntry := ⟨outPort 7 7, fRed 65533, 146, 3, false⟩
def fReg (typ off : Nat) (d : List Byte) : Packet := { typ := typ, dest := destReg, src := 40, addr := 0x2000_0000_0000 + off, lenm1 := 3, data := d }
def fOp (op : Nat) : FabOp := { id := 3, op := op, external := false, left := 1, line := 81919, nlines := 1, target := 0 }
def fOps (op out : Nat) : State := (base.setFb 7 { ops := [fOp op], wrOut := 1 }).fset F.FB_STATUS_OUTSTANDING out 7
def fTgt : State := base.wr .FB_TGT (BitVec.ofNat 64 (1023 * 2 ^ 54 + 0x1000_0000_0000 + 9 * 0x80_0000)) 7 3
def bowLine : BowBus := { id := 5, east := true, hdr := { col1 := 7, col0 := 7, line := 81919, nlm1 := 0, land := true, rowm := false, arrive := false, ctr := 0 }, lines := [(150, pattern 5)], left := 150 }

/-! ### Registers -/

def lane (r : RegRef) : BitVec 24 := BitVec.ofNat 24 (r.addr / 8)
def xlat : RegRef := ⟨.HOST_XLAT_BASE, 0, 255, 0⟩

/-- States that meet the premises of `Obligations.ScratchpadWriteServed`, clause by clause. -/
theorem witness_ScratchpadWriteServed :
    (∃ s : State, ∃ c : Core, ∃ port : Fin 16, ∃ bank : Fin 32, ∃ r : SpReq, ∃ w : SpWr, mget [] (s.spCore c).reqs port = [r] ∧ r.line % 32 = bank.val ∧ r.use = .out 0 0 ∧ r.wr = some w ∧ w.data.length = 64 ∧ w.poison = false ∧ Untagged s c r.line ∧ s.lineBad c r.line = false ∧ s.flag F.SP_CTRL_INJ_ARM c = false ∧ (s.spCore c).rowHeld (bank.val / 8) = false ∧ (s.slotFor c port bank (max r.tb s.clk.tb)).isSome ∧ (w.wop = 0 ∨ w.wop = 4 ∧ w.mask = 2 ^ 64 - 1) ∧ w.wop = 4 ∧ ∃ e, e < 16)
    ∧ (∃ s : State, ∃ c : Core, ∃ port : Fin 16, ∃ bank : Fin 32, ∃ r : SpReq, ∃ w : SpWr, mget [] (s.spCore c).reqs port = [r] ∧ r.line % 32 = bank.val ∧ r.use = .out 0 0 ∧ r.wr = some w ∧ w.data.length = 64 ∧ w.poison = false ∧ Untagged s c r.line ∧ s.lineBad c r.line = false ∧ s.flag F.SP_CTRL_INJ_ARM c = false ∧ (s.spCore c).rowHeld (bank.val / 8) = false ∧ (s.slotFor c port bank (max r.tb s.clk.tb)).isSome ∧ (w.wop = 0 ∨ w.wop = 4 ∧ w.mask = 2 ^ 64 - 1) ∧ ∃ a, ¬ spRange s c (64 * r.line) 64 a) :=
  ⟨⟨pHas pFAB_IN (pWr 4 (2 ^ 64 - 1)), 7, BitVec.toFin (BitVec.ofNat 4 pFAB_IN), 31, pWr 4 (2 ^ 64 - 1), pWrite 4 (2 ^ 64 - 1), by decide +kernel, by decide +kernel, by decide +kernel, by decide +kernel, by decide +kernel, by decide +kernel, by dsimp only [Untagged]; decide +kernel, by decide +kernel, by decide +kernel, by decide +kernel, by decide +kernel, by decide +kernel, by decide +kernel, 15, by decide +kernel⟩,
  ⟨pHas pVX_W (pWr 0 0xF0F0), 7, BitVec.toFin (BitVec.ofNat 4 pVX_W), 31, pWr 0 0xF0F0, pWrite 0 0xF0F0, by decide +kernel, by decide +kernel, by decide +kernel, by decide +kernel, by decide +kernel, by decide +kernel, by dsimp only [Untagged]; decide +kernel, by decide +kernel, by decide +kernel, by decide +kernel, by decide +kernel, by decide +kernel, 0, by dsimp only [spRange]; decide +kernel⟩⟩

/-- States that meet the premises of `Obligations.ScratchpadReadServed`, clause by clause. -/
theorem witness_ScratchpadReadServed :
    (∃ s : State, ∃ c : Core, ∃ port : Fin 16, ∃ bank : Fin 32, ∃ r : SpReq, mget [] (s.spCore c).reqs port = [r] ∧ r.line % 32 = bank.val ∧ r.use = .vxSrc 0 0 0 ∧ r.wr = none ∧ Untagged s c r.line ∧ (s.spCore c).rowHeld (bank.val / 8) = false ∧ (s.slotFor c port bank (max r.tb s.clk.tb)).isSome ∧ let bad := s.lineBad c r.line; bad = false)
    ∧ (∃ s : State, ∃ c : Core, ∃ port : Fin 16, ∃ bank : Fin 32, ∃ r : SpReq, mget [] (s.spCore c).reqs port = [r] ∧ r.line % 32 = bank.val ∧ r.use = .vxSrc 0 0 0 ∧ r.wr = none ∧ Untagged s c r.line ∧ (s.spCore c).rowHeld (bank.val / 8) = false ∧ (s.slotFor c port bank (max r.tb s.clk.tb)).isSome ∧ let bad := s.lineBad c r.line; bad = true) :=
  ⟨⟨pRead 0, 7, BitVec.toFin (BitVec.ofNat 4 pVX_A), 31, pRd, by dsimp only [Untagged]; decide +kernel⟩,
  ⟨pRead 1, 7, BitVec.toFin (BitVec.ofNat 4 pVX_A), 31, pRd, by dsimp only [Untagged]; decide +kernel⟩⟩

/-- States that meet the premises of `Claim.RowAccessServed`, a part of `Obligations.RowAccesses`, clause by clause. -/
theorem witness_RowAccesses_RowAccessServed :
    (∃ s : State, ∃ c : Core, ∃ g : Fin 4, ∃ r : RowReq, ∃ p : Packet, (s.spCore c).rows = [r] ∧ r.agent = 4 ∧ r.row % 4 = g.val ∧ r.pkt = some p ∧ ∃ d, r.data = some d ∧ d.length = 512)
    ∧ (∃ s : State, ∃ c : Core, ∃ g : Fin 4, ∃ r : RowReq, ∃ p : Packet, (s.spCore c).rows = [r] ∧ r.agent = 4 ∧ r.row % 4 = g.val ∧ r.pkt = some p ∧ r.data = none ∧ s.rowBad c r.row = none) :=
  ⟨⟨base.setSp 7 { rows := [pRow (some (List.replicate 512 1))] }, 7, 3, pRow (some (List.replicate 512 1)), pRowPkt, by decide +kernel, by decide +kernel, by decide +kernel, by decide +kernel, List.replicate 512 1, by decide +kernel⟩,
  ⟨base.setSp 7 { rows := [pRow none] }, 7, 3, pRow none, pRowPkt, by decide +kernel⟩⟩

/-- States that meet the premises of `Claim.Bar4Accesses`, a part of `Obligations.RowAccesses`, clause by clause. -/
theorem witness_RowAccesses_Bar4Accesses :
    (∃ s : State, ∃ off : BitVec 34, ∃ n : Fin 4097, let c := 2048 * s.fget F.HOST_BAR4_SEL_WINDOW + off.toNat / 0x80_0000; let b := off.toNat % 0x80_0000; s.hostUp = true ∧ s.host.d3hot = false ∧ s.windowsOpen = true ∧ s.flag F.PWR_STATUS_CORES_READY = true ∧ c < 18000 ∧ s.host.reqs = [] ∧ 0 < n.val ∧ b % 512 + n.val ≤ 512 ∧ b + n.val ≤ 0x50_0000 ∧ s.rowAvail c = true)
    ∧ (∃ s : State, ∃ off : BitVec 34, ∃ n : Fin 4097, let c := 2048 * s.fget F.HOST_BAR4_SEL_WINDOW + off.toNat / 0x80_0000; let b := off.toNat % 0x80_0000; s.hostUp = true ∧ s.host.d3hot = false ∧ s.windowsOpen = true ∧ s.flag F.PWR_STATUS_CORES_READY = true ∧ c < 18000 ∧ s.host.reqs = [] ∧ 0 < n.val ∧ b % 512 + n.val ≤ 512 ∧ b + n.val ≤ 0x50_0000 ∧ s.rowAvail c = false)
    ∧ (∃ s : State, ∃ off : BitVec 34, ∃ data : List Byte, let c := 2048 * s.fget F.HOST_BAR4_SEL_WINDOW + off.toNat / 0x80_0000; let b := off.toNat % 0x80_0000; s.hostUp = true ∧ s.host.d3hot = false ∧ s.windowsOpen = true ∧ s.flag F.PWR_STATUS_CORES_READY = true ∧ c < 18000 ∧ s.host.reqs = [] ∧ b % 512 = 0 ∧ b < 0x50_0000 ∧ data.length = 512 ∧ s.rowAvail c = true) :=
  ⟨⟨pHost 8, BitVec.ofNat 34 (1615 * 0x80_0000 + 512 * 10239), 512, by decide +kernel⟩,
  ⟨inTract tRUNNING (pHost 0), BitVec.ofNat 34 (7 * 0x80_0000 + 512 * 10239 + 500), 12, by decide +kernel⟩,
  ⟨pHost 8, BitVec.ofNat 34 (1615 * 0x80_0000 + 512 * 10239), List.replicate 512 1, by decide +kernel⟩⟩

/-- States that meet the premises of `Obligations.ScratchpadControls`, clause by clause. -/
theorem witness_ScratchpadControls :
    (∃ s : State, ∃ c : Core, s.flag F.SP_BIST_BUSY c = true)
    ∧ (∃ s : State, ∃ c : Core, s.running c = false ∧ (s.spCore c).planWait = true) :=
  ⟨⟨base.fset F.SP_BIST_BUSY 1 7, 7, by decide +kernel⟩,
  ⟨base.setSp 7 { planWait := true }, 7, by decide +kernel⟩⟩

/-- States that meet the premises of `Claim.RouterHops`, a part of `Obligations.PacketsHop`, clause by clause. -/
theorem witness_PacketsHop_RouterHops :
    (∃ s : State, ∃ c : Core, ∃ p : Packet, p ∉ s.flights.map (·.pkt) ∧ packetReserved p = false ∧ p.dest < 18000 ∧ p.dest = c.val)
    ∧ (∃ s : State, ∃ c : Core, ∃ p : Packet, p ∉ s.flights.map (·.pkt) ∧ packetReserved p = false ∧ p.dest < 18000 ∧ let col := c.val % 150; col < p.dest % 150 ∧ s.linkDown c 1 = false)
    ∧ (∃ s : State, ∃ c : Core, ∃ p : Packet, p ∉ s.flights.map (·.pkt) ∧ packetReserved p = false ∧ p.dest < 18000 ∧ let col := c.val % 150; p.dest % 150 < col ∧ s.linkDown c 3 = false)
    ∧ (∃ s : State, ∃ c : Core, ∃ p : Packet, p ∉ s.flights.map (·.pkt) ∧ packetReserved p = false ∧ p.dest < 18000 ∧ let row := c.val / 150; let col := c.val % 150; p.dest % 150 = col ∧ row < p.dest / 150 ∧ s.linkDown c 2 = false)
    ∧ (∃ s : State, ∃ c : Core, ∃ p : Packet, p ∉ s.flights.map (·.pkt) ∧ packetReserved p = false ∧ p.dest < 18000 ∧ let row := c.val / 150; let col := c.val % 150; p.dest % 150 = col ∧ p.dest / 150 < row ∧ s.linkDown c 0 = false)
    ∧ (∃ s : State, ∃ c : Core, ∃ p : Packet, p ∉ s.flights.map (·.pkt) ∧ packetReserved p = false ∧ p.dest < 18000 ∧ let col := c.val % 150; col < p.dest % 150 ∧ s.linkDown c 1 = true ∧ p.typ = Packet.WR) :=
  ⟨⟨base, 7, fWr 7, by decide +kernel⟩,
  ⟨base, 148, fWr 17999, by dsimp only; decide +kernel⟩,
  ⟨base, 1, fWr 17850, by dsimp only; decide +kernel⟩,
  ⟨base, 17849, fWr 17999, by dsimp only; decide +kernel⟩,
  ⟨base, 17999, fWr 149, by dsimp only; decide +kernel⟩,
  ⟨base.fset F.FB_STATUS_LINK_DOWN 2 148, 148, fWr 17999, by dsimp only; decide +kernel⟩⟩

/-- States that meet the premises of `Claim.MergeStages`, a part of `Obligations.PacketsHop`, clause by clause. -/
theorem witness_PacketsHop_MergeStages :
    (∃ s : State, ∃ c : Core, ∃ p : Packet, p ∉ s.flights.map (·.pkt) ∧ packetReserved p = false ∧ p.typ = Packet.RED ∧ s.flag F.FB_MERGE_MERGE_EN c = true ∧ (s.fb c).merge = [])
    ∧ (∃ s : State, ∃ c : Core, ∃ p : Packet, p ∉ s.flights.map (·.pkt) ∧ packetReserved p = false ∧ p.typ = Packet.RED ∧ s.flag F.FB_MERGE_MERGE_EN c = true ∧ let m := upTo 2 s.clk.tb + 2; let out := outPort c p.dest; ∃ e, (s.fb c).merge = [e] ∧ e.out = out ∧ e.closed = false ∧ e.m < m ∧ m ≤ e.m + 16 ∧ packetSameKey e.pkt p = true ∧ e.pkt.typ = Packet.RED ∧ e.pkt.count + p.count ≤ 65535)
    ∧ (∃ s : State, ∃ c : Core, ∃ p : Packet, p ∉ s.flights.map (·.pkt) ∧ packetReserved p = false ∧ p.typ = Packet.RED ∧ s.flag F.FB_MERGE_MERGE_EN c = true ∧ ∃ e, ∃ rest, (s.fb c).merge = e :: rest ∧ e.pkt.dest = c.val) :=
  ⟨⟨fMerge, 7, fRed 2, by decide +kernel⟩,
  ⟨fMerge.setFb 7 { merge := [fHeld] }, 7, fRed 2, by decide +kernel, by decide +kernel, by decide +kernel, by decide +kernel, fHeld, by decide +kernel⟩,
  ⟨fMerge.setFb 7 { merge := [fHeld] }, 7, fRed 2, by decide +kernel, by decide +kernel, by decide +kernel, by decide +kernel, fHeld, [], by decide +kernel⟩⟩

/-- States that meet the premises of `Claim.RimRingHops`, a part of `Obligations.PacketsHop`. -/
theorem witness_PacketsHop_RimRingHops :
    (∃ s : State, ∃ p : Packet, p ∉ s.flights.map (·.pkt) ∧ packetReserved p = false ∧ 18000 ≤ p.dest ∧ s.rimDown = []) :=
  ⟨base, { fWr 7 with dest := destBrim 5 }, by decide +kernel⟩

/-- States that meet the premises of `Claim.FabricDeliveries`, a part of `Obligations.PacketsDeliver`, clause by clause. -/
theorem witness_PacketsDeliver_FabricDeliveries :
    (∃ s : State, ∃ c : Core, ∃ p : Packet, p ∉ s.flights.map (·.pkt) ∧ bit p.flags 0 = false ∧ mget [] (s.spCore c).reqs pFAB_IN = [] ∧ mget [] (s.spCore c).reqs pFAB_OUT = [] ∧ 0 < p.data.length ∧ s.dropReason c = none)
    ∧ (∃ s : State, ∃ c : Core, ∃ p : Packet, p ∉ s.flights.map (·.pkt) ∧ bit p.flags 0 = false ∧ mget [] (s.spCore c).reqs pFAB_IN = [] ∧ mget [] (s.spCore c).reqs pFAB_OUT = [] ∧ 0 < p.data.length ∧ ∃ r, s.dropReason c = some r ∧ p.dest = c.val ∧ p.typ = Packet.WR) :=
  ⟨⟨base, 7, fWr 7, by decide +kernel⟩,
  ⟨base.fset F.FLD_STATUS_STATE 2 0, 7, fWr 7, by decide +kernel, by decide +kernel, by decide +kernel, by decide +kernel, by decide +kernel, 1, by decide +kernel⟩⟩

/-- States that meet the premises of `Claim.RegisterDeliveries`, a part of `Obligations.PacketsDeliver`, clause by clause. -/
theorem witness_PacketsDeliver_RegisterDeliveries :
    (∃ s : State, ∃ p : Packet, ∃ r : RegRef, p ∉ s.flights.map (·.pkt) ∧ p.dest = destReg ∧ p.src < 18000 ∧ 0x2000_0000_0000 ≤ p.addr ∧ let off := (p.addr - 0x2000_0000_0000) / 4 * 4; p.typ = Packet.REGRD ∧ regAt off = some r ∧ r.id.defn.wide = false)
    ∧ (∃ s : State, ∃ p : Packet, p ∉ s.flights.map (·.pkt) ∧ p.dest = destReg ∧ p.src < 18000 ∧ 0x2000_0000_0000 ≤ p.addr ∧ let off := (p.addr - 0x2000_0000_0000) / 4 * 4; p.typ = Packet.REGRD ∧ regAt off = none ∧ s.windowWord off = none)
    ∧ (∃ s : State, ∃ p : Packet, p ∉ s.flights.map (·.pkt) ∧ p.dest = destReg ∧ p.src < 18000 ∧ 0x2000_0000_0000 ≤ p.addr ∧ let off := (p.addr - 0x2000_0000_0000) / 4 * 4; p.typ = Packet.REGWR ∧ (off = RegId.MOD_ID.addr 0 0 0 ∨ off = RegId.MOD_SPARE_GEN.addr 0 0 0))
    ∧ (∃ s : State, ∃ p : Packet, p ∉ s.flights.map (·.pkt) ∧ p.dest = destReg ∧ p.src < 18000 ∧ 0x2000_0000_0000 ≤ p.addr ∧ let off := (p.addr - 0x2000_0000_0000) / 4 * 4; ∃ w : Win, p.typ = Packet.REGWR ∧ off = RegId.RED_WIN_BASE.addr 0 w 0 ∧ p.data.length = 4) :=
  ⟨⟨base, fReg Packet.REGRD (RegId.EP_STATUS.addr 17999 0 0) [], ⟨.EP_STATUS, 17999, 0, 0⟩, by dsimp only; decide +kernel⟩,
  ⟨base, fReg Packet.REGRD 0xFFFF0 [], by dsimp only; decide +kernel⟩,
  ⟨base, fReg Packet.REGWR (RegId.MOD_SPARE_GEN.addr 0 0 0) (leBytes 4 77), by dsimp only; decide +kernel⟩,
  ⟨base, fReg Packet.REGWR (RegId.RED_WIN_BASE.addr 0 1023 0) (leBytes 4 77), by decide +kernel, by decide +kernel, by decide +kernel, by decide +kernel, 1023, by decide +kernel⟩⟩

/-- States that meet the premises of `Claim.AnswersReceived`, a part of `Obligations.FabricRequestsAndAnswers`, clause by clause. -/
theorem witness_FabricRequestsAndAnswers_AnswersReceived :
    (∃ s : State, ∃ c : Core, ∃ p : Packet, p ∉ s.flights.map (·.pkt) ∧ p.dest = c.val ∧ s.dropReason c = none ∧ ∃ rd : RegNo, p.typ = Packet.REGR ∧ (s.core c).wait = .rld rd ∧ s.pc c < 16383)
    ∧ (∃ s : State, ∃ c : Core, ∃ p : Packet, p ∉ s.flights.map (·.pkt) ∧ p.dest = c.val ∧ s.dropReason c = none ∧ ∃ o, p.typ = Packet.WACK ∧ p.src < 18000 ∧ p.op = 4 * o.id ∧ (s.fb c).ops = [o] ∧ o.left = 1 ∧ (s.fb c).held = [] ∧ 0 < s.outstanding c ∧ s.outstanding c ≤ 256)
    ∧ (∃ s : State, ∃ c : Core, ∃ p : Packet, p ∉ s.flights.map (·.pkt) ∧ p.dest = c.val ∧ s.dropReason c = none ∧ ∃ o, p.typ = Packet.RDR ∧ p.src < 18000 ∧ p.poison = false ∧ p.op = 4 * o.id ∧ o.op = 3 ∧ (s.fb c).ops = [o] ∧ (s.fb c).held = [] ∧ o.nlines = 1 ∧ p.rid = 0 ∧ p.data.length = 64 ∧ mget [] (s.spCore c).reqs pFAB_IN = []) :=
  ⟨⟨base.setCore 7 { wait := .rld 31 }, 7, { typ := Packet.REGR, dest := 7, src := destReg, lenm1 := 3, data := leBytes 4 0x12345678 }, by decide +kernel, by decide +kernel, by decide +kernel, 31, by decide +kernel⟩,
  ⟨fOps 2 256, 7, { typ := Packet.WACK, dest := 7, src := 40, op := 12 }, by decide +kernel, by decide +kernel, by decide +kernel, fOp 2, by decide +kernel⟩,
  ⟨fOps 3 256, 7, { typ := Packet.RDR, dest := 7, src := 40, op := 12, data := pattern 4 }, by decide +kernel, by decide +kernel, by decide +kernel, fOp 3, by decide +kernel⟩⟩

/-- States that meet the premises of `Claim.FabricBundlesRelease`, a part of `Obligations.FabricRequestsAndAnswers`, clause by clause. -/
theorem witness_FabricRequestsAndAnswers_FabricBundlesRelease :
    (∃ s : State, ∃ c : Core, ∃ p : BitVec 76, ∃ d : Core, let v := p.toNat; let line := bits v 75 59; bits v 58 47 = 0 ∧ line ≤ 81919 ∧ (s.core c).sq = [] ∧ (s.fb c).ops = [] ∧ mget [] (s.spCore c).reqs pFAB_OUT = [] ∧ let op := fun (k : Nat) => s.fabTarget c (k * 2 ^ 76 + v); let inCore := fun (k : Nat) => op k % 64 = 0 ∧ s.destOf (op k) 64 (s.classProf 0) = some (d.val, 1023) ∧ gLocal (op k) < 0x2000_0000_0000; inCore 2 ∧ bits v 46 44 ≠ 7 ∧ bits v 8 0 = 0)
    ∧ (∃ s : State, ∃ c : Core, ∃ p : BitVec 76, ∃ d : Core, let v := p.toNat; let line := bits v 75 59; bits v 58 47 = 0 ∧ line ≤ 81919 ∧ (s.core c).sq = [] ∧ (s.fb c).ops = [] ∧ mget [] (s.spCore c).reqs pFAB_OUT = [] ∧ let op := fun (k : Nat) => s.fabTarget c (k * 2 ^ 76 + v); let inCore := fun (k : Nat) => op k % 64 = 0 ∧ s.destOf (op k) 64 (s.classProf 0) = some (d.val, 1023) ∧ gLocal (op k) < 0x2000_0000_0000; inCore 4)
    ∧ (∃ s : State, ∃ c : Core, ∃ p : BitVec 76, ∃ d : Core, let v := p.toNat; let line := bits v 75 59; bits v 58 47 = 0 ∧ line ≤ 81919 ∧ (s.core c).sq = [] ∧ (s.fb c).ops = [] ∧ mget [] (s.spCore c).reqs pFAB_OUT = [] ∧ let op := fun (k : Nat) => s.fabTarget c (k * 2 ^ 76 + v); let inCore := fun (k : Nat) => op k % 64 = 0 ∧ s.destOf (op k) 64 (s.classProf 0) = some (d.val, 1023) ∧ gLocal (op k) < 0x2000_0000_0000; inCore 3 ∧ bits v 46 44 = 0 ∧ bits v 8 0 = 0 ∧ s.outstanding c < 256) :=
  ⟨⟨fTgt, 7, BitVec.ofNat 76 (fields [(81919, 59), (3, 33), (5, 9)]), 9, by dsimp only; decide +kernel⟩,
  ⟨fTgt, 7, BitVec.ofNat 76 (fields [(81919, 59), (3, 24)]), 9, by dsimp only; decide +kernel⟩,
  ⟨fTgt.fset F.FB_STATUS_OUTSTANDING 255 7, 7, BitVec.ofNat 76 (fields [(81919, 59), (3, 33), (5, 9)]), 9, by dsimp only; decide +kernel⟩⟩

/-- States that meet the premises of `Claim.LinksFail`, a part of `Obligations.LinksAndBow`. -/
theorem witness_LinksAndBow_LinksFail :
    (∃ s : State, ∃ c : Core, ∃ l : Fin 4, hasLink c l = true ∧ s.flag F.FB_CTRL_HB_EN (neighbour c l) = true) :=
  ⟨base.fset F.FB_CTRL_HB_EN 1 157, 7, 2, by decide +kernel⟩

/-- States that meet the premises of `Claim.BowLines`, a part of `Obligations.LinksAndBow`. -/
theorem witness_LinksAndBow_BowLines :
    (∃ s : State, ∃ c : Core, ∃ w : BowBus, ∃ line : List Byte, mget [] s.bow (c.val / 150) = [w] ∧ w.lines.map (·.2) = [line] ∧ line.length = 64 ∧ w.hdr.col0 ≤ c.val % 150 ∧ c.val % 150 ≤ w.hdr.col1 ∧ w.hdr.land = true ∧ w.hdr.rowm = false ∧ (s.spCore c).bow = [] ∧ (s.spCore c).bowDone = [] ∧ (s.spCore c).rows = [] ∧ mget [] (s.spCore c).reqs pBOW_IN = [] ∧ s.parked c = false ∧ s.fget F.PWR_STATUS_STATE ≠ 2 ∧ (s.mxc c).loads = []) :=
  ⟨{ base with bow := [(0, [bowLine])] }, 7, bowLine, pattern 5, by decide +kernel⟩

/-- States that meet the premises of `Claim.RegisterFieldsAreWritten`, a part of `Obligations.RegistersAreWritten`, clause by clause. -/
theorem witness_RegistersAreWritten_RegisterFieldsAreWritten :
    (∃ s : State, ∃ lane : BitVec 24, ∃ high : Bool, let a := 8 * lane.toNat + (if high then 4 else 0); ∃ r : RegRef, regAt a = some r ∧ r.id.defn.wide = false ∧ s.hostMay a = true ∧ r.id ∈ [RegId.MOD_CTRL, .MOD_MODULE_ID, .RST_CTRL, .CLK_STATUS, .PWR_GOV, .THERM_CFG, .HBMC_SCRUB, .HBMC_MAPOUT_THR, .BRIM_CFG, .BRIM_ARB, .RED_VFY, .HOST_CTRL, .HLTH_CFG, .MX_CHECK, .FB_MERGE])
    ∧ (∃ be : BitVec 8, be ≠ 0xFF ∧ be ≠ 0x0F ∧ be ≠ 0xF0)
    ∧ (∃ s : State, ∃ lane : BitVec 24, ∃ high : Bool, let a := 8 * lane.toNat + (if high then 4 else 0); s.hostMay a = false) :=
  ⟨⟨base, lane ⟨.FB_MERGE, 17999, 0, 0⟩, (⟨.FB_MERGE, 17999, 0, 0⟩ : RegRef).addr % 8 == 4, ⟨.FB_MERGE, 17999, 0, 0⟩, by decide +kernel⟩,
  ⟨7, by decide +kernel⟩,
  ⟨base.fset F.MOD_STATUS_READY 0, lane xlat, false, by decide +kernel⟩⟩

/-- States that meet the premises of `Obligations.WideRegisters`, clause by clause. -/
theorem witness_WideRegisters :
    (∃ s : State, ∃ lane : BitVec 24, let a := 8 * lane.toNat; ∃ r : RegRef, regAt a = some r ∧ regAt (a + 4) = some r ∧ r.id.defn.wide = true ∧ a = r.addr ∧ s.hostReach r.id.defn.blk = true)
    ∧ (∃ lane : BitVec 24, ∃ r, splitReg lane = some r)
    ∧ (∃ s : State, ∃ lane : BitVec 24, ∃ low : BitVec 32, ∃ i : Fin 256, let base := (⟨.HOST_XLAT_BASE, 0, i, 0⟩ : RegRef); splitReg lane = some base ∧ mget 0 s.wHold base.addr = low.toNat + 1)
    ∧ (∃ s : State, ∃ lane : BitVec 24, ∃ i : Fin 256, let base := (⟨.HOST_XLAT_BASE, 0, i, 0⟩ : RegRef); splitReg lane = some base ∧ mget 0 s.wHold base.addr = 0)
    ∧ (∃ s : State, ∃ lane : BitVec 24, ∃ i : Fin 256, let a := 8 * lane.toNat; let base := (⟨.HOST_XLAT_BASE, 0, i, 0⟩ : RegRef); splitReg lane = some base ∧ s.hostMay a = true)
    ∧ (∃ s : State, ∃ index : BitVec 13, let wr := s.fget F.MOD_EVT_WR_INDEX; let left := fun (rd : Nat) => (wr + 8192 - rd) % 8192; left index.toNat ≤ left (s.fget F.MOD_EVT_RD_INDEX))
    ∧ (∃ s : State, ∃ index : BitVec 13, let wr := s.fget F.MOD_EVT_WR_INDEX; let left := fun (rd : Nat) => (wr + 8192 - rd) % 8192; left (s.fget F.MOD_EVT_RD_INDEX) < left index.toNat) :=
  ⟨⟨base, lane ⟨.BRIM_TX_BYTES, 5, 0, 0⟩, ⟨.BRIM_TX_BYTES, 5, 0, 0⟩, by decide +kernel⟩,
  ⟨lane xlat, xlat, by decide +kernel⟩,
  ⟨{ base with wHold := [(xlat.addr, 2 ^ 32)] }, lane xlat, 0xFFFFFFFF, 255, by decide +kernel⟩,
  ⟨base, lane xlat, 255, by decide +kernel⟩,
  ⟨base, lane xlat, 255, by decide +kernel⟩,
  ⟨base.fset F.MOD_EVT_WR_INDEX 8, 8, by decide +kernel⟩,
  ⟨base.fset F.MOD_EVT_WR_INDEX 8, 9, by decide +kernel⟩⟩

/-- States that meet the premises of `Claim.PresetsLoad`, a part of `Obligations.RegistersAreWritten`, clause by clause. -/
theorem witness_RegistersAreWritten_PresetsLoad :
    (∃ s : State, ∃ off : BitVec 27, ∃ preset : Fin 16, ∃ r : RegRef, regAt off.toNat = some r ∧ r.id = r.id.defn.blk.profile ∧ (s.flag F.MOD_CTRL_LOCK = true ∨ s.presetLoad r.id.defn.blk r.i preset = none))
    ∧ (∃ s : State, ∃ off : BitVec 27, ∃ preset : Fin 16, ∃ c : Core, ∃ r : RegRef, regAt off.toNat = some r ∧ r.id = r.id.defn.blk.profile ∧ s.flag F.MOD_CTRL_LOCK = false ∧ r = ⟨.MX_PROFILE, c, 0, 0⟩ ∧ preset.val ≤ 3)
    ∧ (∃ s : State, ∃ off : BitVec 27, ∃ preset : Fin 16, ∃ r : RegRef, regAt off.toNat = some r ∧ r.id = r.id.defn.blk.profile ∧ s.flag F.MOD_CTRL_LOCK = false ∧ r.id = .FB_PROFILE ∧ preset.val ≤ 1)
    ∧ (∃ s : State, ∃ off : BitVec 27, ∃ preset : Fin 16, ∃ r : RegRef, regAt off.toNat = some r ∧ r.id = r.id.defn.blk.profile ∧ s.flag F.MOD_CTRL_LOCK = false ∧ r.id = .TRACT_PROFILE ∧ preset.val ≤ 2)
    ∧ (∃ s : State, ∃ off : BitVec 27, ∃ preset : Fin 16, ∃ r : RegRef, regAt off.toNat = some r ∧ r.id = r.id.defn.blk.profile ∧ s.flag F.MOD_CTRL_LOCK = false ∧ r.id = .RED_PROFILE ∧ preset.val ≤ 3)
    ∧ (∃ s : State, ∃ off : BitVec 27, ∃ preset : Fin 16, ∃ r : RegRef, regAt off.toNat = some r ∧ r.id = r.id.defn.blk.profile ∧ s.flag F.MOD_CTRL_LOCK = false ∧ r.id = .PWR_PROFILE ∧ preset.val ≤ 2) :=
  ⟨⟨base.fset F.MOD_CTRL_LOCK 1, BitVec.ofNat 27 (⟨.MX_PROFILE, 17999, 0, 0⟩ : RegRef).addr, 0, ⟨.MX_PROFILE, 17999, 0, 0⟩, by decide +kernel⟩,
  ⟨base, BitVec.ofNat 27 (⟨.MX_PROFILE, 17999, 0, 0⟩ : RegRef).addr, 3, 17999, ⟨.MX_PROFILE, 17999, 0, 0⟩, by decide +kernel⟩,
  ⟨base, BitVec.ofNat 27 (⟨.FB_PROFILE, 0, 0, 0⟩ : RegRef).addr, 1, ⟨.FB_PROFILE, 0, 0, 0⟩, by decide +kernel⟩,
  ⟨base, BitVec.ofNat 27 (⟨.TRACT_PROFILE, 0, 0, 0⟩ : RegRef).addr, 2, ⟨.TRACT_PROFILE, 0, 0, 0⟩, by decide +kernel⟩,
  ⟨base, BitVec.ofNat 27 (⟨.RED_PROFILE, 0, 0, 0⟩ : RegRef).addr, 3, ⟨.RED_PROFILE, 0, 0, 0⟩, by decide +kernel⟩,
  ⟨base, BitVec.ofNat 27 (⟨.PWR_PROFILE, 0, 0, 0⟩ : RegRef).addr, 2, ⟨.PWR_PROFILE, 0, 0, 0⟩, by decide +kernel⟩⟩

/-! ### Memory stacks -/

def hOn : State := base.fset F.HBMC_STATUS_STATE hENABLED 23
def hPkt (typ wop : Nat) : Packet := { typ := typ, dest := 0x8000 + 767, src := 40, addr := 1920 * 2 ^ 30 - 512, lenm1 := 511, wop := wop, data := List.replicate 512 1 }
def hRead : HReq := { id := 3, kind := 1, pkt := { hPkt Packet.RD 0 with lenm1 := 20, op := 55 }, acc := 100, first := 41943039, off := 43 }
def hDec : HAcc := { acc := 41943039, data := pattern 8, syms := [(3, 5), (4, 9), (5, 5), (6, 6), (7, 7), (8, 8)] }
def hWrite : HReq := { id := 3, kind := 2, pkt := { hPkt Packet.WR 0 with lenm1 := 0, data := [5] }, acc := 100, first := 41943039, off := 63 }
def hAcc : HReq := { id := 3, kind := 3, pkt := { hPkt Packet.WR 1 with lenm1 := 7, data := leBytes 8 0x3f800000 }, acc := 100, first := 41943039, off := 56 }
def hCoal : Coal := { acc := 41943039, data := pattern 4, dirty := true, poison := false }
def hCh (x : HChan) : State := hOn.setChan 767 x
def hFlush : State := ((hCh { coal := [⟨41943039, pattern 4, true, false⟩] }).fset F.HBMC_STATUS_FLUSHING 1 23).setStack 23 { flush := [(767, 41943039)] }

/-! ### Streams -/

def gCfg : State := ((((tr tRUNNING).fset F.STRM_GS_CTRL_TRACT 2 0 5).fset F.STRM_GS_LTAB_ADDR 0x100 0 5).fset F.STRM_GS_DST_SLOT8 1 0 5).fset F.STRM_GS_CTRL_CBASE 3 0 5
def gWrite : GsWrite := { pos := 0, piece := 0, fy := 0, east := true, src := 0x4000, hdr := ⟨7, 6, 5, 0, true, false, true, 3⟩, row0 := 0, row1 := 1 }
def gFull : GsWrite := { gWrite with got := [(0, (150, pattern 4))] }
def gStp : State := gCfg.fset F.STP_STATUS_STATE eENABLED 7
def gCtr (n : Nat) : State := { gStp.fset F.EP_ARRIVE_COUNT n 7 9 with clk := { gStp.clk with wt := 1000000 } }
def gSave : StpSave := { id := 1, payload := 10 * 2 ^ 76 + 2 ^ 41 + 63 * 2 ^ 35, wt := 4, placed := true }
def gRec (stage : Nat) : StpRec := { k := 3, top := 0x1000, stage := stage }
def gAct (seq : Nat) (w : List GsWrite) : State := (gCfg.setGsState 5 gsENABLED).setGrist 5 { active := true, seq := seq, writes := w }
def gTable : State := ((gAct 1 []).memPut 0x1000 (leBytes 8 0x2000 ++ leBytes 8 0)).memPut 0x2000
  (leBytes 8 0x4000 ++ leBytes 2 3 ++ leBytes 2 0 ++ leBytes 4 2 ++ [0, 1, 6, 7, 1] ++ leBytes 11 0)
def gLine : Packet := { typ := Packet.RDR, dest := injector 0 true, src := 0x8000, data := pattern 9, op := (gAct 1 [gWrite]).gsOp 5 gWrite }
def gPf (x : Stp) : State := ((gStp.fset F.STP_STATUS_PF_ACTIVE 1 7).fset F.STP_PF_PTR_ADDR 64 7).setStp 7 x
def gRack : State :=
  { ((((base.fset F.STRM_RK_RBASE_EN 1 0 3).fset F.STRM_RK_RBASE_ADDR 5 0 3).fset F.STRM_RK_RLEN_PAGES 2 0 3).fset F.STRM_RK_STATUS_SEQ 7) with
    rack := { phase := 2, cask := { sel := true } } }
def gSent : State := { gRack with rack := { phase := 1, marked := [1], cask := { sel := true, out := [1] } } }

/-- States that meet the premises of `Claim.ControllersAccept`, a part of `Obligations.StackRequestsAndReads`, clause by clause. -/
theorem witness_StackRequestsAndReads_ControllersAccept :
    (∃ s : State, ∃ ch : Chan, ∃ p : Packet, p ∉ s.flights.map (·.pkt) ∧ p.dest = 0x8000 + ch.val ∧ p.src < 18000 ∧ s.boot.hbmUp = true ∧ (s.chan ch).queue = [] ∧ s.rack.phase = 0 ∧ p.lenm1 < 512 ∧ s.chanReason ch = none ∧ p.typ = Packet.RD)
    ∧ (∃ s : State, ∃ ch : Chan, ∃ p : Packet, p ∉ s.flights.map (·.pkt) ∧ p.dest = 0x8000 + ch.val ∧ p.src < 18000 ∧ s.boot.hbmUp = true ∧ (s.chan ch).queue = [] ∧ s.rack.phase = 0 ∧ p.lenm1 < 512 ∧ s.chanReason ch = none ∧ p.typ = Packet.WR ∧ p.wop = 0)
    ∧ (∃ s : State, ∃ ch : Chan, ∃ p : Packet, p ∉ s.flights.map (·.pkt) ∧ p.dest = 0x8000 + ch.val ∧ p.src < 18000 ∧ s.boot.hbmUp = true ∧ (s.chan ch).queue = [] ∧ s.rack.phase = 0 ∧ p.lenm1 < 512 ∧ s.chanReason ch = none ∧ p.typ = Packet.WR ∧ (p.wop = 1 ∨ p.wop = 2 ∨ p.wop = 5))
    ∧ (∃ s : State, ∃ ch : Chan, ∃ p : Packet, p ∉ s.flights.map (·.pkt) ∧ p.dest = 0x8000 + ch.val ∧ p.src < 18000 ∧ s.boot.hbmUp = true ∧ (s.chan ch).queue = [] ∧ s.rack.phase = 0 ∧ p.lenm1 < 512 ∧ s.chanReason ch ≠ none ∧ p.typ = Packet.WR) :=
  ⟨⟨hOn, 767, hPkt Packet.RD 0, by decide +kernel⟩,
  ⟨hOn, 767, hPkt Packet.WR 0, by decide +kernel⟩,
  ⟨hOn, 767, hPkt Packet.WR 5, by decide +kernel⟩,
  ⟨base.fset F.HBMC_STATUS_STATE hSTOPPING 23, 767, hPkt Packet.WR 0, by decide +kernel⟩⟩

/-- States that meet the premises of `Claim.StackReads`, a part of `Obligations.StackRequestsAndReads`, clause by clause. -/
theorem witness_StackRequestsAndReads_StackReads :
    (∃ s : State, ∃ ch : Chan, ∃ r : HReq, r.pkt.src < 18000 ∧ r.off + r.pkt.lenm1 < 64 ∧ (s.chan ch).queue = [r] ∧ r.kind = 1 ∧ (s.chan ch).coal = [])
    ∧ (∃ s : State, ∃ ch : Chan, ∃ r : HReq, r.pkt.src < 18000 ∧ r.off + r.pkt.lenm1 < 64 ∧ ∃ h, ∃ at_, (s.chan ch).decs = [⟨r, at_, [h]⟩] ∧ h.hit = false ∧ h.data.length = 64 ∧ h.syms.length ≤ 6) :=
  ⟨⟨hCh { queue := [hRead] }, 767, hRead, by decide +kernel⟩,
  ⟨hCh { decs := [⟨hRead, 40, [hDec]⟩] }, 767, hRead, by decide +kernel, by decide +kernel, hDec, 40, by decide +kernel⟩⟩

/-- States that meet the premises of `Claim.StackWrites`, a part of `Obligations.StackWritesAndSums`. -/
theorem witness_StackWritesAndSums_StackWrites :
    (∃ s : State, ∃ ch : Chan, ∃ r : HReq, (s.chan ch).queue = [r] ∧ r.kind = 2 ∧ (s.chan ch).coal = [] ∧ r.off + r.pkt.lenm1 < 64 ∧ r.pkt.data.length = r.pkt.lenm1 + 1 ∧ mget [] s.hbmErr (accKey ch r.first) = [] ∧ let a := ch.val * 2 ^ 32 + 64 * r.first + r.off; ∃ b, (b < a ∨ a + r.pkt.data.length ≤ b)) :=
  ⟨hCh { queue := [hWrite] }, 767, hWrite, by decide +kernel, by decide +kernel, by decide +kernel, by decide +kernel, by decide +kernel, by decide +kernel, 0, by decide +kernel⟩

/-- States that meet the premises of `Claim.StackAccumulates`, a part of `Obligations.StackWritesAndSums`. -/
theorem witness_StackWritesAndSums_StackAccumulates :
    (∃ s : State, ∃ ch : Chan, ∃ r : HReq, ∃ e : Coal, (s.chan ch).queue = [r] ∧ r.kind = 3 ∧ r.op = 0 ∧ (s.chan ch).coal = [e] ∧ e.acc = r.first ∧ e.data.length = 64 ∧ r.off % 8 = 0 ∧ r.pkt.data.length % 8 = 0 ∧ 0 < r.pkt.data.length ∧ r.off + r.pkt.data.length ≤ 64) :=
  ⟨hCh { queue := [hAcc], coal := [hCoal] }, 767, hAcc, hCoal, by decide +kernel⟩

/-- States that meet the premises of `Claim.StackUpkeep`, a part of `Obligations.StackUpkeepAndStates`, clause by clause. -/
theorem witness_StackUpkeepAndStates_StackUpkeep :
    (∃ s : State, ∃ ch : Chan, ∃ r, (s.chan ch).queue = [r] ∧ (s.chan ch).decs = [] ∧ r.kind = 1 ∧ r.pkt.src < 18000 ∧ s.fget F.HBMC_MAPOUT_THR_TIMEOUT (ch.val / 32) = 0)
    ∧ (∃ s : State, ∃ ch : Chan, ∃ a, ∃ rest, (s.chan ch).wb = a :: rest)
    ∧ (∃ s : State, ∃ ch : Chan, s.flag F.HBMC_SCRUB_EN (ch.val / 32) = true ∧ s.hState (ch.val / 32) = hENABLED ∧ mget [] s.hbmErr (accKey ch (s.chan ch).scrubPos) = [])
    ∧ (∃ s : State, ∃ st : Stack, ∃ k, ∃ a, ∃ data, s.flag F.HBMC_STATUS_FLUSHING st = true ∧ k < 32 ∧ (s.stack st).flush = [(32 * st.val + k, a)] ∧ (s.chan (32 * st.val + k)).coal = [⟨a, data, true, false⟩] ∧ data.length = 64) :=
  ⟨⟨(hCh { queue := [hRead] }).fset F.HBMC_MAPOUT_THR_TIMEOUT 0 23, 767, hRead, by decide +kernel⟩,
  ⟨hCh { wb := [41943039] }, 767, 41943039, [], by decide +kernel⟩,
  ⟨hCh { scrubPos := 41943039 }, 767, by decide +kernel⟩,
  ⟨hFlush, 23, 31, 41943039, pattern 4, by decide +kernel⟩⟩

/-- States that meet the premises of `Claim.StackStates`, a part of `Obligations.StackUpkeepAndStates`, clause by clause. -/
theorem witness_StackUpkeepAndStates_StackStates :
    (∃ s : State, ∃ st : Stack, let h := s.hState st; h = hENABLING)
    ∧ (∃ s : State, ∃ st : Stack, let h := s.hState st; h = hSTOPPING ∧ (s.stack st).mapout = none ∧ (∀ k, k < 32 → s.chan (32 * st.val + k) = {}))
    ∧ (∃ s : State, ∃ st : Stack, let h := s.hState st; (s.stack st).mapout = none ∧ h ≠ hMAPPED_OUT ∧ s.ilvG = 0)
    ∧ (∃ temp : BitVec 8, temp.toNat < 105) :=
  ⟨⟨base.fset F.HBMC_STATUS_STATE hENABLING 23, 23, by decide +kernel⟩,
  ⟨base.fset F.HBMC_STATUS_STATE hSTOPPING 23, 23, by decide +kernel⟩,
  ⟨hOn, 23, by decide +kernel⟩,
  ⟨104, by decide +kernel⟩⟩

/-- States that meet the premises of `Obligations.StreamsEnableAndStop`, clause by clause. -/
theorem witness_StreamsEnableAndStop :
    (∃ s : State, ∃ i : Stream, ∃ v : Bool, let g := s.gsState i; (v = false ∨ g ≠ gsDISABLED ∨ s.gsConfigOk i = true))
    ∧ (∃ s : State, ∃ i : Stream, let g := s.gsState i; g = gsSTOPPING ∧ (s.grist i).writes = [] ∧ (s.grist i).old = [] ∧ s.gsConfigOk i = true)
    ∧ (∃ s : State, ∃ c : Core, let st := s.fget F.STP_STATUS_STATE c; st = eSTOPPING ∧ (s.stpc c).saves = [] ∧ (s.stpc c).recs = [])
    ∧ (∃ s : State, ∃ c : Core, ∃ b, (s.stpc c).enabling = some b) :=
  ⟨⟨gCfg, 5, true, by decide +kernel⟩,
  ⟨gCfg.setGsState 5 gsSTOPPING, 5, by decide +kernel⟩,
  ⟨base.fset F.STP_STATUS_STATE eSTOPPING 7, 7, by decide +kernel⟩,
  ⟨base.setStp 7 { enabling := some 50 }, 7, 50, by decide +kernel⟩⟩

/-- States that meet the premises of `Obligations.StreamBundlesTakeEffect`, clause by clause. -/
theorem witness_StreamBundlesTakeEffect :
    (∃ s : State, ∃ c : Core, ∃ p : BitVec 76, s.fget F.STP_STATUS_STATE c = eENABLED ∧ let v := p.toNat; let i := bits v 75 71; let ctr := bits v 70 65; let there := fun (margin : Nat) => reached (s.fget F.EP_ARRIVE_COUNT c ctr) (bits v 64 33) = true ∧ s.stampOf c ctr + margin ≤ s.clk.wt; bits v 32 0 = 0 ∧ s.slotOf c = some (s.gsTract i) ∧ there (s.fget F.STRM_GS_MARGIN_NS 0 i))
    ∧ (∃ s : State, ∃ c : Core, ∃ p : BitVec 76, s.fget F.STP_STATUS_STATE c = eENABLED ∧ let v := p.toNat; let i := bits v 75 71; let ctr := bits v 70 65; let short := reached (s.fget F.EP_ARRIVE_COUNT c ctr) (bits v 64 33) = false; bits v 32 0 = 0 ∧ s.slotOf c = some (s.gsTract i) ∧ short)
    ∧ (∃ s : State, ∃ c : Core, ∃ p : BitVec 76, s.fget F.STP_STATUS_STATE c = eENABLED ∧ let v := p.toNat; let ctr := bits v 70 65; let there := fun (margin : Nat) => reached (s.fget F.EP_ARRIVE_COUNT c ctr) (bits v 64 33) = true ∧ s.stampOf c ctr + margin ≤ s.clk.wt; bits v 75 71 = 0 ∧ bits v 32 0 = 0 ∧ there (s.fget F.STP_PF_MARGIN_NS c))
    ∧ (∃ s : State, ∃ c : Core, ∃ p : BitVec 76, s.fget F.STP_STATUS_STATE c = eENABLED ∧ let v := p.toNat; let ctr := bits v 70 65; let short := reached (s.fget F.EP_ARRIVE_COUNT c ctr) (bits v 64 33) = false; bits v 75 71 = 0 ∧ bits v 32 0 = 0 ∧ short)
    ∧ (∃ s : State, ∃ c : Core, ∃ p : BitVec 76, s.fget F.STP_STATUS_STATE c = eENABLED ∧ let v := p.toNat; let i := bits v 75 71; bits v 70 0 = 0 ∧ s.slotOf c = some (s.gsTract i) ∧ (s.grist i).released < (s.grist i).fetched)
    ∧ (∃ s : State, ∃ c : Core, ∃ p : BitVec 76, s.fget F.STP_STATUS_STATE c = eENABLED ∧ let v := p.toNat; bits v 34 0 = 0 ∧ svLine v + svLines v ≤ 81920 ∧ svMode v = 3 ∧ s.flag F.STP_STATUS_PF_ACTIVE c = false ∧ mget [] (s.spCore c).reqs pSTR_OUT = [])
    ∧ (∃ s : State, ∃ c : Core, s.fget F.STP_STATUS_STATE c = eENABLED ∧ let x := s.stpc c; ∃ z, x.saves = [z] ∧ z.placed = true ∧ z.left = 0 ∧ bits z.payload 40 35 < 64)
    ∧ (∃ s : State, ∃ c : Core, ∃ p : BitVec 76, s.fget F.STP_STATUS_STATE c = eENABLED ∧ let v := p.toNat; v = 0 ∧ s.flag F.STP_STATUS_PF_ACTIVE c = false)
    ∧ (∃ s : State, ∃ c : Core, ∃ p : BitVec 76, s.fget F.STP_STATUS_STATE c = eENABLED ∧ let v := p.toNat; let x := s.stpc c; ∃ r, v = 0 ∧ x.recs = [r] ∧ r.released = false ∧ x.rec0 ≤ r.k) :=
  ⟨⟨gCtr 5, 7, BitVec.ofNat 76 (fields [(5, 71), (9, 65), (5, 33)]), by dsimp only; decide +kernel⟩,
  ⟨gCtr 5, 7, BitVec.ofNat 76 (fields [(5, 71), (9, 65), (6, 33)]), by dsimp only; decide +kernel⟩,
  ⟨gCtr 5, 7, BitVec.ofNat 76 (fields [(9, 65), (5, 33)]), by dsimp only; decide +kernel⟩,
  ⟨gCtr 5, 7, BitVec.ofNat 76 (fields [(9, 65), (6, 33)]), by dsimp only; decide +kernel⟩,
  ⟨gStp.setGrist 5 { fetched := 65537, released := 65536 }, 7, BitVec.ofNat 76 (fields [(5, 71)]), by dsimp only; decide +kernel⟩,
  ⟨gStp, 7, BitVec.ofNat 76 (fields [(81919, 59), (0, 46), (3, 44), (1, 41), (9, 35)]), by dsimp only; decide +kernel⟩,
  ⟨gStp.setStp 7 { saves := [gSave] }, 7, by decide +kernel, gSave, by decide +kernel⟩,
  ⟨gStp, 7, 0, by dsimp only; decide +kernel⟩,
  ⟨gStp.setStp 7 { recs := [gRec 0], rec0 := 3 }, 7, 0, by decide +kernel, gRec 0, by decide +kernel⟩⟩

/-- States that meet the premises of `Obligations.GristWritesFlow`, clause by clause. -/
theorem witness_GristWritesFlow :
    (∃ s : State, ∃ i : Stream, let x := s.grist i; let plist := s.memNat (s.gsTable i + 16 * s.gsLayer i x.fetched) 8; ∃ e : Piece, x.active = true ∧ s.gsState i = gsENABLED ∧ x.fetched < s.gsP i ∧ x.fetched < s.gsWd i ∧ x.writes = [] ∧ x.old = [] ∧ plist % 32 = 0 ∧ s.memNat (s.gsTable i + 16 * s.gsLayer i x.fetched + 8) 8 = 0 ∧ s.inStacks plist 32 = true ∧ s.gsPiece i plist = some e)
    ∧ (∃ s : State, ∃ i : Stream, let x := s.grist i; ∃ w : GsWrite, ∃ p : Packet, x.writes = [w] ∧ w.bow = none ∧ (∀ j : Stream, j ≠ i → (s.grist j).writes = []) ∧ p ∉ s.flights.map (·.pkt) ∧ p.op = s.gsOp i w ∧ p.dest = injector w.fy w.east ∧ p.poison = false ∧ p.flags = stOK ∧ p.data.length = 64)
    ∧ (∃ s : State, ∃ i : Stream, let x := s.grist i; ∃ w : GsWrite, ∃ fy : Fin 5, x.writes = [w] ∧ x.old = [] ∧ w.bow = none ∧ w.fy = fy ∧ w.bad = false ∧ w.hdr.nlm1 = 0 ∧ (mget (0, []) w.got 0).2.length = 64 ∧ (∀ j : Stream, j ≠ i → (s.grist j).writes = [] ∧ (s.grist j).old = []) ∧ (∀ r, w.row0 ≤ r → r ≤ w.row1 → mget [] s.bow r = [])) :=
  ⟨⟨gTable, 5, (gTable.gsPiece 5 0x2000).get (by decide +kernel), by decide +kernel⟩,
  ⟨gAct 1 [gWrite], 5, gWrite, gLine, by decide +kernel⟩,
  ⟨gAct 0 [gFull], 5, gFull, 0, by decide +kernel, by decide +kernel, by decide +kernel, by decide +kernel, by decide +kernel, by decide +kernel, by decide +kernel, by decide +kernel, fun _ _ _ => rfl⟩⟩

/-- States that meet the premises of `Obligations.RecordsAndGranulesMove`, clause by clause. -/
theorem witness_RecordsAndGranulesMove :
    (∃ s : State, ∃ c : Core, let x := s.stpc c; ∃ top, ∃ dest, ∃ mid, s.flag F.STP_STATUS_PF_ACTIVE c = true ∧ s.fget F.STP_STATUS_STATE c = eENABLED ∧ x.nextRec < x.rec0 + s.pfPd c ∧ x.recs = [] ∧ s.pfTop c x.nextRec = some top ∧ x.base < top ∧ 64 ≤ top ∧ s.destOf (1023 * 2 ^ 54 + (top - 64)) 64 0 = some (dest, mid) ∧ s.outstanding c < 256)
    ∧ (∃ s : State, ∃ c : Core, let x := s.stpc c; ∃ r, x.recs = [r] ∧ r.stage = 3 ∧ x.rec0 ≤ r.k ∧ let ctr := s.pfCbase c + (r.k - x.rec0) % s.pfPd c; ctr < 64)
    ∧ (∃ s : State, ∃ e, s.rkNext = some e ∧ s.rack.cask.done = false ∧ s.rack.host.done = true ∧ s.memPoison (s.rkAddr e) 4096 = false)
    ∧ (∃ s : State, ∃ p : Packet, ∃ e : Nat, p ∉ s.flights.map (·.pkt) ∧ p.op = rkOp false e ∧ p.flags = stOK ∧ s.rack.phase = 1 ∧ e ∈ s.rack.cask.out ∧ s.rack.cask.failed = 0 ∧ s.rack.cask.sealed_ = false ∧ s.rack.cask.sealing = false ∧ s.rack.cask.sel = true) :=
  ⟨⟨gPf { base := 64 }, 7, 4096, ((gPf {}).destOf (1023 * 2 ^ 54 + 4032) 64 0).getD (0, 0) |>.1, 1023, by decide +kernel⟩,
  ⟨gPf { recs := [gRec 3], rec0 := 3, pfCfg := 3 + 63 * 256 }, 7, gRec 3, by dsimp only; decide +kernel⟩,
  ⟨gRack, 0, by decide +kernel⟩,
  ⟨gSent, { typ := Packet.WACK, dest := destReg, src := 0x8400, op := rkOp false 1 }, 1, by decide +kernel⟩⟩

/-! ### The Brim -/

def bIn (p st groups fails : Nat) : State :=
  (((base.fset F.MOD_MODULE_ID_ID 5).fset F.BRIM_STATUS_STATE st p).fset F.BRIM_STATUS_GROUPS groups p).fset F.BRIM_STATUS_TRAIN_FAILS fails p
def bOn : State := bIn 5 bUP 3 0
def bMsg : PeerMsg := { mid := 9, port := 3, ether := true, crq := 4, crs := 5 }
def bPkt : BrimPkt := { typ := Packet.WR, dmid := 5, smid := 9, lseq := 0, data := pattern 3, lenm1 := 63 }
def bFlit (crc : Bool) : BrimFlit := { crc := crc, corr := 0, uncorr := 0, ack := 3, nak := false, crq := 2, crs := 1, pkts := [bPkt] }
def bWith (x : BrimPort) : State := bOn.setBp 5 x
def bOut : BrimPkt := { typ := Packet.WR, dmid := 9, smid := 5, data := pattern 3, lenm1 := 63 }
def bTo9 : State := (((bOn.fset F.BRIM_ROUTE_VALID 1 0 0 9).fset F.BRIM_ROUTE_PORT 5 0 0 9).fset F.RED_RID_VALID 1 0 3)
def bAsk : Packet := { typ := Packet.WR, dest := destBrim 0, src := 40, addr := 4096, mid := 9, lenm1 := 63, data := pattern 3, op := 55 }
def bRed : Packet := { typ := Packet.RED, dest := destBrim 0, src := 40, addr := 4096, mid := 9, lenm1 := 255, op := 56, rid := 3, count := 7, data := List.replicate 256 1 }
def bReq : BrimReq := ⟨5, some bAsk, bTo9.bOfFabric bAsk, none, 5, 2, 44, 100⟩
def bOwed (reqs : List BrimReq) : State := { bTo9 with brim := { reqs := reqs, fresh := 16383 } }
def bFor (typ addr n : Nat) (d : List Byte) : BrimPkt := { typ := typ, dmid := 5, smid := 9, tag := 5, epoch := 2, addr := addr, lenm1 := n - 1, data := d }
def bReg : State := bOn.fset F.BRIM_CFG_REMOTE_REG 1 5
def bDest (addr : Nat) : Nat × Nat := (bReg.destOf (1023 * 2 ^ 54 + addr) 4 0).getD (0, 0)
def bChan : ChanAddr := match bOn.region 4096 256 with
  | .stack x => x
  | _ => ⟨0, 0, 0⟩
def bClock (ether : Bool) (t1 : Option Nat) : State :=
  let s := (bOn.setBp 5 { ether := ether }).fset F.BRIM_TIME_UP_PORT 5
  { s with brim := { s.brim with time := { t1 := t1, busy := true, missed := 3 } } }
def bPtp (kind : Fin 4) : PtpMsg := ⟨kind, bOn.fget F.BRIM_ETH_PTP_DOMAIN 5, 77⟩

/-- States that meet the premises of `Obligations.BrimPortsTrain`, clause by clause. -/
theorem witness_BrimPortsTrain :
    (∃ s : State, ∃ p : Port, ∃ v : Bool, s.portUp p = true ∧ bit (s.fget F.BRIM_STATUS_GROUPS p) (b2n v) = true)
    ∧ (∃ s : State, ∃ p : Port, let st := s.bState p; st = bTRAINING)
    ∧ (∃ s : State, ∃ p : Port, let st := s.bState p; st = bDEGRADED)
    ∧ (∃ s : State, ∃ p : Port, let st := s.bState p; st = bSTOPPING ∧ (s.bp p).txq = [] ∧ (s.bp p).replay = []) :=
  ⟨⟨bOn, 5, true, by decide +kernel⟩,
  ⟨bIn 5 bTRAINING 0 2, 5, by decide +kernel⟩,
  ⟨bIn 5 bDEGRADED 1 0, 5, by decide +kernel⟩,
  ⟨bIn 5 bSTOPPING 3 0, 5, by decide +kernel⟩⟩

/-- States that meet the premises of `Claim.BrimFlitsAndFrames`, a part of `Obligations.BrimTransmission`, clause by clause. -/
theorem witness_BrimTransmission_BrimFlitsAndFrames :
    (∃ s : State, ∃ p : Port, ∃ f : BrimFlit, ∃ b : BrimPkt, let x := s.bp p; let fine := s.ownId ≠ 0x3FF ∧ b.dmid < 1000 ∧ b.smid ≠ s.ownId ∧ brimTypeOk b.typ = true ∧ (brimHeaderOnly b = true → b.lenm1 = 0); let good := f.crc = true ∧ f.corr = 0 ∧ f.uncorr = 0 ∧ f.nak = false; s.bListens p false = true ∧ good ∧ f.pkts = [b] ∧ x.replay = [] ∧ b.lseq = (x.lseqRx + 1) % 1024 ∧ fine)
    ∧ (∃ s : State, ∃ p : Port, ∃ f : BrimFlit, let x := s.bp p; let good := f.crc = true ∧ f.corr = 0 ∧ f.uncorr = 0 ∧ f.nak = false; s.bListens p false = true ∧ good ∧ ∃ r, ∃ rest, x.replay = r :: rest ∧ r.lseq = f.ack)
    ∧ (∃ s : State, ∃ p : Port, ∃ f : BrimFlit, s.bListens p false = true ∧ f.crc = false ∧ f.corr = 0 ∧ f.uncorr = 0)
    ∧ (∃ s : State, ∃ p : Port, let x := s.bp p; s.bListens p false = true ∧ x.replay ≠ [] ∧ x.resends < 7)
    ∧ (∃ s : State, ∃ p : Port, ∃ b : BrimPkt, let fine := s.ownId ≠ 0x3FF ∧ b.dmid < 1000 ∧ b.smid ≠ s.ownId ∧ brimTypeOk b.typ = true ∧ (brimHeaderOnly b = true → b.lenm1 = 0); s.bListens p true = true ∧ ∃ etype : BitVec 16, etype.toNat = s.fget F.BRIM_ETH_ETYPE p ∧ fine) :=
  ⟨⟨bWith { lseqRx := 1023 }, 5, bFlit true, bPkt, by decide +kernel⟩,
  ⟨bWith { replay := [{ bPkt with lseq := 3 }] }, 5, bFlit true, by decide +kernel, by decide +kernel, { bPkt with lseq := 3 }, [], by decide +kernel⟩,
  ⟨bOn, 5, bFlit false, by decide +kernel⟩,
  ⟨bWith { replay := [bPkt], resends := 6 }, 5, by decide +kernel⟩,
  ⟨bWith { ether := true }, 5, bPkt, by decide +kernel, BitVec.ofNat 16 (bOn.fget F.BRIM_ETH_ETYPE 5), by decide +kernel⟩⟩

/-- States that meet the premises of `Claim.BrimPacketsSent`, a part of `Obligations.BrimTransmission`, clause by clause. -/
theorem witness_BrimTransmission_BrimPacketsSent :
    (∃ s : State, ∃ p : Port, ∃ x : BrimTx, let bp := s.bp p; s.portUp p = true ∧ bp.ether = false ∧ bp.resend = 0 ∧ bp.replay = [] ∧ bp.txq = [x] ∧ x.pkt.flowv = false ∧ brimCredits x.pkt ≤ (if brimResp x.pkt then bp.credS else bp.credQ))
    ∧ (∃ s : State, ∃ p : Port, ∃ flow : Fin 256, ∃ v : BitVec 32, let en := bit v.toNat 31; let rate := bits v.toNat 17 8; let burst := bits v.toNat 7 0; rate ≤ 900 ∧ 4 ≤ burst ∧ s.bRates p flow + (if en then rate else 0) ≤ 900)
    ∧ (∃ s : State, ∃ p : Port, ∃ flow : Fin 256, ∃ v : BitVec 32, let en := bit v.toNat 31; let rate := bits v.toNat 17 8; let burst := bits v.toNat 7 0; rate ≤ 900 ∧ 4 ≤ burst ∧ en = true ∧ s.flag F.BRIM_FLOW_EN p flow = false ∧ 900 < s.bRates p flow + rate ∧ EvtRoom s) :=
  ⟨⟨bWith { lseqTx := 1023, credQ := brimCredits bOut, txq := [⟨bOut, true⟩] }, 5, ⟨bOut, true⟩, by decide +kernel⟩,
  ⟨bOn, 5, 255, BitVec.ofNat 32 (fields [(1, 31), (900, 8), (4, 0)]), by decide +kernel⟩,
  ⟨(bOn.fset F.BRIM_FLOW_EN 1 5 17).fset F.BRIM_FLOW_RATE 1 5 17, 5, 255, BitVec.ofNat 32 (fields [(1, 31), (900, 8), (4, 0)]), by dsimp only [EvtRoom]; decide +kernel⟩⟩

/-- States that meet the premises of `Obligations.BrimRequestsQueued`, clause by clause. -/
theorem witness_BrimRequestsQueued :
    (∃ s : State, ∃ q : Port, ∃ a : Packet, a ∉ s.flights.map (·.pkt) ∧ s.ownId ≠ 0x3FF ∧ s.brim.fresh < 16384 ∧ brimTakes a = true ∧ s.bChoose { s.bOfFabric a with smid := s.ownId } = .ok q.val)
    ∧ (∃ s : State, ∃ q : Port, ∃ a : Packet, a ∉ s.flights.map (·.pkt) ∧ s.ownId ≠ 0x3FF ∧ s.brim.fresh < 16384 ∧ ∃ b, a.typ = Packet.RED ∧ s.redBad a = none ∧ s.redRaccs a = [b] ∧ s.bChoose { b with smid := s.ownId } = .ok q.val ∧ b.typ = BrimPkt.RACC ∧ bit b.tspec 6 = false)
    ∧ (∃ s : State, ∃ a : Packet, a ∉ s.flights.map (·.pkt) ∧ s.ownId ≠ 0x3FF ∧ s.brim.fresh < 16384 ∧ ∃ tag : Fin 16384, ∃ r : BrimReq, s.brim.reqs = [r] ∧ r.tag = tag ∧ r.req = some a)
    ∧ (∃ s : State, ∃ a : Packet, a ∉ s.flights.map (·.pkt) ∧ s.ownId ≠ 0x3FF ∧ s.brim.fresh < 16384 ∧ ∃ tag : Fin 16384, ∃ w : Nat, s.brim.cooling = [(tag.val, w)] ∧ s.brim.wait = []) :=
  ⟨⟨bTo9, 5, bAsk, by decide +kernel⟩,
  ⟨bTo9, 5, bRed, by decide +kernel, by decide +kernel, by decide +kernel, (bTo9.redRaccs bRed).headD bOut, by decide +kernel⟩,
  ⟨bOwed [bReq], bAsk, by decide +kernel, by decide +kernel, by decide +kernel, 5, bReq, by decide +kernel⟩,
  ⟨{ bTo9 with brim := { cooling := [(16383, 44)] } }, bAsk, by decide +kernel, by decide +kernel, by decide +kernel, 16383, 44, by decide +kernel⟩⟩

/-- States that meet the premises of `Obligations.BrimPacketsServed`, clause by clause. -/
theorem witness_BrimPacketsServed :
    (∃ s : State, ∃ b : BrimPkt, ∃ dest : Nat, ∃ mid : Nat, s.ownId ≠ 0x3FF ∧ b.dmid = s.ownId ∧ let goesTo := fun (n : Nat) => s.destOf (1023 * 2 ^ 54 + b.addr) n 0 = some (dest, mid) ∧ dest ≠ destHost; let isReg := regWindow ≤ b.addr ∧ b.addr < hostWindow; b.typ = Packet.WR ∧ goesTo b.data.length ∧ ¬ isReg)
    ∧ (∃ s : State, ∃ b : BrimPkt, ∃ dest : Nat, ∃ mid : Nat, s.ownId ≠ 0x3FF ∧ b.dmid = s.ownId ∧ let goesTo := fun (n : Nat) => s.destOf (1023 * 2 ^ 54 + b.addr) n 0 = some (dest, mid) ∧ dest ≠ destHost; let isReg := regWindow ≤ b.addr ∧ b.addr < hostWindow; b.typ = Packet.RD ∧ goesTo (b.lenm1 + 1) ∧ ¬ isReg)
    ∧ (∃ s : State, ∃ p : Port, ∃ b : BrimPkt, ∃ dest : Nat, ∃ mid : Nat, s.ownId ≠ 0x3FF ∧ b.dmid = s.ownId ∧ let goesTo := fun (n : Nat) => s.destOf (1023 * 2 ^ 54 + b.addr) n 0 = some (dest, mid) ∧ dest ≠ destHost; let isReg := regWindow ≤ b.addr ∧ b.addr < hostWindow; b.typ = Packet.REGRD ∧ goesTo 4 ∧ isReg ∧ s.flag F.BRIM_CFG_REMOTE_REG p = true)
    ∧ (∃ s : State, ∃ p : Port, ∃ b : BrimPkt, ∃ dest : Nat, ∃ mid : Nat, s.ownId ≠ 0x3FF ∧ b.dmid = s.ownId ∧ let goesTo := fun (n : Nat) => s.destOf (1023 * 2 ^ 54 + b.addr) n 0 = some (dest, mid) ∧ dest ≠ destHost; let isReg := regWindow ≤ b.addr ∧ b.addr < hostWindow; b.typ = Packet.REGWR ∧ goesTo 4 ∧ isReg ∧ s.flag F.BRIM_CFG_REMOTE_REG p = true)
    ∧ (∃ s : State, ∃ b : BrimPkt, ∃ dest : Nat, s.ownId ≠ 0x3FF ∧ b.dmid = s.ownId ∧ ∃ x, b.typ = BrimPkt.RACC ∧ bit b.tspec 6 = false ∧ s.region b.addr 256 = .stack x ∧ dest = destChan x.chan)
    ∧ (∃ s : State, ∃ b : BrimPkt, s.ownId ≠ 0x3FF ∧ b.dmid = s.ownId ∧ ∃ r : BrimReq, ∃ a : Packet, s.brim.reqs = [r] ∧ r.tag = b.tag ∧ r.epoch = b.epoch ∧ s.clk.wt ≤ r.deadline ∧ r.req = some a ∧ b.typ = Packet.RDR)
    ∧ (∃ s : State, ∃ b : BrimPkt, s.ownId ≠ 0x3FF ∧ b.dmid = s.ownId ∧ ∃ r : BrimReq, ∃ a : Packet, s.brim.reqs = [r] ∧ r.tag = b.tag ∧ r.epoch = b.epoch ∧ s.clk.wt ≤ r.deadline ∧ r.req = some a ∧ b.typ = Packet.WACK)
    ∧ (∃ s : State, ∃ b : BrimPkt, s.ownId ≠ 0x3FF ∧ b.dmid = s.ownId ∧ ∃ r : BrimReq, ∃ a : Packet, s.brim.reqs = [r] ∧ r.tag = b.tag ∧ r.epoch = b.epoch ∧ s.clk.wt ≤ r.deadline ∧ r.req = some a ∧ b.typ = Packet.REGR)
    ∧ (∃ s : State, ∃ b : BrimPkt, s.ownId ≠ 0x3FF ∧ b.dmid = s.ownId ∧ s.brim.reqs = [] ∧ b.typ = Packet.RDR)
    ∧ (∃ s : State, ∃ b : BrimPkt, s.ownId ≠ 0x3FF ∧ b.dmid = s.ownId ∧ s.brim.reqs = [] ∧ b.typ = Packet.WACK)
    ∧ (∃ s : State, ∃ b : BrimPkt, s.ownId ≠ 0x3FF ∧ b.dmid = s.ownId ∧ s.brim.reqs = [] ∧ b.typ = Packet.REGR) :=
  ⟨⟨bReg, bFor Packet.WR 4096 64 (pattern 3), (bDest 4096).1, (bDest 4096).2, by dsimp only; decide +kernel⟩,
  ⟨bReg, bFor Packet.RD 4096 4096 [], (bDest 4096).1, (bDest 4096).2, by dsimp only; decide +kernel⟩,
  ⟨bReg, 5, bFor Packet.REGRD (regWindow + 4) 1 [], (bDest (regWindow + 4)).1, (bDest (regWindow + 4)).2, by dsimp only; decide +kernel⟩,
  ⟨bReg, 5, bFor Packet.REGWR (regWindow + 4) 4 (leBytes 4 1), (bDest (regWindow + 4)).1, (bDest (regWindow + 4)).2, by dsimp only; decide +kernel⟩,
  ⟨bReg, bFor BrimPkt.RACC 4096 256 (List.replicate 256 1), (bDest 4096).1, by decide +kernel, by decide +kernel, bChan, by decide +kernel⟩,
  ⟨bOwed [bReq], bFor Packet.RDR 0 64 (pattern 3), by decide +kernel, by decide +kernel, bReq, bAsk, by decide +kernel⟩,
  ⟨bOwed [bReq], bFor Packet.WACK 0 64 (pattern 3), by decide +kernel, by decide +kernel, bReq, bAsk, by decide +kernel⟩,
  ⟨bOwed [bReq], bFor Packet.REGR 0 64 (pattern 3), by decide +kernel, by decide +kernel, bReq, bAsk, by decide +kernel⟩,
  ⟨bOwed [], bFor Packet.RDR 0 64 (pattern 3), by decide +kernel⟩,
  ⟨bOwed [], bFor Packet.WACK 0 64 (pattern 3), by decide +kernel⟩,
  ⟨bOwed [], bFor Packet.REGR 0 64 (pattern 3), by decide +kernel⟩⟩

/-- States that meet the premises of `Obligations.TimeExchanges`, clause by clause. -/
theorem witness_TimeExchanges :
    (∃ s : State, s.flag F.BRIM_TIME_ROOT = true)
    ∧ (∃ s : State, s.flag F.BRIM_TIME_ROOT = false)
    ∧ (∃ s : State, ∃ p : Port, ∃ t1 : Nat, let x := s.brim.time; s.bListens p false = true ∧ p.val = s.fget F.BRIM_TIME_UP_PORT ∧ x.busy = true ∧ x.t1 = some t1)
    ∧ (∃ s : State, ∃ p : Port, ∃ msg : PtpMsg, s.bListens p true = true ∧ msg.domain = s.fget F.BRIM_ETH_PTP_DOMAIN p ∧ msg.kind.val = 2)
    ∧ (∃ s : State, ∃ p : Port, ∃ msg : PtpMsg, let x := s.brim.time; s.bListens p true = true ∧ msg.domain = s.fget F.BRIM_ETH_PTP_DOMAIN p ∧ p.val = s.fget F.BRIM_TIME_UP_PORT ∧ x.busy = true ∧ x.t1 = none ∧ msg.kind.val = 0)
    ∧ (∃ s : State, ∃ p : Port, ∃ msg : PtpMsg, let x := s.brim.time; s.bListens p true = true ∧ msg.domain = s.fget F.BRIM_ETH_PTP_DOMAIN p ∧ p.val = s.fget F.BRIM_TIME_UP_PORT ∧ x.busy = true ∧ x.t1 = none ∧ msg.kind.val = 1)
    ∧ (∃ s : State, ∃ p : Port, ∃ msg : PtpMsg, let x := s.brim.time; s.bListens p true = true ∧ msg.domain = s.fget F.BRIM_ETH_PTP_DOMAIN p ∧ p.val = s.fget F.BRIM_TIME_UP_PORT ∧ x.busy = true ∧ x.t1 = none ∧ msg.kind.val = 3) :=
  ⟨⟨base.fset F.BRIM_TIME_ROOT 1, by decide +kernel⟩,
  ⟨bOn, by decide +kernel⟩,
  ⟨bClock false (some 40), 5, 40, by decide +kernel⟩,
  ⟨bClock true none, 5, bPtp 2, by decide +kernel⟩,
  ⟨bClock true none, 5, bPtp 0, by decide +kernel⟩,
  ⟨bClock true none, 5, bPtp 1, by decide +kernel⟩,
  ⟨bClock true none, 5, bPtp 3, by decide +kernel⟩⟩

/-! ### Reduction, steps, health -/

def hbmOn : State := (List.range 24).foldl (fun s k => s.fset F.HBMC_STATUS_STATE hENABLED k) base
def wIn (st : Nat) : State :=
  (((((hbmOn.fset F.RED_WIN_BASE_ADDR 16 0 1023).fset F.RED_WIN_CNT_ADDR 0x8000 0 1023).fset F.RED_WIN_OUT_ADDR 0x10000 0 1023).fset F.RED_WIN_SIZE_NCHUNKM1 2 0 1023).fset
    F.RED_WIN_DEADLINE_NS 5000 0 1023).setWinState 1023 st
def wAt (st : Nat) (closing : Bool) : State := (wIn st).setWin 1023 { step := 0, dln := 5000, closeAt := 5000, closing := closing }
def wPlace : ChanAddr := hbmOn.ilvOf 65536
def wRacc (n : Nat) (flags : Nat) : Packet :=
  { typ := Packet.RACC, dest := destChan wPlace.chan, src := destBrim 0, count := 7, addr := 65536, lenm1 := n - 1, mid := 9, rid := 1023, flags := flags, data := List.replicate n 1, op := 4 }
def wRed : Packet := { wRacc 256 0 with typ := Packet.RED, src := 40, rid := 3 }
def wRid : State := ((wAt wOPEN false).fset F.RED_RID_VALID 1 0 3).fset F.RED_RID_WIN 1023 0 3
def wCount : State := { wAt wOPEN false with red := { (wAt wOPEN false).red with pend := [⟨1023, 65596, 0xFFFFFFFF⟩] } }
def wAmax : Packet := { typ := Packet.AMAX, dest := destScale, src := 40, addr := 3071, data := leBytes 4 0x3f800000 ++ zeros 12, lenm1 := 15 }
def sStep : State := (inTract tRUNNING ((base.setWinState 1023 wOPEN).fset F.RED_STEP_TRACTS_MASK 4)).setTract 2 { stepHeld := true }
def sSync (b : Nat) (d : Option Int) : State :=
  let s := ((base.fset F.RED_CTRL_SCHED 1).fset F.RED_CTRL_SYNC_EN 1).wr .RED_STEP_PERIOD (BitVec.ofNat 64 100000)
  { s with red := { s.red with sync := some (5, b, 5), delta := d } }
def crit (p : Nat) : State := { base with hlth := { base.hlth with crit := [(p, 3)] } }
def change : State := { base with hlth := { base.hlth with changes := [⟨161, 4⟩] } }

/-! ### Resets, clocks, start-up -/

def wdog : State := (base.fset F.RST_WDOG_EN 1).fset F.RST_WDOG_CLASS 3
def boot (f : Boot → Boot) : State := { base with boot := f base.boot }
def stage (n : Nat) : State := base.fset F.RST_BOOT_STAGE n
def locked (b : Boot) : State := { base.fset F.CLK_STATUS_LOCKED (2 ^ 25 - 1) with boot := b }
def karState : State := { stage 6 with boot := { (stage 6).boot with sram := [(3, leBytes 8 0x1234)], karStart := 44 } }
def karDone (n : Nat) : State := { stage 6 with boot := { (stage 6).boot with kar := mputs 0 [] 0 (List.replicate n 1) } }

theorem ones_get (n k : Nat) (h : k < n) : mget 0 (mputs 0 [] 0 (List.replicate n 1)) k = 1 := by
  rw [mget_mputs, if_pos ⟨Nat.zero_le _, by simpa using h⟩, List.getD_eq_getElem?_getD, Nat.sub_zero,
    List.getElem?_replicate_of_lt h, Option.getD_some]

theorem kar_closed (n k : Nat) (hk : k < n) : (karDone n).karOpen k = false := by
  have h : mget 0 (karDone n).boot.kar k = 1 := ones_get n k hk
  unfold State.karOpen
  rw [h]
  exact Bool.and_false _

/-- States that meet the premises of `Obligations.WindowsOpenAndClose`, clause by clause. -/
theorem witness_WindowsOpenAndClose :
    (∃ s : State, ∃ w : Win, ∃ v : Bool, let st := s.winState w; (v = false ∨ st ≠ wDISABLED ∨ s.winBad w = none))
    ∧ (∃ s : State, ∃ w : Win, let st := s.winState w; ∃ r, st = wDISABLED ∧ s.winBad w = some r ∧ EvtRoom s)
    ∧ (∃ s : State, ∃ w : Win, let st := s.winState w; st = wCLEARING ∧ s.chans = [] ∧ s.red.pend = [])
    ∧ (∃ s : State, ∃ w : Win, let st := s.winState w; st = wOPEN)
    ∧ (∃ s : State, ∃ w : Win, let st := s.winState w; let x := s.win w; st = wCLOSING ∧ x.closing = false ∧ s.chans = [] ∧ s.red.pend = [])
    ∧ (∃ s : State, ∃ w : Win, let st := s.winState w; let x := s.win w; st = wCLOSING ∧ x.closing = true ∧ s.red.proc = none)
    ∧ (∃ s : State, ∃ w : Win, ∃ ch : Chan, ∃ a : Fin 41943040, let x := s.win w; let b := s.stackAddr ch (64 * a.val); x.closing = true ∧ (∀ u : Win, u ≠ w → (s.win u).closing = false) ∧ (s.ilvOf b).chan = ch ∧ (s.ilvOf b).caddr = 64 * a.val ∧ b % 64 = 0 ∧ s.winBase w ≤ b ∧ b + 64 ≤ s.winBase w + 256 * s.winChunks w ∧ b + 64 ≤ s.winCnt w ∧ s.chan ch = {} ∧ mget [] s.hbmErr (accKey ch a) = [] ∧ x.taken.any (fun e => e.1 == accKey ch a) = false) :=
  ⟨⟨wIn wDISABLED, 1023, true, by decide +kernel⟩,
  ⟨base, 1023, ((base).winBad 1023).getD 0, by dsimp only [EvtRoom]; decide +kernel⟩,
  ⟨wIn wCLEARING, 1023, by decide +kernel⟩,
  ⟨wIn wOPEN, 1023, by decide +kernel⟩,
  ⟨wAt wCLOSING false, 1023, by decide +kernel⟩,
  ⟨wAt wCLOSING true, 1023, by decide +kernel⟩,
  ⟨wAt wCLOSING true, 1023, ⟨wPlace.chan, by decide +kernel⟩, ⟨wPlace.caddr / 64, by decide +kernel⟩, by decide +kernel⟩⟩

/-- States that meet the premises of `Obligations.ContributionsAreJudged`, clause by clause. -/
theorem witness_ContributionsAreJudged :
    (∃ s : State, ∃ ch : Chan, ∃ p : Packet, p ∉ s.flights.map (·.pkt) ∧ let at_ := (s.ilvOf p.addr).chan; let ready := p.dest = destChan ch ∧ s.boot.hbmUp = true ∧ s.chanReason ch = none ∧ s.rack.phase = 0 ∧ (s.chan ch).queue = [] ∧ (s.chan at_).queue = []; let x := s.raccContrib p; ready ∧ x.k = 1 ∧ x.vfy = false ∧ x.sender ≠ 1023 ∧ x.win < 1024 ∧ s.contribStatus x = stOK)
    ∧ (∃ s : State, ∃ ch : Chan, ∃ p : Packet, p ∉ s.flights.map (·.pkt) ∧ let at_ := (s.ilvOf p.addr).chan; let ready := p.dest = destChan ch ∧ s.boot.hbmUp = true ∧ s.chanReason ch = none ∧ s.rack.phase = 0 ∧ (s.chan ch).queue = [] ∧ (s.chan at_).queue = []; let x := s.raccContrib p; ready ∧ x.k = 1 ∧ s.contribStatus x ≠ stOK ∧ s.contribStatus x ≠ raLATE)
    ∧ (∃ s : State, ∃ ch : Chan, ∃ p : Packet, p ∉ s.flights.map (·.pkt) ∧ let at_ := (s.ilvOf p.addr).chan; let ready := p.dest = destChan ch ∧ s.boot.hbmUp = true ∧ s.chanReason ch = none ∧ s.rack.phase = 0 ∧ (s.chan ch).queue = [] ∧ (s.chan at_).queue = []; let x := s.localContrib p; ready ∧ p.typ = Packet.RED ∧ s.redCounts p = true ∧ x.k = 1 ∧ p.lenm1 = 255 ∧ x.win < 1024 ∧ s.contribStatus x = stOK ∧ s.vfySlot x.win x.addr = none)
    ∧ (∃ s : State, ∃ ch : Chan, ∃ p : Packet, p ∉ s.flights.map (·.pkt) ∧ ∃ u, s.red.pend = [u] ∧ (s.ilvOf u.addr).chan = ch ∧ u.addr % 64 ≤ 60 ∧ u.addr % 4 = 0 ∧ (s.ilvOf u.addr).caddr % 64 = u.addr % 64 ∧ s.ilvOf (u.addr / 64 * 64) = { s.ilvOf u.addr with caddr := (s.ilvOf u.addr).caddr / 64 * 64 } ∧ (s.chan ch).coal = [])
    ∧ (∃ s : State, ∃ p : Packet, p ∉ s.flights.map (·.pkt) ∧ p.addr < 3072 ∧ s.red.proc = none) :=
  ⟨⟨wAt wOPEN false, ⟨wPlace.chan, by decide +kernel⟩, wRacc 256 0, by dsimp only; decide +kernel⟩,
  ⟨wAt wDISABLED false, ⟨wPlace.chan, by decide +kernel⟩, wRacc 256 0, by dsimp only; decide +kernel⟩,
  ⟨wRid, ⟨wPlace.chan, by decide +kernel⟩, wRed, by dsimp only; decide +kernel⟩,
  ⟨wCount, ⟨(hbmOn.ilvOf 65596).chan, by decide +kernel⟩, wAmax, by decide +kernel, ⟨1023, 65596, 0xFFFFFFFF⟩, by decide +kernel⟩,
  ⟨base, wAmax, by decide +kernel⟩⟩

/-- States that meet the premises of `Obligations.StepBoundaries`, clause by clause. -/
theorem witness_StepBoundaries :
    (∃ s : State, ∃ w : Win, s.red.proc = none ∧ s.stepReady = true ∧ s.flag F.RED_CTRL_SCHED = false ∧ s.winState w = wOPEN)
    ∧ (∃ s : State, ∃ b, ∃ k, s.red.proc = some (b, k) ∧ (∀ u, u < 1024 → s.winState u ≠ wCLOSING) ∧ s.noAmax = true)
    ∧ (∃ s : State, ∃ n, ∃ b, ∃ first, s.red.sync = some (n, b, first) ∧ s.syncOn = true ∧ first ≤ s.clk.wt ∧ let e : Int := (s.clk.wt : Int) - b; let l : Int := min (s.stepP / 64) 50000; s.red.delta = none ∧ e.natAbs ≤ l.natAbs ∧ (s.rd .RED_STEP_COUNT).toNat ≤ n)
    ∧ (∃ s : State, ∃ n, ∃ b, ∃ first, s.red.sync = some (n, b, first) ∧ s.syncOn = true ∧ first ≤ s.clk.wt ∧ s.red.delta ≠ none)
    ∧ (∃ s : State, ∃ n, ∃ b, ∃ first, ∃ d, s.red.sync = some (n, b, first) ∧ s.red.delta = some d)
    ∧ (∃ s : State, s.pins.stepOut ≠ 0) :=
  ⟨⟨sStep, 1023, by decide +kernel⟩,
  ⟨{ base with red := { base.red with proc := some (44, 2) } }, 44, 2, by decide +kernel⟩,
  ⟨sSync 44 none, 5, 44, 5, by dsimp only; decide +kernel⟩,
  ⟨sSync 44 (some 4), 5, 44, 5, by decide +kernel⟩,
  ⟨sSync 44 (some 4), 5, 44, 5, 4, by decide +kernel⟩,
  ⟨{ base with pins := { base.pins with stepOut := 1044 } }, by decide +kernel⟩⟩

/-- States that meet the premises of `Obligations.HealthIsJudged`. -/
theorem witness_HealthIsJudged :
    (∃ s : State, ∃ x : BitVec 32, let n := s.fget F.HLTH_LOSS_N_N; fin32 x.toNat = true ∧ n < 65535) :=
  ⟨base.fset F.HLTH_LOSS_N_N 65534, 0x7f7fffff, by decide +kernel⟩

/-- States that meet the premises of `Obligations.CoresFail`, clause by clause. -/
theorem witness_CoresFail :
    (∃ s : State, ∃ pos : Pos, s.boot.coresUp = true ∧ s.parkedField (fieldOfPos pos) = false ∧ s.fget F.PWR_STATUS_STATE < 2)
    ∧ (∃ s : State, s.flag F.MOD_CTRL_EXPERT = true ∧ s.flag F.MOD_CTRL_LOCK = false ∧ ∃ i : Fin 32768, i.val < 19200)
    ∧ (∃ s : State, s.flag F.MOD_CTRL_EXPERT = true ∧ s.flag F.MOD_CTRL_LOCK = false ∧ ∃ i : Fin 32768, i.val < 18000)
    ∧ (∃ s : State, ∃ pos : Pos, ∃ crit : Nat, ∃ rest : List (Nat × Nat), s.hlth.crit = (pos.val, crit) :: rest ∧ s.posFailed pos = false ∧ s.hlth.changes.any (·.pos == pos.val) = false ∧ (s.logical pos).isSome)
    ∧ (∃ s : State, ∃ pos : Pos, ∃ crit : Nat, ∃ rest : List (Nat × Nat), s.hlth.crit = (pos.val, crit) :: rest ∧ s.posFailed pos = false ∧ s.hlth.changes.any (·.pos == pos.val) = false ∧ s.logical pos = none)
    ∧ (∃ s : State, ∃ pos : Pos, let seg := segOfPos pos; ∃ ch, ∃ more, s.hlth.changes = ch :: more ∧ ch.pos = pos ∧ s.spares seg ≠ [])
    ∧ (∃ s : State, ∃ pos : Pos, let seg := segOfPos pos; ∃ ch, ∃ more, s.hlth.changes = ch :: more ∧ ch.pos = pos ∧ s.spares seg = []) :=
  ⟨⟨base, 19199, by decide +kernel⟩,
  ⟨base.fset F.MOD_CTRL_EXPERT 1, by decide +kernel, by decide +kernel, 19199, by decide +kernel⟩,
  ⟨base.fset F.MOD_CTRL_EXPERT 1, by decide +kernel, by decide +kernel, 17999, by decide +kernel⟩,
  ⟨crit 0, 0, 3, [], by decide +kernel⟩,
  ⟨crit 30, 30, 3, [], by decide +kernel⟩,
  ⟨change, 161, ⟨161, 4⟩, [], by decide +kernel⟩,
  ⟨(change.fset F.MOD_SPARE_SKIP_A_FAILED 1 0 (segOfPos 161)).fset F.MOD_SPARE_SKIP_B_FAILED 1 0 (segOfPos 161), 161, ⟨161, 4⟩, [], by decide +kernel⟩⟩

/-- States that meet the premises of `Obligations.ResetsAct`, clause by clause. -/
theorem witness_ResetsAct :
    (∃ s : State, s.flag F.MOD_STATUS_READY = true ∧ s.flag F.RST_WDOG_EN = true ∧ 2 ≤ s.fget F.RST_WDOG_CLASS ∧ s.fget F.RST_WDOG_CLASS ≤ 3)
    ∧ (∃ s : State, ∃ i : Fin 32768, s.flag F.MOD_STATUS_READY = true ∧ i.val < 16)
    ∧ (∃ s : State, ∃ i : Fin 32768, s.flag F.MOD_STATUS_READY = true ∧ i.val < 18000 ∧ s.slotOf i = none)
    ∧ (∃ s : State, ∃ key : BitVec 8, s.flag F.MOD_STATUS_READY = true ∧ key ≠ 0xA5 ∧ EvtRoom s) :=
  ⟨⟨wdog, by decide +kernel⟩,
  ⟨base, 15, by decide +kernel⟩,
  ⟨base, 17999, by decide +kernel⟩,
  ⟨base, 0xA4, by dsimp only [EvtRoom]; decide +kernel⟩⟩

/-- States that meet the premises of `Claim.ResetInputsRelease`, a part of `Obligations.ResetInputsAndClocks`, clause by clause. -/
theorem witness_ResetInputsAndClocks_ResetInputsRelease :
    (∃ s : State, let b := s.boot; b.pwrLow = true)
    ∧ (∃ s : State, let b := s.boot; b.uvlo = true) :=
  ⟨⟨boot fun b => { b with pwrLow := true }, by decide +kernel⟩,
  ⟨boot fun b => { b with uvlo := true }, by decide +kernel⟩⟩

/-- States that meet the premises of `Claim.ClocksGuardDomains`, a part of `Obligations.ResetInputsAndClocks`, clause by clause. -/
theorem witness_ResetInputsAndClocks_ClocksGuardDomains :
    (∃ s : State, ∃ f : FieldId, let locked := fun (t : State) => bit (t.fget F.CLK_STATUS_LOCKED) f; locked s = true ∧ s.boot.transitUp = false)
    ∧ (∃ s : State, ∃ f : FieldId, let locked := fun (t : State) => bit (t.fget F.CLK_STATUS_LOCKED) f; locked s = true ∧ s.boot.transitUp = true ∧ s.flag F.MOD_STATUS_READY = true)
    ∧ (∃ d : Fin 6, d.val ≠ 4)
    ∧ (∃ s : State, ∃ f : FieldId, let locked := fun (t : State) => bit (t.fget F.CLK_STATUS_LOCKED) f; let l := mget 0 s.boot.pll f; l ≠ 0 ∧ locked s = false)
    ∧ (∃ s : State, ∃ d : Fin 6, ∃ f : FieldId, let locked := fun (t : State) => bit (t.fget F.CLK_STATUS_LOCKED) f; let key := d.val * 32 + f.val; locked s = false ∧ (∀ r ∈ s.boot.releases, r.1 ≠ key))
    ∧ (∃ s : State, ∃ d : Fin 6, ∃ f : FieldId, let locked := fun (t : State) => bit (t.fget F.CLK_STATUS_LOCKED) f; let key := d.val * 32 + f.val; locked s = true ∧ key ∈ s.boot.bypass) :=
  ⟨⟨locked {}, 24, by decide +kernel⟩,
  ⟨locked base.boot, 24, by decide +kernel⟩,
  ⟨5, by decide +kernel⟩,
  ⟨boot fun b => { b with pll := [(24, 40)] }, 24, by decide +kernel⟩,
  ⟨base, 5, 24, by decide +kernel⟩,
  ⟨locked { bypass := [184] }, 5, 24, by decide +kernel⟩⟩

/-- States that meet the premises of `Obligations.StartUpPhases`, clause by clause. -/
theorem witness_StartUpPhases :
    (∃ s : State, s.boot.pwrLow = false ∧ s.boot.uvlo = false ∧ s.boot.modRst = false ∧ let stage := s.fget F.RST_BOOT_STAGE; stage = 0)
    ∧ (∃ s : State, ∃ x : PhaseFacts, s.boot.pwrLow = false ∧ s.boot.uvlo = false ∧ s.boot.modRst = false ∧ let stage := s.fget F.RST_BOOT_STAGE; let d := s.fget F.RST_BOOT_PREFER; let dead := fun (n : Nat) => if n = 0 then x.deadA else x.deadB; stage = 1 ∧ (∃ e, s.proveImage d (dead d) = .error e) ∧ (∃ e, s.proveImage (1 - d) (dead (1 - d)) = .error e))
    ∧ (∃ s : State, ∃ x : PhaseFacts, s.boot.pwrLow = false ∧ s.boot.uvlo = false ∧ s.boot.modRst = false ∧ let stage := s.fget F.RST_BOOT_STAGE; stage = 2 ∧ s.fget F.RST_TRIM_FAILS = 0 ∧ x.trims = [true])
    ∧ (∃ s : State, ∃ x : PhaseFacts, s.boot.pwrLow = false ∧ s.boot.uvlo = false ∧ s.boot.modRst = false ∧ let stage := s.fget F.RST_BOOT_STAGE; stage = 2 ∧ s.fget F.RST_TRIM_FAILS = 0 ∧ x.trims = [false, false, false, true])
    ∧ (∃ s : State, ∃ x : PhaseFacts, s.boot.pwrLow = false ∧ s.boot.uvlo = false ∧ s.boot.modRst = false ∧ let stage := s.fget F.RST_BOOT_STAGE; stage = 2 ∧ s.fget F.RST_TRIM_FAILS = 0 ∧ x.trims = [false, false, false, false])
    ∧ (∃ s : State, s.boot.pwrLow = false ∧ s.boot.uvlo = false ∧ s.boot.modRst = false ∧ let stage := s.fget F.RST_BOOT_STAGE; stage = 3 ∧ s.fget F.CLK_STATUS_LOCKED = 2 ^ 25 - 1)
    ∧ (∃ s : State, ∃ x : PhaseFacts, s.boot.pwrLow = false ∧ s.boot.uvlo = false ∧ s.boot.modRst = false ∧ let stage := s.fget F.RST_BOOT_STAGE; stage = 5 ∧ x.undelivered = [])
    ∧ (∃ s : State, ∃ x : PhaseFacts, s.boot.pwrLow = false ∧ s.boot.uvlo = false ∧ s.boot.modRst = false ∧ let stage := s.fget F.RST_BOOT_STAGE; stage = 6 ∧ x.bistBad = [] ∧ (∀ p : Pos, s.karOpen p = false) ∧ s.boot.karFail = [])
    ∧ (∃ s : State, ∃ pos : Pos, ∃ sig : BitVec 64, s.boot.pwrLow = false ∧ s.boot.uvlo = false ∧ s.boot.modRst = false ∧ s.karOpen pos = true ∧ s.clk.wt ≤ s.boot.karStart + s.karLimit ∧ sig.toNat = s.karExpect)
    ∧ (∃ s : State, ∃ pos : Pos, ∃ sig : BitVec 64, s.boot.pwrLow = false ∧ s.boot.uvlo = false ∧ s.boot.modRst = false ∧ s.karOpen pos = true ∧ s.clk.wt ≤ s.boot.karStart + s.karLimit ∧ sig.toNat ≠ s.karExpect)
    ∧ (∃ s : State, s.boot.pwrLow = false ∧ s.boot.uvlo = false ∧ s.boot.modRst = false ∧ let stage := s.fget F.RST_BOOT_STAGE; stage = 7)
    ∧ (∃ s : State, s.boot.pwrLow = false ∧ s.boot.uvlo = false ∧ s.boot.modRst = false ∧ s.boot.mapDue = true ∧ s.flag F.MOD_STATUS_READY = true) :=
  ⟨⟨base, by dsimp only; decide +kernel⟩,
  ⟨stage 1, { deadA := true, deadB := true }, by decide +kernel, by decide +kernel, by decide +kernel, by decide +kernel, ⟨(1, 0), rfl⟩, ⟨(1, 0), rfl⟩⟩,
  ⟨stage 2, { trims := [true] }, by dsimp only; decide +kernel⟩,
  ⟨stage 2, { trims := [false, false, false, true] }, by dsimp only; decide +kernel⟩,
  ⟨stage 2, { trims := [false, false, false, false] }, by dsimp only; decide +kernel⟩,
  ⟨locked base.boot |>.fset F.RST_BOOT_STAGE 3, by dsimp only; decide +kernel⟩,
  ⟨stage 5, {}, by dsimp only; decide +kernel⟩,
  ⟨karDone 19200, {}, rfl, rfl, rfl, rfl, rfl, fun p => kar_closed 19200 p p.isLt, rfl⟩,
  ⟨karState, 19199, 0x1234, by decide +kernel⟩,
  ⟨karState, 19199, 0, by decide +kernel⟩,
  ⟨stage 7, by dsimp only; decide +kernel⟩,
  ⟨boot fun b => { b with mapDue := true }, by decide +kernel⟩⟩

/-- States that meet the premises of `Claim.StepRunsTheFrontCommand`, a part of `Obligations.StepsTakeTheQueue`. -/
theorem witness_StepsTakeTheQueue_StepRunsTheFrontCommand :
    (∃ s : State, ∃ c : Instr, ∃ rest : List Instr, s.pending = c :: rest) :=
  ⟨{ base with pending := [.readySet] }, .readySet, [], by decide +kernel⟩

/-! ### Power -/

def pw (st target : Nat) (mv : Option (Bool × Nat)) : State :=
  let s := (base.fset F.PWR_STATUS_STATE st).fset F.PWR_CTRL_TARGET target
  { s with pwr := { s.pwr with move := mv } }

/-! ### The host -/

def hTrans : State := ((base.fset F.HOST_XLAT_CTRL_EN 1 0 3).fset F.HOST_XLAT_CTRL_LIMIT 5 0 3).fset F.HOST_XLAT_BASE_ADDR 77 0 3
def hDma (typ : Nat) : Packet := { typ := typ, dest := destHost, src := 40, addr := hostWindow + 3 * 2 ^ 36 + 4096, lenm1 := 63, data := pattern 1, op := 5 }
def hReq : DmaReq := { id := 4, pkt := some (hDma Packet.RD), addr := 5, n := 64, issued := 40 }

/-- Ring 15 of an intake, with four entries of 256 bytes in host memory, copied to 0x10000. -/
def hRing : State :=
  let b := leBytes 8 (hostWindow + 3 * 2 ^ 36) ++ leBytes 4 16 ++ leBytes 4 256 ++ leBytes 8 (1023 * 2 ^ 54 + 0x10000) ++ leBytes 4 4 ++ leBytes 4 5000 ++ leBytes 4 (7 + 5 * 65536)
  { hTrans with host := { hTrans.host with jobs := { hTrans.host.jobs with entry := mputs 0 (mputs 0 [] 0x16 (leBytes 2 16)) (0x3000 + 64 * 15) b } } }
def hFetch (st k : Nat) : Fetch := { ring := 15, k := 9, go := 44, stage := st, readAt := 40, hdr := leBytes 4 1 ++ leBytes 4 k ++ leBytes 4 100 ++ zeros 52 }
def hFetches (st k : Nat) : State := { hRing with host := { hRing.host with fetches := [hFetch st k] } }
def hHeld : State := { hRing.fset F.HOST_IN_LAST_K 9 0 15 with host := { hRing.host with held := [(15 * 2 ^ 32 + 9, true)] } }

/-! ### Jobs -/

def jPut (a n v : Nat) (s : State) : State := s.jobPut 3 a (leBytes n v)
def jBase : State := base.fset F.PWR_STATUS_CORES_READY 1

/-- A job of two tracts, beside each other, without rings. -/
def jEntry : State :=
  let tract := fun (s : State) (t : Nat) => jPut (0x1000 + 128 * t) 4 (3 * t) (jPut (0x1004 + 128 * t) 4 0x20002 (jPut (0x1008 + 128 * t) 4 (t * 256) (jPut (0x1010 + 128 * t) 8 0x100000 s)))
  tract (tract (jPut 0x14 2 2 (jPut 0x18 4 10 (jPut 0x28 4 1 (jPut 0x20 8 (1023 * 2 ^ 54 + 0x20000) jBase)))) 0) 1
def jCmd (cmd : Nat) (acted : Bool) (s : State) : State := { s with host := { s.host with jobs := { s.host.jobs with cmds := [{ j := 3, cmd := cmd, acted := acted }] } } }
def jLoad : State :=
  jCmd 1 false (jEntry.memPut 0x20000 (leBytes 4 7 ++ [1, 1] ++ leBytes 2 5 ++ leBytes 8 (1023 * 2 ^ 54 + 0x30000) ++ leBytes 8 64 ++ leBytes 8 0))
def jPlaced : State × Option (Nat × Nat) :=
  ({ jLoad with host := { jLoad.host with jobs := { jLoad.host.jobs with slots := [] } } } : State).jobPlace 3 ((jLoad.jobOfShift 3 0).zip jLoad.freeSlots)
def jTable : List Byte := (jPlaced.1.jobPlacement 3 none).getD []
def jIn (cmd state st : Nat) : State := (jCmd cmd false (jPut 8 4 state (inTract st jBase))).jobSlotSet 2 7

/-! ### Security -/

def token (arg : Nat) : Token := { serial := (base.rd .MOD_SERIAL).toNat, nonce := (base.rd .SEC_DBG_NONCE).toNat, arg := arg, reserved := zeros 15, pubkey := zeros 1793, sig := zeros 1280 }
def fused : State := base.fset F.SEC_STATUS_REVOKED 7
def locked4 : State := base.fset F.SEC_STATUS_LOCKOUT 1
def left (n : Nat) : State := base.fset F.SEC_RWN_LEFT_PENV n

/-- States that meet the premises of `Obligations.PowerLadder`, clause by clause. -/
theorem witness_PowerLadder :
    (∃ s : State, ∃ target : Fin 4, let st := s.pState; s.pwr.move = none ∧ st ≠ 0 ∧ target.val = 0)
    ∧ (∃ s : State, ∃ target : Fin 4, ∃ b, s.pwr.move = some (false, b) ∧ target.val = 0)
    ∧ (∃ s : State, ∃ target : Fin 4, s.pwr.move = none ∧ target.val ≠ 0)
    ∧ (∃ s : State, let st := s.pState; s.pwr.move = none ∧ st < s.pTarget ∧ s.rungReady (st + 1) = false)
    ∧ (∃ s : State, let st := s.pState; s.pwr.move = none ∧ st < s.pTarget ∧ s.rungReady (st + 1) = true)
    ∧ (∃ s : State, let st := s.pState; ∃ b, s.pwr.move = some (false, b) ∧ st < pSTEEP)
    ∧ (∃ s : State, let st := s.pState; ∃ b, s.pwr.move = some (false, b) ∧ st = pSTEEP ∧ (∀ x : Stack, s.hState x ≠ hSTOPPING) ∧ (∀ p : Port, s.bState p ≠ bSTOPPING))
    ∧ (∃ s : State, let st := s.pState; ∃ b, s.pwr.move = some (true, b) ∧ st ≠ pBOIL)
    ∧ (∃ s : State, let st := s.pState; s.flag F.PWR_CTRL_AUTO_SIMMER = true ∧ s.pTarget = 0 ∧ st = 0 ∧ s.pwr.move = none ∧ s.anyRunning = false)
    ∧ (∃ s : State, let st := s.pState; s.flag F.PWR_STATUS_CORES_READY = false ∧ st ≠ pCELLAR ∧ s.pwr.move = none ∧ (mget [] s.boot.sram 2).length ≤ 2 ^ 20)
    ∧ (∃ s : State, ∃ b, s.pwr.rampAt = some b)
    ∧ (∃ s : State, ∃ p, ∃ rest, s.clk.pendLevel = p :: rest) :=
  ⟨⟨pw 3 0 none, 0, by decide +kernel⟩,
  ⟨pw 2 3 (some (false, 40)), 0, 40, by decide +kernel⟩,
  ⟨pw 0 0 none, 3, by decide +kernel⟩,
  ⟨inTract tRUNNING (pw 0 1 none), by decide +kernel⟩,
  ⟨pw 0 1 none, by decide +kernel⟩,
  ⟨pw 1 3 (some (false, 40)), 40, by decide +kernel⟩,
  ⟨pw 2 3 (some (false, 40)), 40, by decide +kernel⟩,
  ⟨pw 3 0 (some (true, 40)), 40, by decide +kernel⟩,
  ⟨(pw 0 0 none).fset F.PWR_CTRL_AUTO_SIMMER 1, by decide +kernel⟩,
  ⟨(pw 2 0 none).fset F.PWR_STATUS_CORES_READY 0, by decide +kernel⟩,
  ⟨{ base with pwr := { base.pwr with rampAt := some 40 } }, 40, by decide +kernel⟩,
  ⟨{ base with clk := { base.clk with pendLevel := [(5, 7)] } }, (5, 7), [], by decide +kernel⟩⟩

/-- States that meet the premises of `Obligations.PowerAndHeatAreGoverned`, clause by clause. -/
theorem witness_PowerAndHeatAreGoverned :
    (∃ x : BitVec 12, x.toInt < 460)
    ∧ (∃ s : State, ∃ x : BitVec 12, 460 ≤ x.toInt ∧ s.flag F.MOD_STATUS_READY = true)
    ∧ (∃ s : State, ∃ f : FieldId, let st := s.fget F.FLD_STATUS_STATE f; st = 1 ∧ (∀ u ∈ s.fieldSlots f, s.tstate u ≠ tRUNNING ∧ s.tstate u ≠ tSTOPPING))
    ∧ (∃ s : State, ∃ f : FieldId, let st := s.fget F.FLD_STATUS_STATE f; st = 3) :=
  ⟨⟨459, by decide +kernel⟩,
  ⟨base, 460, by decide +kernel⟩,
  ⟨inTract tSTOPPED (base.fset F.FLD_STATUS_STATE 1 0), 0, by decide +kernel⟩,
  ⟨base.fset F.FLD_STATUS_STATE 3 24, 24, by decide +kernel⟩⟩

/-- States that meet the premises of `Obligations.HostAccesses`, clause by clause. -/
theorem witness_HostAccesses :
    (∃ s : State, ∃ off : BitVec 41, ∃ n : Fin 4097, ∃ p : Packet, s.hostUp = true ∧ s.host.reqs = [] ∧ p ∉ s.flights.map (·.pkt) ∧ let a := s.bar2Addr off.toNat; let fits := fun (k : Nat) => 0 < k ∧ a % s.stackCut + k ≤ s.stackCut ∧ s.inStacks a k = true; s.host.d3hot = false ∧ s.windowsOpen = true ∧ fits n)
    ∧ (∃ s : State, ∃ off : BitVec 41, ∃ data : List Byte, ∃ p : Packet, s.hostUp = true ∧ s.host.reqs = [] ∧ p ∉ s.flights.map (·.pkt) ∧ let a := s.bar2Addr off.toNat; let fits := fun (k : Nat) => 0 < k ∧ a % s.stackCut + k ≤ s.stackCut ∧ s.inStacks a k = true; s.host.d3hot = false ∧ s.windowsOpen = true ∧ fits data.length)
    ∧ (∃ s : State, ∃ n : Fin 4097, ∃ p : Packet, s.hostUp = true ∧ s.host.reqs = [] ∧ p ∉ s.flights.map (·.pkt) ∧ 0 < n.val ∧ s.host.d3hot = false ∧ s.windowsOpen = false)
    ∧ (∃ s : State, ∃ n : Fin 4097, ∃ p : Packet, s.hostUp = true ∧ s.host.reqs = [] ∧ p ∉ s.flights.map (·.pkt) ∧ 0 < n.val ∧ s.host.d3hot = true)
    ∧ (∃ s : State, ∃ p : Packet, s.hostUp = true ∧ s.host.reqs = [] ∧ p ∉ s.flights.map (·.pkt) ∧ let o := p.addr - hostWindow; ∃ x, s.xlat o (p.lenm1 + 1) = some (x, false) ∧ p.wop = 0)
    ∧ (∃ s : State, ∃ p : Packet, s.hostUp = true ∧ s.host.reqs = [] ∧ p ∉ s.flights.map (·.pkt) ∧ let o := p.addr - hostWindow; ∃ x, s.xlat o (p.lenm1 + 1) = some (x, true))
    ∧ (∃ s : State, ∃ p : Packet, s.hostUp = true ∧ s.host.reqs = [] ∧ p ∉ s.flights.map (·.pkt) ∧ let o := p.addr - hostWindow; s.xlat o (p.lenm1 + 1) = none)
    ∧ (∃ s : State, ∃ p : Packet, s.hostUp = true ∧ s.host.reqs = [] ∧ p ∉ s.flights.map (·.pkt) ∧ let o := p.addr - hostWindow; ∃ x, ∃ ro, s.xlat o (p.lenm1 + 1) = some (x, ro))
    ∧ (∃ s : State, ∃ data : List Byte, ∃ p : Packet, s.hostUp = true ∧ s.host.reqs = [] ∧ p ∉ s.flights.map (·.pkt) ∧ ∃ r : DmaReq, s.host.dma = [r] ∧ r.pkt = some p ∧ r.got = [] ∧ r.poison = false ∧ data.length = r.n)
    ∧ (∃ s : State, ∃ p : Packet, s.hostUp = true ∧ s.host.reqs = [] ∧ p ∉ s.flights.map (·.pkt) ∧ ∃ k : Nat, 30 ≤ k ∧ k ≤ 41)
    ∧ (∃ s : State, ∃ p : Packet, s.hostUp = true ∧ s.host.reqs = [] ∧ p ∉ s.flights.map (·.pkt) ∧ s.host.msixPend = []) :=
  ⟨⟨base, 0, 256, hDma 1, by dsimp only; decide +kernel⟩,
  ⟨base, 255, [5], hDma 1, by dsimp only; decide +kernel⟩,
  ⟨base.fset F.MOD_STATUS_READY 0, 4096, hDma 1, by decide +kernel⟩,
  ⟨{ base with host := { base.host with d3hot := true } }, 1, hDma 1, by decide +kernel⟩,
  ⟨hTrans, hDma 1, by decide +kernel, by decide +kernel, by decide +kernel, 77 * 4096 + 4096, by decide +kernel⟩,
  ⟨hTrans.fset F.HOST_XLAT_CTRL_RO 1 0 3, hDma 1, by decide +kernel, by decide +kernel, by decide +kernel, 77 * 4096 + 4096, by decide +kernel⟩,
  ⟨base, hDma 1, by dsimp only; decide +kernel⟩,
  ⟨hTrans, hDma 2, by decide +kernel, by decide +kernel, by decide +kernel, 77 * 4096 + 4096, false, by decide +kernel⟩,
  ⟨{ base with host := { base.host with dma := [hReq] } }, pattern 1, hDma Packet.RD, by decide +kernel, by decide +kernel, by decide +kernel, hReq, by decide +kernel⟩,
  ⟨base, hDma 1, by decide +kernel, by decide +kernel, by decide +kernel, 41, by decide +kernel⟩,
  ⟨base, hDma 1, by decide +kernel⟩⟩

/-- States that meet the premises of `Obligations.IntakeFetches`, clause by clause. -/
theorem witness_IntakeFetches :
    (∃ s : State, ∃ r : Ring, ∃ k : BitVec 32, let base := s.ringEntry r k.toNat; s.hasRing r = true ∧ after32 k.toNat (s.fget F.HOST_IN_LAST_K 0 r) = true ∧ (∀ f ∈ s.host.fetches, f.ring ≠ r) ∧ ∃ a, ∃ ro, s.xlat base 64 = some (a, ro))
    ∧ (∃ s : State, ∃ r : Ring, ∃ k : BitVec 32, let base := s.ringEntry r k.toNat; ∃ f : Fetch, s.host.fetches = [f] ∧ f.ring = r ∧ f.k = k.toNat ∧ let len := leNat ((f.hdr.drop 8).take 4); let full := leNat (f.hdr.take 4) = 1 ∧ leNat ((f.hdr.drop 4).take 4) = f.k; f.stage = 5 ∧ f.bad = false ∧ full ∧ len + 64 ≤ s.ringEsize r ∧ 0 < len ∧ (base + 64) % 4096 + len ≤ 4096 ∧ ∃ a, ∃ ro, s.xlat (base + 64) len = some (a, ro))
    ∧ (∃ s : State, ∃ r : Ring, ∃ k : BitVec 32, ∃ f : Fetch, s.host.fetches = [f] ∧ f.ring = r ∧ f.k = k.toNat ∧ let full := leNat (f.hdr.take 4) = 1 ∧ leNat ((f.hdr.drop 4).take 4) = f.k; f.stage = 5 ∧ f.bad = false ∧ ¬ full)
    ∧ (∃ s : State, ∃ r : Ring, ∃ k : BitVec 32, let base := s.ringEntry r k.toNat; ∃ f : Fetch, s.host.fetches = [f] ∧ f.ring = r ∧ f.k = k.toNat ∧ f.stage = 1 ∧ f.readAt + 1000 ≤ s.fetchLimit f ∧ ∃ a, ∃ ro, s.xlat base 64 = some (a, ro))
    ∧ (∃ s : State, ∃ r : Ring, ∃ k : BitVec 32, ∃ f : Fetch, s.host.fetches = [f] ∧ f.ring = r ∧ f.k = k.toNat ∧ let dst := s.ringNat r 0x10 8 + f.k % s.ringNat r 0x18 4 * s.ringEsize r; f.stage = 1 ∧ f.hdr.length = 64 ∧ f.poison = [] ∧ s.stackCut = 256 ∧ dst % 64 = 0 ∧ ∃ d, ∃ mid, s.destOf dst 64 0 = some (d, mid))
    ∧ (∃ s : State, ∃ r : Ring, ∃ k : BitVec 32, ∃ f : Fetch, s.host.fetches = [f] ∧ f.ring = r ∧ f.k = k.toNat ∧ f.stage = 3 ∧ f.left = 0)
    ∧ (∃ s : State, ∃ r : Ring, ∃ k : BitVec 32, let base := s.ringEntry r k.toNat; ∃ a : Nat, ∃ ok : Bool, s.hasRing r = true ∧ after32 k.toNat (s.fget F.HOST_IN_MARK_K 0 r) = true ∧ after32 k.toNat (s.fget F.HOST_IN_LAST_K 0 r) = false ∧ s.host.held = [(r.val * 2 ^ 32 + k.toNat, ok)] ∧ s.xlat base 4 = some (a, false)) :=
  ⟨⟨hRing, 15, 0, by decide +kernel, by decide +kernel, by decide +kernel, ((hRing.xlat (hRing.ringEntry 15 0) 64).getD (0, false)).1, false, by decide +kernel⟩,
  ⟨hFetches 5 9, 15, 9, hFetch 5 9, by decide +kernel, by decide +kernel, by decide +kernel, by decide +kernel, by decide +kernel, by decide +kernel, by decide +kernel, by decide +kernel, by decide +kernel, ((hRing.xlat (hRing.ringEntry 15 9 + 64) 100).getD (0, false)).1, false, by decide +kernel⟩,
  ⟨hFetches 5 8, 15, 9, hFetch 5 8, by dsimp only; decide +kernel⟩,
  ⟨hFetches 1 9, 15, 9, hFetch 1 9, by decide +kernel, by decide +kernel, by decide +kernel, by decide +kernel, by decide +kernel, ((hRing.xlat (hRing.ringEntry 15 9) 64).getD (0, false)).1, false, by decide +kernel⟩,
  ⟨hFetches 1 9, 15, 9, hFetch 1 9, by decide +kernel, by decide +kernel, by decide +kernel, by decide +kernel, by decide +kernel, by decide +kernel, by decide +kernel, by decide +kernel, ((hRing.destOf (1023 * 2 ^ 54 + 0x10000 + 256) 64 0).getD (0, 0)).1, ((hRing.destOf (1023 * 2 ^ 54 + 0x10000 + 256) 64 0).getD (0, 0)).2, by decide +kernel⟩,
  ⟨hFetches 3 9, 15, 9, hFetch 3 9, by decide +kernel⟩,
  ⟨hHeld, 15, 9, ((hRing.xlat (hRing.ringEntry 15 9) 4).getD (0, false)).1, true, by decide +kernel⟩⟩

/-- States that meet the premises of `Obligations.JobsRun`, clause by clause. -/
theorem witness_JobsRun :
    (∃ s : State, ∃ j : JobId, s.hostReach .HOST = true ∧ s.jobOwner j ≠ 1)
    ∧ (∃ s : State, let jobs := s.host.jobs; s.flag F.HOST_CTRL_POLL_EN = true ∧ s.flag F.MOD_STATUS_READY = true ∧ s.slotsIdle = true ∧ jobs.cmds = [])
    ∧ (∃ s : State, ∃ j : JobId, let jobs := s.host.jobs; let waits := fun (cmd : Nat) => jobs.cmds = [{ j := j, cmd := cmd }]; let state := s.jobState j; waits 1 ∧ state ≠ 0 ∧ state ≠ 4)
    ∧ (∃ s : State, ∃ j : JobId, let jobs := s.host.jobs; let waits := fun (cmd : Nat) => jobs.cmds = [{ j := j, cmd := cmd }]; let state := s.jobState j; waits 1 ∧ state = 0 ∧ (∀ i : JobId, i ≠ j → s.jobState i = 0) ∧ s.jobForm j = false)
    ∧ (∃ s : State, ∃ j : JobId, ∃ table : Option (List Byte), let jobs := s.host.jobs; let waits := fun (cmd : Nat) => jobs.cmds = [{ j := j, cmd := cmd }]; let state := s.jobState j; waits 1 ∧ state = 0 ∧ (∀ i : JobId, i ≠ j → s.jobState i = 0) ∧ let zs := (s.jobOfShift j 0).zip s.freeSlots; let placed := ({ s with host := { s.host with jobs := { jobs with slots := [] } } } : State).jobPlace j zs; s.jobForm j = true ∧ s.jobShiftsOk j = true ∧ (s.jobOfShift j 0).length ≤ s.freeSlots.length ∧ placed.2 = none ∧ (∀ i, i < s.jobRings j → placed.1.jobRingOk j i = true) ∧ ∃ d, placed.1.jobPlacement j table = some d)
    ∧ (∃ s : State, ∃ j : JobId, ∃ u : Slot, ∃ k : Nat, let jobs := s.host.jobs; let waits := fun (cmd : Nat) => jobs.cmds = [{ j := j, cmd := cmd }]; let state := s.jobState j; let mine := jobs.slots = [(u.val, k + 1)]; waits 2 ∧ state = 1 ∧ mine ∧ s.tstate u = tLOADED ∧ s.fieldsActive u = true ∧ (s.tract u).rel = none ∧ s.pState = 0 ∧ s.pwr.move = none)
    ∧ (∃ s : State, ∃ j : JobId, ∃ u : Slot, ∃ k : Nat, let jobs := s.host.jobs; let waits := fun (cmd : Nat) => jobs.cmds = [{ j := j, cmd := cmd }]; let state := s.jobState j; let mine := jobs.slots = [(u.val, k + 1)]; waits 3 ∧ state = 2 ∧ mine ∧ s.tstate u = tRUNNING)
    ∧ (∃ s : State, ∃ j : JobId, ∃ u : Slot, ∃ k : Nat, let jobs := s.host.jobs; let waits := fun (cmd : Nat) => jobs.cmds = [{ j := j, cmd := cmd }]; let state := s.jobState j; let mine := jobs.slots = [(u.val, k + 1)]; waits 4 ∧ (state = 1 ∨ state = 3) ∧ mine ∧ (s.tstate u = tLOADED ∨ s.tstate u = tSTOPPED))
    ∧ (∃ s : State, ∃ j : JobId, let jobs := s.host.jobs; ∃ cmd, 1 ≤ cmd ∧ cmd ≤ 4 ∧ jobs.cmds = [{ j := j, cmd := cmd, acted := true }] ∧ (cmd = 3 → s.jobStill = true)) :=
  ⟨⟨base, 3, by decide +kernel⟩,
  ⟨jBase.fset F.HOST_CTRL_POLL_EN 1, by decide +kernel⟩,
  ⟨jIn 1 2 tRUNNING, 3, by decide +kernel⟩,
  ⟨jCmd 1 false jBase, 3, by decide +kernel⟩,
  ⟨jLoad, 3, none, by decide +kernel, by decide +kernel, by decide +kernel, by decide +kernel, by decide +kernel, by decide +kernel, by decide +kernel, by decide +kernel, jTable, by decide +kernel⟩,
  ⟨jIn 2 1 tLOADED, 3, 2, 7, by decide +kernel⟩,
  ⟨jIn 3 2 tRUNNING, 3, 2, 7, by decide +kernel⟩,
  ⟨jIn 4 3 tSTOPPED, 3, 2, 7, by decide +kernel⟩,
  ⟨jCmd 4 true jBase, 3, 4, by decide +kernel⟩⟩

/-- States that meet the premises of `Obligations.ManagementAnswers`, clause by clause. -/
theorem witness_ManagementAnswers :
    (∃ v8 : BitVec 8, v8 ≠ 0 ∧ v8 ≠ 0xFF)
    ∧ (∃ v8 : BitVec 8, (v8 = 0 ∨ v8 = 0xFF))
    ∧ (∃ v16 : BitVec 16, 1 ≤ v16.toNat ∧ v16.toNat ≤ 52)
    ∧ (∃ v16 : BitVec 16, v16.toNat = 100)
    ∧ (∃ v16 : BitVec 16, v16.toNat = 101)
    ∧ (∃ v16 : BitVec 16, (v16.toNat = 0 ∨ (52 < v16.toNat ∧ v16.toNat < 100) ∨ 101 < v16.toNat))
    ∧ (∃ s : State, ∃ d : Fin 2, s.updatable d = false)
    ∧ (∃ s : State, ∃ d : Fin 2, ∃ image : List Byte, let s1 : State := { s with boot := { s.boot with flash := mputs 0xFF s.boot.flash (d.val * 2 ^ 26) (image.take (2 ^ 26)) } }; s.updatable d = true ∧ (∃ e, s1.proveImage d false = .error e))
    ∧ (∃ s : State, ∃ d : Fin 2, let m := s.mgmt; d.val ∈ m.proven)
    ∧ (∃ s : State, ∃ d : Fin 2, let m := s.mgmt; d.val ∉ m.proven)
    ∧ (∃ v8 : BitVec 8, (v8 = 0x12 ∨ v8 = 0x13))
    ∧ (∃ v8 : BitVec 8, ∃ b : Bool, (b = false ∨ (v8 ≠ 0x12 ∧ v8 ≠ 0x13)))
    ∧ (∃ s : State, ∃ nonce8 : BitVec 8, let m := s.mgmt; m.spdm ≠ none ∧ (nonce8.toNat ≤ 9 ∨ nonce8.toNat = 255))
    ∧ (∃ s : State, s.flag F.MOD_STATUS_READY = true)
    ∧ (∃ v : BitVec 32, bits v.toNat 31 24 ≠ 0xA5)
    ∧ (∃ off : BitVec 27, let a := off.toNat; a % 4 ≠ 0)
    ∧ (∃ off : BitVec 27, let a := off.toNat; a % 4 = 0 ∧ mctpReach a = false)
    ∧ (∃ off : BitVec 27, let a := off.toNat; ∃ r, a % 4 = 0 ∧ mctpReach a = true ∧ regAt a = some r ∧ r.id.defn.wide = false) :=
  ⟨⟨9, by decide +kernel⟩,
  ⟨0xFF, by decide +kernel⟩,
  ⟨52, by decide +kernel⟩,
  ⟨100, by decide +kernel⟩,
  ⟨101, by decide +kernel⟩,
  ⟨102, by decide +kernel⟩,
  ⟨base, 0, by decide +kernel⟩,
  ⟨base, 1, [], by decide +kernel, ⟨(2, 0), by rfl⟩⟩,
  ⟨{ base with mgmt := { base.mgmt with proven := [1] } }, 1, by decide +kernel⟩,
  ⟨base, 1, by decide +kernel⟩,
  ⟨0x13, by decide +kernel⟩,
  ⟨0x14, false, by decide +kernel⟩,
  ⟨{ base with mgmt := { base.mgmt with spdm := some (0x12, true) } }, 9, by decide +kernel⟩,
  ⟨base, by decide +kernel⟩,
  ⟨0xA4000000, by decide +kernel⟩,
  ⟨2, by decide +kernel⟩,
  ⟨BitVec.ofNat 27 (RegId.MX_STATUS.addr 0 0 0), by decide +kernel⟩,
  ⟨0, ⟨.MOD_ID, 0, 0, 0⟩, by decide +kernel⟩⟩

/-- States that meet the premises of `Obligations.SecurityActs`, clause by clause. -/
theorem witness_SecurityActs :
    (∃ s : State, ∃ tok : Token, tokenForm tok 1 2 = true ∧ ∃ r, s.tokenBad false tok = some r)
    ∧ (∃ tok : Token, tokenForm tok 1 2 = false)
    ∧ (∃ s : State, ∃ tok : Token, let fuses := setBits (s.fget F.SEC_STATUS_REVOKED) tok.arg tok.arg 1; tokenForm tok 0 3 = true ∧ fuses = 15)
    ∧ (∃ s : State, ∃ tok : Token, tokenForm tok 0 3 = true ∧ ∃ r, s.tokenBad true tok = some r)
    ∧ (∃ s : State, ∃ setting : Fin 4, ∃ v : BitVec 32, let id := setting.val + 1; let f := rwnField id; let x := bits v.toNat (f.hi - f.lo) 0; s.rwnLegal id x = true ∧ x = s.fget f)
    ∧ (∃ s : State, ∃ setting : Fin 4, ∃ v : BitVec 32, let id := setting.val + 1; let f := rwnField id; let x := bits v.toNat (f.hi - f.lo) 0; s.rwnLegal id x = true ∧ x ≠ s.fget f ∧ s.fget (rwnLeft id) ≠ 0)
    ∧ (∃ s : State, ∃ setting : Fin 4, ∃ v : BitVec 32, let id := setting.val + 1; let f := rwnField id; let x := bits v.toNat (f.hi - f.lo) 0; s.rwnLegal id x = true ∧ x ≠ s.fget f ∧ s.fget (rwnLeft id) = 0 ∧ EvtRoom s)
    ∧ (∃ s : State, ∃ setting : Fin 4, ∃ v : BitVec 32, let id := setting.val + 1; let f := rwnField id; let x := bits v.toNat (f.hi - f.lo) 0; s.rwnLegal id x = false)
    ∧ (∃ s : State, ∃ setting : Fin 4, let m := s.mgmt; let id := setting.val + 1; ∃ y, ∃ more, m.rwn = (id, y) :: more) :=
  ⟨⟨locked4, token 2, by decide +kernel, 4, by decide +kernel⟩,
  ⟨token 3, by decide +kernel⟩,
  ⟨fused, token 3, by decide +kernel⟩,
  ⟨locked4, token 3, by decide +kernel, 4, by decide +kernel⟩,
  ⟨base, 0, BitVec.ofNat 32 (base.fget (rwnField 1)), by decide +kernel⟩,
  ⟨left 1, 0, 200, by decide +kernel⟩,
  ⟨left 0, 0, 200, by dsimp only [EvtRoom]; decide +kernel⟩,
  ⟨base, 0, 0, by decide +kernel⟩,
  ⟨{ base with mgmt := { base.mgmt with rwn := [(1, 9)] } }, 0, 9, [], by decide +kernel⟩⟩

/-- States that meet the premises of `Claim.IdleStepsPassTime`, a part of `Obligations.StepsTakeTheQueue`. -/
theorem witness_StepsTakeTheQueue_IdleStepsPassTime :
    (∃ s : State, s.pending = []) :=
  ⟨base, by decide +kernel⟩

/-! ### Premises that a signature must meet

Whether a signature verifies, and what a digest is, no proof can see (log entry 14): these states meet their premises for every
verification that accepts and every digest that stands where the image or OTP names it. -/

/-- A state whose OTP holds one digest in image slot 1 and in the debug slot. -/
def withKey : State := { base with mgmt := { base.mgmt with otp := [(1, Config.shake256 (zeros 1793)), (4, Config.shake256 (zeros 1793))] } }

theorem withKey_accepts (revoke : Bool) (arg : Nat) (ha : arg ≠ 1) (hn : Config.shake256 (zeros 1793) ≠ [])
    (hf : Config.falconOk (zeros 1793) (tokenBody (token arg)) (zeros 1280) = true) : withKey.tokenBad revoke (token arg) = none := by
  have h0 : withKey.flag F.SEC_STATUS_LOCKOUT = false := by decide +kernel
  have h1 : ¬ ((token arg).serial ≠ (withKey.rd .MOD_SERIAL).toNat ∨ (token arg).nonce ≠ (withKey.rd .SEC_DBG_NONCE).toNat) := by
    rw [not_or, not_not, not_not]; exact ⟨rfl, rfl⟩
  have h2 : withKey.tokenKey revoke (token arg).arg (token arg).pubkey = true := by
    have e1 : mget [] withKey.mgmt.otp 1 = Config.shake256 (zeros 1793) := rfl
    have e4 : mget [] withKey.mgmt.otp 4 = Config.shake256 (zeros 1793) := rfl
    unfold State.tokenKey
    cases revoke
    · show (mget [] withKey.mgmt.otp 4 == Config.shake256 (zeros 1793) && mget [] withKey.mgmt.otp 4 != []) = true
      rw [e4]; simp [hn]
    · refine List.any_eq_true.mpr ⟨1, by decide, ?_⟩
      show (1 != arg && !bit (withKey.fget F.SEC_STATUS_REVOKED) 1
        && (mget [] withKey.mgmt.otp 1 == Config.shake256 (zeros 1793) && mget [] withKey.mgmt.otp 1 != [])) = true
      have hb : bit (withKey.fget F.SEC_STATUS_REVOKED) 1 = false := by decide +kernel
      rw [e1, hb]; simp [hn, Ne.symm ha]
  unfold State.tokenBad
  rw [h0, if_neg Bool.false_ne_true, if_neg h1, h2]
  show (if !Config.falconOk (zeros 1793) (tokenBody (token arg)) (zeros 1280) then some 3 else none) = none
  rw [hf]; rfl

/-- Tokens that meet the premises of the clauses of SecurityActs about accepted tokens, but for the fuse count of the last. -/
theorem witness_SecurityActs_accepted (hn : Config.shake256 (zeros 1793) ≠ [])
    (hf : ∀ arg, Config.falconOk (zeros 1793) (tokenBody (token arg)) (zeros 1280) = true) :
    (tokenForm (token 2) 1 2 = true ∧ withKey.tokenBad false (token 2) = none)
    ∧ (tokenForm (token 3) 0 3 = true ∧ withKey.tokenBad true (token 3) = none
      ∧ setBits (withKey.fget F.SEC_STATUS_REVOKED) (token 3).arg (token 3).arg 1 ≠ 15) :=
  ⟨⟨by decide +kernel, withKey_accepts false 2 (by decide) hn (hf 2)⟩,
    by decide +kernel, withKey_accepts true 3 (by decide) hn (hf 3), by decide +kernel⟩

/-- Bytes of a list, 0xFF beyond its end. -/
def padTake : Nat → List Byte → List Byte
  | 0, _ => []
  | n + 1, [] => 0xFF :: padTake n []
  | n + 1, x :: l => x :: padTake n l

theorem mgets_padTake (l : List Byte) (n off : Nat) : mgets 0xFF (mputs 0xFF [] 0 l) off n = padTake n (l.drop off) := by
  induction n generalizing off with
  | zero => rfl
  | succ n ih =>
    rw [mgets, ih, mget_mputs]
    by_cases h : off < l.length
    · rw [if_pos ⟨Nat.zero_le _, by omega⟩, List.drop_eq_getElem_cons h, padTake, Nat.sub_zero,
        List.getD_eq_getElem?_getD, List.getElem?_eq_getElem h, Option.getD_some]
    · rw [if_neg (by omega), List.drop_eq_nil_of_le (by omega), List.drop_eq_nil_of_le (by omega), padTake]; rfl

/-- A section entry of an image. -/
def sectionEntry (typ off len : Nat) : List Byte := leBytes 4 typ ++ zeros 4 ++ leBytes 8 off ++ leBytes 8 len ++ zeros 8 ++ zeros 64

/-- The part of an image with the four sections that R456 asks for that is not zero. -/
def imageHead : List Byte :=
  leBytes 4 0x494B4557 ++ leBytes 2 1 ++ leBytes 2 4 ++ leBytes 8 0x6000 ++ zeros 48 ++ zeros 1824 ++ sectionEntry 1 0x2000 1
    ++ sectionEntry 2 0x3000 512 ++ sectionEntry 3 0x4000 512 ++ sectionEntry 4 0x5000 64

/-- A module in P1 that prefers flash device A, or B, runs the image of B, and holds some bytes in A and a digest of zeros in OTP. -/
def withImage (l : List Byte) (preferB : Bool := false) : State :=
  { ((base.fset F.RST_BOOT_STAGE 1).fset F.RST_BOOT_SLOT 1).fset F.RST_BOOT_PREFER (b2n preferB) with boot := { base.boot with flash := mputs 0xFF [] 0 l }, mgmt := { base.mgmt with otp := [(0, zeros 64)] } }

theorem padTake_zeros (n m : Nat) (h : n ≤ m) : padTake n (zeros m) = zeros n := by
  induction n generalizing m with
  | zero => rfl
  | succ n ih =>
    obtain ⟨k, rfl⟩ : ∃ k, m = k + 1 := ⟨m - 1, by omega⟩
    show padTake (n + 1) (List.replicate (k + 1) 0) = List.replicate (n + 1) 0
    rw [List.replicate_succ, List.replicate_succ, padTake]
    exact congrArg _ (ih k (by omega))

/-- The bytes of an image: those of its head, and then zeros. -/
theorem withImage_bytes (l : List Byte) (v : Bool) (m off n : Nat) : (withImage (l ++ zeros m) v).flashBytes 0 off n =
    if l.length ≤ off ∧ off + n ≤ l.length + m then zeros n else padTake n ((l ++ zeros m).drop off) := by
  unfold State.flashBytes
  rw [Nat.zero_mul, Nat.zero_add]
  refine (mgets_padTake (l ++ zeros m) n off).trans ?_
  by_cases h : l.length ≤ off ∧ off + n ≤ l.length + m
  · rw [if_pos h, List.drop_append, List.drop_eq_nil_of_le h.1, List.nil_append]
    show padTake n ((List.replicate m 0).drop (off - l.length)) = zeros n
    rw [List.drop_replicate]
    exact padTake_zeros _ _ (by omega)
  · rw [if_neg h]

theorem zeros_all (n : Nat) : (zeros n).all (· == 0) = true := by
  induction n with
  | zero => rfl
  | succ n ih => show (List.replicate (n + 1) (0 : Byte)).all (· == 0) = true; rw [List.replicate_succ, List.all_cons]; exact ih

theorem withImage_zero (l : List Byte) (v : Bool) (m off n : Nat) : (withImage (l ++ zeros m) v).flashZero 0 off n =
    if l.length ≤ off ∧ off + n ≤ l.length + m then true else (padTake n ((l ++ zeros m).drop off)).all (· == 0) := by
  unfold State.flashZero
  rw [withImage_bytes]
  by_cases h : l.length ≤ off ∧ off + n ≤ l.length + m
  · rw [if_pos h, if_pos h, zeros_all]
  · rw [if_neg h, if_neg h]

theorem imageHead_length : imageHead.length = 2272 := by decide +kernel

theorem image_header (v : Bool) (m : Nat) (hm : m = 0x4C00) : (withImage (imageHead ++ zeros m) v).imageHeaderOk 0 = true := by
  simp only [State.imageHeaderOk, State.flashNat, withImage_bytes, withImage_zero, imageHead_length]
  subst hm
  decide +kernel

theorem image_sections (v : Bool) (m : Nat) (hm : m = 0x4C00) : (withImage (imageHead ++ zeros m) v).sections 0 =
    [⟨1, 0, 0x2000, 1, 0, zeros 64⟩, ⟨2, 0, 0x3000, 512, 0, zeros 64⟩, ⟨3, 0, 0x4000, 512, 0, zeros 64⟩, ⟨4, 0, 0x5000, 64, 0, zeros 64⟩] := by
  have h4 : (withImage (imageHead ++ zeros m) v).flashNat 0 6 2 = 4 := by
    simp only [State.flashNat, withImage_bytes, imageHead_length]
    subst hm
    decide +kernel
  unfold State.sections
  rw [h4]
  simp only [List.range_succ, List.range_zero, List.nil_append, List.cons_append, List.map_cons, List.map_nil, State.sectionAt,
    State.flashNat, withImage_bytes, imageHead_length, List.cons.injEq, Section.mk.injEq, and_true]
  subst hm
  decide +kernel

theorem image_sectionsOk (v : Bool) (m : Nat) (hm : m = 0x4C00) : (withImage (imageHead ++ zeros m) v).sectionsOk 0 = true := by
  unfold State.sectionsOk
  rw [image_sections v m hm]
  simp only [State.flashNat, withImage_bytes, withImage_zero, imageHead_length]
  subst hm
  decide +kernel

/-- An image is proven if digests are those that it and OTP name and every signature verifies. -/
theorem image_proven (hh : ∀ l, Config.shake256 l = zeros 64) (hf : ∀ k b s, Config.falconOk k b s = true) (v : Bool) :
    ∃ k, (withImage (imageHead ++ zeros 0x4C00) v).proveImage 0 false = .ok k := by
  have hs : (withImage (imageHead ++ zeros 0x4C00) v).keySlot (zeros 64) = some 0 := by
    unfold State.keySlot withImage
    cases v <;> decide +kernel
  have hv : ¬ (withImage (imageHead ++ zeros 0x4C00) v).flashNat 0 0x10 4
      < (withImage (imageHead ++ zeros 0x4C00) v).fget F.SEC_SVN_FLOOR_FLOOR := by
    simp only [State.flashNat, withImage_bytes, imageHead_length]
    unfold withImage
    cases v <;> decide +kernel
  refine ⟨0, ?_⟩
  unfold State.proveImage
  simp only [image_header v _ rfl, image_sectionsOk v _ rfl, image_sections v _ rfl, hh, hf, hs, hv]
  decide +kernel

/-- An image that proves, in the preferred device and in the other one: the premises of two clauses of StartUpPhases. -/
theorem witness_StartUpPhases_image (hh : ∀ l, Config.shake256 l = zeros 64) (hf : ∀ k b s, Config.falconOk k b s = true) :
    (∃ s : State, (s.boot.pwrLow = false ∧ s.boot.uvlo = false ∧ s.boot.modRst = false) ∧ s.fget F.RST_BOOT_STAGE = 1
      ∧ s.fget F.RST_BOOT_PREFER = 0 ∧ ∃ k, s.proveImage 0 false = .ok k)
    ∧ ∃ s : State, (s.boot.pwrLow = false ∧ s.boot.uvlo = false ∧ s.boot.modRst = false) ∧ s.fget F.RST_BOOT_STAGE = 1
      ∧ s.fget F.RST_BOOT_PREFER = 1 ∧ (∃ e, s.proveImage 1 true = .error e) ∧ ∃ k, s.proveImage 0 false = .ok k :=
  ⟨⟨withImage (imageHead ++ zeros 0x4C00), ⟨rfl, rfl, rfl⟩, by unfold withImage; decide +kernel, by unfold withImage; decide +kernel,
      image_proven hh hf false⟩,
    withImage (imageHead ++ zeros 0x4C00) true, ⟨rfl, rfl, rfl⟩, by unfold withImage; decide +kernel, by unfold withImage; decide +kernel,
      ⟨(1, 0), rfl⟩, image_proven hh hf true⟩

/-- An update that writes an image that proves: the premises of a clause of ManagementAnswers. -/
theorem witness_ManagementAnswers_image (hh : ∀ l, Config.shake256 l = zeros 64) (hf : ∀ k b s, Config.falconOk k b s = true) :
    ∃ (s : State) (d : Fin 2) (image : List Byte), s.updatable d = true
      ∧ ∃ k, ({ s with boot := { s.boot with flash := mputs 0xFF s.boot.flash (d.val * 2 ^ 26) (image.take (2 ^ 26)) } } : State).proveImage d false
        = .ok k := by
  refine ⟨withImage [], 0, imageHead ++ zeros 0x4C00, by decide +kernel, ?_⟩
  have hl : (imageHead ++ zeros 0x4C00).length ≤ 2 ^ 26 := by
    rw [List.length_append, imageHead_length, zeros, List.length_replicate]; decide
  rw [List.take_of_length_le hl]
  exact image_proven hh hf false

/-- A memory state in canonical form, and a step from it. -/
theorem witness_StepsKeepMemoriesCanonical : ∃ t : State, MemOk base ∧ step base = .next t := ⟨_, by dsimp only [MemOk]; decide +kernel, rfl⟩

/-- A locked module, and a step of it. -/
theorem witness_LockHolds : ∃ t : State, (∀ e ∈ (base.fset F.MOD_CTRL_LOCK 1).boot.mapSaved, mapReg e.1 = true)
    ∧ step (base.fset F.MOD_CTRL_LOCK 1) = .next t ∧ (base.fset F.MOD_CTRL_LOCK 1).flag F.MOD_CTRL_LOCK = true :=
  ⟨_, by decide +kernel, rfl, by decide +kernel⟩

/-- The last byte of the last of 18,000 cores' counter 63, and the register that its address names. -/
theorem witness_RegisterMapIsExact : ((RegId.EP_ARRIVE.has 17999 63 0 = true ∧ 3 < RegId.EP_ARRIVE.size)
    ∧ (∃ r : RegRef, regAt (RegId.EP_ARRIVE.addr 17999 63 0 + 3) = some r)) :=
  ⟨by decide +kernel, ⟨.EP_ARRIVE, 17999, 63, 0⟩, by decide +kernel⟩

/-- A clock that advances WT; a monitor whose source is chosen already, and one whose source is not. -/
theorem witness_LogAndMonitors : 0 < base.clk.rate ∧ (base.fget F.MON_CTRL_SRC 0 15 = 0 ∧ base.fget F.MON_CTRL_SEL 0 15 = 0)
    ∧ ¬ (base.fget F.MON_CTRL_SRC 0 15 = 6 ∧ base.fget F.MON_CTRL_SEL 0 15 = 1023) := by decide +kernel

end Sys2Proof.Tests
end

section
/-! # The register map (R9, R46, R47)

Every register lies in the part of BAR0 that belongs to its block, its elements do not meet one another, and two registers of
a block hold no byte in common. These are facts about the rows of the table; with them an offset names one element. -/

namespace Sys2Proof.Machine

/-! ## Blocks -/

/-- First offset, and first offset beyond, of a block's part of one unit: one of the places that `Block.place` counts (R46, R47). -/
def Block.span : Block → Nat × Nat
  | .MOD => (0, 0x100000)
  | .RST => (0, 0x100)
  | .CLK => (0x100, 0x100000)
  | .PWR => (0, 0x200000)
  | .FLD => (0, 0x10000)
  | .HBMC => (0, 0x10000)
  | .BRIM => (0, 0x40000)
  | .RED => (0, 0x100000)
  | .STRM => (0, 0x100000)
  | .SCALE => (0, 0x40)
  | .TRACT => (0, 0x10000)
  | .HOST => (0, 0x400000)
  | .MGMT => (0, 0x200000)
  | .HLTH => (0, 0x200000)
  | .EP => (0, 0x200)
  | .MX => (0x200, 0x300)
  | .VX => (0x300, 0x400)
  | .SP => (0x400, 0x500)
  | .FB => (0x500, 0x600)
  | .STP => (0x600, 0x700)

/-- An offset within a block's part of one of its units names that block and unit. -/
theorem blockAt_of_span (b : Block) (i o : Nat) (hi : i < b.place.2.2) (hlo : b.span.1 ≤ o) (hhi : o < b.span.2) :
    blockAt (b.place.1 + i * b.place.2.1 + o) = some (b, i, o) := by
  cases b <;> simp only [Block.place, Block.span] at hi hlo hhi ⊢ <;> unfold blockAt <;>
    simp (disch := omega) only [if_pos, if_neg, Option.some.injEq, Prod.mk.injEq, true_and] <;> omega

/-- An offset lies in unit i of block b, at offset o of the unit. -/
def Block.Holds (a : Nat) (p : Block × Nat × Nat) : Prop :=
  p.2.1 < p.1.place.2.2 ∧ a = p.1.place.1 + p.2.1 * p.1.place.2.1 + p.2.2

theorem holds_of_ite {a : Nat} {c : Prop} [Decidable c] {x y : Block × Nat × Nat} {e : Option (Block × Nat × Nat)}
    (h : (if c then some x else e) = some y) (hx : c → Block.Holds a x) (he : ¬ c → e = some y → Block.Holds a y) :
    Block.Holds a y := by
  split at h
  · cases h; exact hx ‹c›
  · exact he ‹¬ c› h

/-- The block and unit that an offset names hold it. -/
theorem holds_of_blockAt (a : Nat) (p : Block × Nat × Nat) (h : blockAt a = some p) : Block.Holds a p := by
  unfold blockAt at h
  iterate 14
    refine holds_of_ite h (fun _ => ?_) fun _ h => ?_
    · simp only [Block.Holds, Block.place]; omega
  split at h
  · iterate 6
      refine holds_of_ite h (fun _ => ?_) fun _ h => ?_
      · simp only [Block.Holds, Block.place]; omega
    cases h
  · cases h

/-! ## Rows of the table -/

/-- Bytes from the beginning of a row of the second array dimension to its end. -/
def RegId.row (r : RegId) : Nat := (r.defn.n2 - 1) * r.defn.s2 + r.size

/-- First offset beyond a register's elements, in a unit of its block. -/
def RegId.stop (r : RegId) : Nat := r.defn.off + (r.defn.n1 - 1) * r.defn.s1 + r.row

/-- The elements of a register follow one another without meeting. -/
def RegId.Laid (r : RegId) : Prop :=
  (if r.defn.s1 = 0 then r.defn.n1 = 1 else r.row ≤ r.defn.s1) ∧ (if r.defn.s2 = 0 then r.defn.n2 = 1 else r.size ≤ r.defn.s2)

/-- A register lies in its block's part of a unit. -/
def RegId.Sits (r : RegId) : Prop := r.defn.blk.span.1 ≤ r.defn.off ∧ r.stop ≤ r.defn.blk.span.2

/-- Two registers hold no byte in common: one ends before the other begins, or they take turns in rows of one length. -/
def RegId.Apart (r t : RegId) : Prop :=
  r.stop ≤ t.defn.off ∨ t.stop ≤ r.defn.off ∨
    (r.defn.s1 = t.defn.s1 ∧ r.defn.off % r.defn.s1 + r.row ≤ r.defn.s1 ∧ t.defn.off % r.defn.s1 + t.row ≤ r.defn.s1 ∧
      (r.defn.off % r.defn.s1 + r.row ≤ t.defn.off % r.defn.s1 ∨ t.defn.off % r.defn.s1 + t.row ≤ r.defn.off % r.defn.s1))

/-- The lists of the blocks' registers leave none out. -/
theorem RegId.mem_regs (r : RegId) : r ∈ r.defn.blk.regs := by
  cases r <;> decide +kernel

/-- What holds of the registers of each block holds of every register. -/
theorem RegId.forall_of_blocks {P : RegId → Prop} (h : ∀ b : Block, ∀ r ∈ b.regs, P r) (r : RegId) : P r :=
  h _ r r.mem_regs

theorem RegId.laid : ∀ r : RegId, r.Laid :=
  RegId.forall_of_blocks fun b => by unfold RegId.Laid; cases b <;> decide +kernel

theorem RegId.sits : ∀ r : RegId, r.Sits :=
  RegId.forall_of_blocks fun b => by unfold RegId.Sits; cases b <;> decide +kernel

theorem Block.blk_of_mem (b : Block) : ∀ r ∈ b.regs, r.defn.blk = b := by
  cases b <;> decide +kernel

theorem Block.apart_of_mem (b : Block) : ∀ r ∈ b.regs, ∀ t ∈ b.regs, r = t ∨ r.Apart t := by
  unfold RegId.Apart
  cases b <;> decide +kernel

/-! ## The element that holds a byte -/

theorem RegId.has_iff (r : RegId) (i j k : Nat) : r.has i j k = true ↔
    i < (if r.defn.only0 then 1 else r.defn.blk.place.2.2) ∧ j < r.defn.n1 ∧ k < r.defn.n2 := by
  simp [RegId.has, and_assoc]

theorem Block.place_pos (b : Block) : 0 < b.place.2.2 := by cases b <;> decide

/-- A unit that holds a register is one of its block's. -/
theorem RegId.unit_lt (r : RegId) (i j k : Nat) (h : r.has i j k = true) :
    i < r.defn.blk.place.2.2 ∧ (r.defn.only0 = true → i = 0) := by
  have hp := r.defn.blk.place_pos
  obtain ⟨hi, -, -⟩ := (r.has_iff i j k).1 h
  split at hi <;> simp_all

/-- Index of the part of length n in which a byte lies: q parts of length n, and p bytes of one of them. -/
theorem part_of_byte (n c q p : Nat) (hn : if n = 0 then c = 1 else p < n) (hq : q < c) :
    (if n = 0 then 0 else (q * n + p) / n) = q := by
  split at hn
  · rename_i h0; rw [if_pos h0]; omega
  · rename_i h0
    rw [if_neg h0, Nat.add_comm, Nat.add_mul_div_right _ _ (Nat.pos_of_ne_zero h0), Nat.div_eq_of_lt hn, Nat.zero_add]

/-- A byte of a register's element is found in that element. -/
theorem RegId.hit_of_byte (r : RegId) (i j k n : Nat) (h : r.has i j k = true) (hn : n < r.size) :
    r.hit i (r.defn.off + j * r.defn.s1 + k * r.defn.s2 + n) = some ⟨r, i, j, k⟩ := by
  obtain ⟨-, hj, hk⟩ := (r.has_iff i j k).1 h
  have h0 := (r.unit_lt i j k h).2
  obtain ⟨l1, l2⟩ := r.laid
  have hrow : k * r.defn.s2 + n < r.row := by
    have := Nat.mul_le_mul_right r.defn.s2 (show k ≤ r.defn.n2 - 1 by omega)
    unfold RegId.row; omega
  have ej := part_of_byte r.defn.s1 r.defn.n1 j (k * r.defn.s2 + n) (by split at l1 <;> simp_all; omega) hj
  have ek := part_of_byte r.defn.s2 r.defn.n2 k n (by split at l2 <;> simp_all; omega) hk
  unfold RegId.hit
  rw [if_neg (by simp only [not_or, not_and]; exact ⟨by omega, fun ho => by simp [h0 ho]⟩)]
  simp only [show r.defn.off + j * r.defn.s1 + k * r.defn.s2 + n - r.defn.off = j * r.defn.s1 + (k * r.defn.s2 + n) by omega, ej,
    show j * r.defn.s1 + (k * r.defn.s2 + n) - j * r.defn.s1 = k * r.defn.s2 + n by omega, ek,
    show k * r.defn.s2 + n - k * r.defn.s2 = n by omega]
  exact if_pos ⟨hj, hk, hn⟩

/-- The element that is found for an offset holds its byte. -/
theorem RegId.byte_of_hit (r : RegId) (i o : Nat) (e : RegRef) (h : r.hit i o = some e) :
    e.id = r ∧ e.i = i ∧ (r.defn.only0 = true → i = 0) ∧ e.j < r.defn.n1 ∧ e.k < r.defn.n2
      ∧ r.defn.off + e.j * r.defn.s1 + e.k * r.defn.s2 ≤ o ∧ o < r.defn.off + e.j * r.defn.s1 + e.k * r.defn.s2 + r.size := by
  unfold RegId.hit at h
  extract_lets d o1 j o2 k at h
  split at h
  · cases h
  · rename_i hg
    split at h
    · rename_i hc
      obtain ⟨hj, hk, hn⟩ := hc
      cases h
      have h1 : j * d.s1 ≤ o1 := by
        unfold j; split
        · omega
        · exact Nat.div_mul_le_self _ _
      have h2 : k * d.s2 ≤ o2 := by
        unfold k; split
        · omega
        · exact Nat.div_mul_le_self _ _
      simp only [not_or, not_and, not_lt, ne_eq, not_not] at hg
      obtain ⟨ho, h0⟩ := hg
      refine ⟨rfl, rfl, h0, hj, hk, ?_, ?_⟩
      · change d.off + j * d.s1 + k * d.s2 ≤ o; omega
      · change o < d.off + j * d.s1 + k * d.s2 + r.size; omega
    · cases h

/-- A byte that a register holds lies between its first and its last one. -/
theorem RegId.extent_of_hit (r : RegId) (i o : Nat) (e : RegRef) (h : r.hit i o = some e) : r.defn.off ≤ o ∧ o < r.stop := by
  obtain ⟨-, -, -, hj, hk, hlo, hhi⟩ := r.byte_of_hit i o e h
  have h1 := Nat.mul_le_mul_right r.defn.s1 (show e.j ≤ r.defn.n1 - 1 by omega)
  have h2 := Nat.mul_le_mul_right r.defn.s2 (show e.k ≤ r.defn.n2 - 1 by omega)
  unfold RegId.stop RegId.row
  omega

/-- Where a byte that a register holds lies in the period of the register's rows. -/
theorem RegId.phase_of_hit (r : RegId) (i o : Nat) (e : RegRef) (h : r.hit i o = some e)
    (hr : r.defn.off % r.defn.s1 + r.row ≤ r.defn.s1) :
    r.defn.off % r.defn.s1 ≤ o % r.defn.s1 ∧ o % r.defn.s1 < r.defn.off % r.defn.s1 + r.row := by
  obtain ⟨-, -, -, -, hk, hlo, hhi⟩ := r.byte_of_hit i o e h
  have h2 := Nat.mul_le_mul_right r.defn.s2 (show e.k ≤ r.defn.n2 - 1 by omega)
  have hrow : o - (r.defn.off + e.j * r.defn.s1) < r.row := by unfold RegId.row; omega
  have ho : o = r.defn.off % r.defn.s1 + (o - (r.defn.off + e.j * r.defn.s1)) + r.defn.s1 * (r.defn.off / r.defn.s1 + e.j) := by
    have := Nat.mod_add_div r.defn.off r.defn.s1
    rw [Nat.mul_add, Nat.mul_comm _ e.j]; omega
  have hm : o % r.defn.s1 = r.defn.off % r.defn.s1 + (o - (r.defn.off + e.j * r.defn.s1)) := by
    conv_lhs => rw [ho]
    rw [Nat.add_mul_mod_self_left, Nat.mod_eq_of_lt (by omega)]
  omega

/-- One register of a block at most holds a byte. -/
theorem Block.hit_unique (b : Block) (r t : RegId) (i o : Nat) (e f : RegRef) (hr : r ∈ b.regs) (ht : t ∈ b.regs)
    (he : r.hit i o = some e) (hf : t.hit i o = some f) : r = t := by
  obtain h | h | h | ⟨hs, h1, h2, h3⟩ := b.apart_of_mem r hr t ht
  · exact h
  · have := r.extent_of_hit i o e he; have := t.extent_of_hit i o f hf; omega
  · have := r.extent_of_hit i o e he; have := t.extent_of_hit i o f hf; omega
  · have := r.phase_of_hit i o e he h1
    have := t.phase_of_hit i o f hf (by rw [← hs]; exact h2)
    rw [← hs] at this
    omega

/-- What a list finds where only one of its members finds something. -/
theorem findSome?_of_unique {α β : Type} {f : α → Option β} {l : List α} {x : α} {y : β} (hx : x ∈ l) (h : f x = some y)
    (hu : ∀ t ∈ l, ∀ z, f t = some z → t = x) : l.findSome? f = some y := by
  obtain ⟨z, hz⟩ := Option.isSome_iff_exists.1 (List.findSome?_isSome_iff.2 ⟨x, hx, Option.isSome_iff_exists.2 ⟨y, h⟩⟩)
  obtain ⟨t, ht, hf⟩ := List.exists_of_findSome?_eq_some hz
  rw [hz, ← hf, hu t ht z hf, h]

/-- A register's element is found at each of its offsets. -/
theorem regAt_addr (r : RegId) (i j k n : Nat) (h : r.has i j k = true) (hn : n < r.size) :
    regAt (r.addr i j k + n) = some ⟨r, i, j, k⟩ := by
  have hmem := r.mem_regs
  obtain ⟨hlo, hhi⟩ := r.sits
  have hit := r.hit_of_byte i j k n h hn
  have hx := r.extent_of_hit _ _ _ hit
  have hb := blockAt_of_span r.defn.blk i _ (r.unit_lt i j k h).1 (Nat.le_trans hlo hx.1) (Nat.lt_of_lt_of_le hx.2 hhi)
  have ha : r.addr i j k + n = r.defn.blk.place.1 + i * r.defn.blk.place.2.1
      + (r.defn.off + j * r.defn.s1 + k * r.defn.s2 + n) := by unfold RegId.addr; simp only; omega
  unfold regAt
  rw [ha, hb]
  dsimp only
  exact findSome?_of_unique hmem hit fun t ht f hf => r.defn.blk.hit_unique t r i _ f _ ht hmem hf hit

/-- The element that an offset names exists and holds the byte there. -/
theorem has_of_regAt (a : Nat) (r : RegRef) (h : regAt a = some r) :
    r.id.has r.i r.j r.k = true ∧ r.addr ≤ a ∧ a < r.addr + r.id.size := by
  unfold regAt at h
  split at h
  · cases h
  · rename_i b i o hb
    obtain ⟨t, ht, hit⟩ := List.exists_of_findSome?_eq_some h
    obtain ⟨hid, hi, h0, hj, hk, hlo, hhi⟩ := t.byte_of_hit i o r hit
    obtain ⟨hlt, ha⟩ := holds_of_blockAt a _ hb
    rw [← b.blk_of_mem t ht] at hlt ha
    subst hid hi
    refine ⟨(r.id.has_iff _ _ _).2 ⟨?_, hj, hk⟩, ?_, ?_⟩
    · split
      · simp_all
      · exact hlt
    · unfold RegRef.addr RegId.addr; simp only at ha ⊢; omega
    · unfold RegRef.addr RegId.addr; simp only at ha ⊢; omega

/-- Elements at one offset are one element. -/
theorem addr_injective (r t : RegId) (i j k i' j' k' : Nat) (hr : r.has i j k = true) (ht : t.has i' j' k' = true)
    (h : r.addr i j k = t.addr i' j' k') : (⟨r, i, j, k⟩ : RegRef) = ⟨t, i', j', k'⟩ := by
  have pos : ∀ u : RegId, 0 < u.size := fun u => by unfold RegId.size; split <;> omega
  have e1 := regAt_addr r i j k 0 hr (pos r)
  have e2 := regAt_addr t i' j' k' 0 ht (pos t)
  rw [h, e2] at e1
  exact (Option.some.inj e1).symm

/-- Settles O58: an element is found at its own bytes since no other register of its block holds them (`Block.hit_unique`), and what is
found holds the byte (`RegId.byte_of_hit`). -/
theorem registerMapIsExact : Obligations.RegisterMapIsExact :=
  ⟨regAt_addr, has_of_regAt⟩

end Sys2Proof.Machine
end

section
/-! # Writes of registers (R10, R12, R15 to R18, R23)

A register takes a write field by field, and its fields do not overlap; a write that an RWX register takes changes PRESET as
well, which is another register of the map. -/

namespace Sys2Proof.Machine

variable (s : State)

/-! ## One field -/

/-- Fields at different bits. -/
def FieldDef.Apart (f g : FieldDef) : Prop := f.hi < g.lo ∨ g.hi < f.lo

/-- A field of a register of at most 64 bits. -/
def FieldDef.Fits (f : FieldDef) : Prop := f.lo ≤ f.hi ∧ f.hi < 64

/-- What a field that holds o takes from n written to it, LOCK being as given, and the RWX fields open or not (R14 to R18). -/
def FieldDef.takes (f : FieldDef) (lock open_ : Bool) (o n : Nat) : Nat :=
  match f.acc with
  | .RW => if f.accepts n then n else o
  | .RWS => if f.accepts n then n else o
  | .RWL => if !lock && f.accepts n then n else o
  | .RWX => if open_ && f.accepts n then n else o
  | .W1C => o - (o &&& n)
  | .W1S => o ||| n
  | _ => o

theorem RegId.fields_apart : ∀ r : RegId, r.defn.fields.Pairwise FieldDef.Apart :=
  RegId.forall_of_blocks fun b => by unfold FieldDef.Apart; cases b <;> decide +kernel

theorem RegId.fields_fit : ∀ r : RegId, ∀ f ∈ r.defn.fields, f.Fits :=
  RegId.forall_of_blocks fun b => by unfold FieldDef.Fits; cases b <;> decide +kernel

/-- A write of a field replaces its bits or leaves the register as it was. -/
theorem FieldDef.merge_cases (f : FieldDef) (lock expert : Bool) (v old : Nat) :
    f.merge lock expert v old = old ∨ ∃ x, f.merge lock expert v old = setBits old f.hi f.lo x := by
  unfold FieldDef.merge
  simp only
  split
  · exact .inl rfl
  · split
    · exact .inr ⟨_, rfl⟩
    · exact .inr ⟨_, rfl⟩
    · split
      · exact .inr ⟨_, rfl⟩
      · exact .inl rfl

theorem FieldDef.merge_lt (f : FieldDef) (hf : f.Fits) (lock expert : Bool) (v old : Nat) (h : old < 2 ^ 64) :
    f.merge lock expert v old < 2 ^ 64 := by
  obtain e | ⟨x, e⟩ := f.merge_cases lock expert v old
  · rwa [e]
  · rw [e]; exact setBits_lt _ _ _ _ _ hf.1 hf.2 h

/-- A write of one field leaves another. -/
theorem FieldDef.bits_merge_apart (f g : FieldDef) (hf : f.Fits) (h : f.Apart g) (lock expert : Bool) (v old : Nat) :
    bits (f.merge lock expert v old) g.hi g.lo = bits old g.hi g.lo := by
  obtain e | ⟨x, e⟩ := f.merge_cases lock expert v old
  · rw [e]
  · rw [e, bits_setBits_ne _ _ _ _ _ _ hf.1 h.symm]

/-- What a field holds after it has been written. -/
theorem FieldDef.bits_merge_same (f : FieldDef) (hf : f.Fits) (lock expert : Bool) (v old : Nat) :
    bits (f.merge lock expert v old) f.hi f.lo = f.takes lock (expert && !lock) (bits old f.hi f.lo) (bits v f.hi f.lo) := by
  have set : ∀ x, x < 2 ^ (f.hi + 1 - f.lo) → bits (setBits old f.hi f.lo x) f.hi f.lo = x := fun x hx => by
    rw [bits_setBits_same _ _ _ _ hf.1, Nat.mod_eq_of_lt hx]
  have ho := bits_lt old f.hi f.lo
  have hn := bits_lt v f.hi f.lo
  have keep : ∀ c : Bool, bits (if c then setBits old f.hi f.lo (bits v f.hi f.lo) else old) f.hi f.lo
      = if c then bits v f.hi f.lo else bits old f.hi f.lo := fun c => by cases c <;> simp [set _ hn]
  unfold FieldDef.merge FieldDef.takes
  cases f.acc <;> simp only [Access.writable]
  case W1C => exact set _ (Nat.lt_of_le_of_lt (Nat.sub_le _ _) ho)
  case W1S => exact set _ (Nat.or_lt_two_pow ho hn)
  case RWL => cases lock <;> simp [keep]
  case RWX => cases lock <;> cases expert <;> simp [keep]
  all_goals simp [keep]

/-! ## All fields of a register -/

theorem foldl_merge_lt (l : List FieldDef) (hl : ∀ f ∈ l, f.Fits) (lock expert : Bool) (v old : Nat) (h : old < 2 ^ 64) :
    l.foldl (FieldDef.merge lock expert v) old < 2 ^ 64 := by
  induction l generalizing old with
  | nil => exact h
  | cons f l ih => exact ih (fun g hg => hl g (.tail _ hg)) _ (f.merge_lt (hl f (.head _)) _ _ _ _ h)

theorem bits_foldl_merge_apart (g : FieldDef) (l : List FieldDef) (hl : ∀ f ∈ l, f.Fits ∧ f.Apart g) (lock expert : Bool)
    (v old : Nat) : bits (l.foldl (FieldDef.merge lock expert v) old) g.hi g.lo = bits old g.hi g.lo := by
  induction l generalizing old with
  | nil => rfl
  | cons f l ih =>
    obtain ⟨hf, ha⟩ := hl f (.head _)
    rw [List.foldl_cons, ih (fun g hg => hl g (.tail _ hg)), f.bits_merge_apart g hf ha]

/-- Each field of a list of fields that do not overlap takes its own part of a write. -/
theorem bits_foldl_merge (g : FieldDef) (l : List FieldDef) (hg : g ∈ l) (hl : ∀ f ∈ l, f.Fits) (hp : l.Pairwise FieldDef.Apart)
    (lock expert : Bool) (v old : Nat) : bits (l.foldl (FieldDef.merge lock expert v) old) g.hi g.lo
      = g.takes lock (expert && !lock) (bits old g.hi g.lo) (bits v g.hi g.lo) := by
  induction l generalizing old with
  | nil => cases hg
  | cons f l ih =>
    obtain ⟨hfl, hp⟩ := List.pairwise_cons.1 hp
    have hf := hl f (.head _)
    have ht := fun f hf => hl f (List.Mem.tail _ hf)
    rw [List.foldl_cons]
    obtain rfl | hg := List.mem_cons.1 hg
    · rw [bits_foldl_merge_apart g l (fun f h => ⟨ht f h, (hfl f h).symm⟩), g.bits_merge_same hf]
    · rw [ih hg ht hp, f.bits_merge_apart g hf (hfl g hg)]

/-- What each field of a register takes from a write of the register. -/
theorem State.bits_merged (r : RegRef) (v : Nat) (f : FieldDef) (hf : f ∈ r.id.defn.fields) :
    bits (s.merged r v) f.hi f.lo
      = f.takes s.locked (s.expert && !s.locked) (bits (s.rd r.id r.i r.j r.k).toNat f.hi f.lo) (bits v f.hi f.lo) :=
  bits_foldl_merge f _ hf r.id.fields_fit r.id.fields_apart _ _ _ _

theorem State.merged_lt (r : RegRef) (v : Nat) : s.merged r v < 2 ^ 64 :=
  foldl_merge_lt _ r.id.fields_fit _ _ _ _ (BitVec.isLt _)

/-! ## Registers that are written by their access codes alone -/

/-- Nothing but registers differs. -/
def SameButRegs (s t : State) : Prop := { t with regs := s.regs } = s

theorem SameButRegs.refl : SameButRegs s s := rfl

theorem SameButRegs.wr {s t : State} (h : SameButRegs s t) (r : RegId) (v : Word64) (i j k : Nat) :
    SameButRegs s (t.wr r v i j k) := h

theorem SameButRegs.fset {s t : State} (h : SameButRegs s t) (f : Fld) (v i j k : Nat) : SameButRegs s (t.fset f v i j k) :=
  h.wr f.reg _ i j k

/-- The PRESET field of a block (R21). -/
abbrev Block.preset (b : Block) : Fld := ⟨b.profile, 3, 0⟩

/-- A core's block has a _PROFILE register for each core, and each other block has one (R21, R46). -/
theorem Block.profile_row (b : Block) : 0 < b.profile.defn.n1 ∧ 0 < b.profile.defn.n2
    ∧ if coreBlock b || b == .FB then b.profile.defn.only0 = false ∧ b.profile.defn.blk = b
      else b.profile.defn.only0 = true ∨ b.profile.defn.blk.place.2.2 = 1 := by
  cases b <;> decide +kernel

theorem Block.profile_has (b : Block) (i : Nat) (h : i < b.place.2.2) : b.profile.has (profileInstance b i) 0 0 = true := by
  obtain ⟨h1, h2, hc⟩ := b.profile_row
  refine (RegId.has_iff _ _ _ _).2 ⟨?_, h1, h2⟩
  unfold profileInstance
  split
  · rename_i hb
    rw [if_pos hb] at hc
    obtain ⟨ho, hblk⟩ := hc
    rw [ho, hblk]; exact h
  · have := b.profile.defn.blk.place_pos
    split <;> omega

/-- The _PROFILE register of a block is another register than one that is not named so. -/
theorem RegId.addr_ne_profile (r : RegId) (i j k : Nat) (h : r.has i j k = true) (hr : r ≠ r.defn.blk.profile) :
    r.addr i j k ≠ r.defn.blk.profile.addr (profileInstance r.defn.blk i) 0 0 := fun e =>
  hr (congrArg RegRef.id (addr_injective _ _ _ _ _ _ _ _ h (r.defn.blk.profile_has i (r.unit_lt i j k h).1) e))

theorem State.rd_setPreset_ne (b : Block) (n p : Nat) (r : RegId) (i j k : Nat)
    (h : r.addr i j k ≠ b.profile.addr (profileInstance b n) 0 0) : (s.setPreset b n p).rd r i j k = s.rd r i j k :=
  s.rd_fset_ne b.preset r p _ 0 0 i j k h

theorem State.preset_setPreset (b : Block) (n p : Nat) (h : p < 16) :
    (s.setPreset b n p).fget b.preset (profileInstance b n) = p :=
  (s.fget_fset_same b.preset p _ 0 0 (Nat.zero_le 3) (show 3 < 64 by decide)).trans (Nat.mod_eq_of_lt h)

theorem State.setPreset_regsKept (b : Block) (n p : Nat) (l : List Nat) (h : b.profile.addr (profileInstance b n) 0 0 ∈ l) :
    RegsKept s (s.setPreset b n p) l := s.fset_regsKept b.preset p _ 0 0 l h

/-- All that a store of a register does: the register, and PRESET where an RWX register is open. -/
theorem State.regStore_onlyRegs (r : RegRef) (v : Nat) :
    OnlyRegs [r.addr, r.id.defn.blk.profile.addr (profileInstance r.id.defn.blk r.i) 0 0] s (s.regStore r v) := by
  have hr : RegsKept s (s.wr r.id (BitVec.ofNat 64 (s.merged r v)) r.i r.j r.k)
      [r.addr, r.id.defn.blk.profile.addr (profileInstance r.id.defn.blk r.i) 0 0] := s.wr_regsKept _ _ _ _ _ _ (.head _)
  have hs := (SameButRegs.refl s).wr r.id (BitVec.ofNat 64 (s.merged r v)) r.i r.j r.k
  unfold State.regStore
  simp only
  generalize s.wr r.id (BitVec.ofNat 64 (s.merged r v)) r.i r.j r.k = u at hr hs ⊢
  split
  · exact ⟨hr.trans (u.setPreset_regsKept _ _ _ _ (.tail _ (.head _))), hs.fset _ _ _ _ _⟩
  · exact ⟨hr, hs⟩

/-- What the register reads after a store. -/
theorem State.rd_regStore_same (r : RegRef) (v : Nat) (h : r.id.has r.i r.j r.k = true) (hr : r.id ≠ r.id.defn.blk.profile) :
    ((s.regStore r v).rd r.id r.i r.j r.k).toNat = s.merged r v := by
  have hv : (BitVec.ofNat 64 (s.merged r v)).toNat = s.merged r v := by
    rw [BitVec.toNat_ofNat, Nat.mod_eq_of_lt (s.merged_lt r v)]
  unfold State.regStore
  simp only
  split
  · rw [State.rd_setPreset_ne _ _ _ _ _ _ _ _ (r.id.addr_ne_profile r.i r.j r.k h hr), State.rd_wr_same, hv]
  · rw [State.rd_wr_same, hv]

/-- A store of an RWX register that is open makes PRESET CUSTOM (R23). -/
theorem State.preset_regStore (r : RegRef) (v : Nat) (h : r.id.hasRWX = true) (ho : (s.expert && !s.locked) = true) :
    (s.regStore r v).fget r.id.defn.blk.preset (profileInstance r.id.defn.blk r.i) = 0xF := by
  unfold State.regStore
  simp only
  rw [if_pos (by rw [Bool.and_assoc, h, ho]; rfl)]
  exact State.preset_setPreset _ _ _ _ (by decide)

/-- Registers whose write does no more than their access codes say. -/
def plainRegs : List RegId :=
  [.MOD_CTRL, .MOD_MODULE_ID, .RST_CTRL, .CLK_STATUS, .PWR_GOV, .THERM_CFG, .HBMC_SCRUB, .HBMC_MAPOUT_THR, .BRIM_CFG, .BRIM_ARB,
    .RED_VFY, .HOST_CTRL, .HLTH_CFG, .MX_CHECK, .FB_MERGE, .HOST_XLAT_BASE]

theorem ne_profile_of_plain : ∀ r ∈ plainRegs, r ≠ r.defn.blk.profile := by decide +kernel

theorem State.regWrite_plain (path : CmdPath) (r : RegRef) (v : Nat) (h : r.id ∈ plainRegs) :
    s.regWrite path r v = s.regStore r v := by
  unfold State.regWrite
  rw [if_neg (ne_profile_of_plain r.id h)]
  obtain ⟨id, i, j, k⟩ := r
  simp only [plainRegs, List.mem_cons, List.not_mem_nil, or_false] at h
  rcases h with rfl | rfl | rfl | rfl | rfl | rfl | rfl | rfl | rfl | rfl | rfl | rfl | rfl | rfl | rfl | rfl <;> rfl

/-! ## The host's writes -/

theorem State.busWrite_denied (wide : Bool) (a v : Nat) (h : s.hostMay a = false) : s.busWrite true wide a v = s := by
  simp [State.busWrite, h]

/-- The host's write of four bytes of a 32-bit register that it reaches. -/
theorem State.busWrite_narrow (a v : Nat) (r : RegRef) (h : s.hostMay a = true) (hr : regAt a = some r) (hw : r.id.defn.wide = false) :
    s.busWrite true false a v = s.regWrite .bar0 r v := by
  simp [State.busWrite, h, State.writeWord, hr, hw]

/-- The host's write of the eight bytes of a 64-bit register that it reaches. -/
theorem State.busWrite_wide (a v : Nat) (r : RegRef) (h : s.hostMay a = true) (hr : regAt a = some r) (hw : r.id.defn.wide = true) :
    s.busWrite true true a v = s.regWrite .bar0 r v := by
  simp [State.busWrite, h, State.writeWide, hr, hw]

/-- A write of one half of a lane is a write of four bytes. -/
theorem exec_registerWrite_half (lane : BitVec 24) (high : Bool) (data : BitVec 64) :
    exec (.registerWrite lane (if high then 0xF0 else 0x0F) data true) s
      = .next (s.busWrite true false (8 * lane.toNat + (if high then 4 else 0))
          (if high then data.toNat / 2 ^ 32 else data.toNat % 2 ^ 32)) := by
  cases high <;> rfl

theorem exec_registerWrite_wide (lane : BitVec 24) (data : BitVec 64) :
    exec (.registerWrite lane 0xFF data true) s = .next (s.busWrite true true (8 * lane.toNat) data.toNat) := rfl

/-- Other byte enables have no effect (R10). -/
theorem exec_registerWrite_other (lane : BitVec 24) (be : BitVec 8) (data : BitVec 64) (h : be ≠ 0xFF) (hl : be ≠ 0x0F) (hh : be ≠ 0xF0) :
    exec (.registerWrite lane be data true) s = .next s := by
  show execRegisterWrite lane be data true s = _
  unfold execRegisterWrite
  rw [if_neg h, if_neg hl, if_neg hh]

theorem registerFieldsAreWritten : Claim.RegisterFieldsAreWritten := by
  intro s lane high be data a v word lock open_
  refine ⟨fun r hr hw hm hid => ⟨_, exec_registerWrite_half s lane high data, ?_⟩,
    fun h hl hh => ⟨_, exec_registerWrite_other s lane be data h hl hh, rfl⟩,
    fun hm => ⟨_, exec_registerWrite_half s lane high data, s.busWrite_denied _ _ _ hm⟩, ⟨_, rfl, ?_, ?_, rfl⟩⟩
  · have hp : r.id ∈ plainRegs := by revert hid; generalize r.id = x; revert x; decide +kernel
    rw [s.busWrite_narrow _ _ r hm hr hw, s.regWrite_plain _ r _ hp]
    refine ⟨fun fld hf => ?_, fun hx ho => ?_, s.regStore_onlyRegs r _⟩
    · simp only [s.rd_regStore_same r _ (has_of_regAt _ r hr).1 (ne_profile_of_plain _ hp), s.bits_merged r _ fld hf]
      unfold FieldDef.takes
      rfl
    · exact s.preset_regStore r _ hx ho
  · rw [State.flag, State.fget_fset_same _ _ _ _ _ _ (by decide) (by decide)]; rfl
  · exact s.fset_regsKept _ _ _ _ _ _ (.head _)

end Sys2Proof.Machine
end

section
/-! # Presets (R21 to R23, R115, R200, R262, R405, R490) -/

namespace Sys2Proof.Machine

variable (s : State)

/-! ## Registers of a unit of a block -/

theorem Block.span_le (b : Block) : b.span.2 ≤ b.place.2.1 := by cases b <;> decide

/-- Registers at different offsets of a unit, or in different units of a block, have different offsets in BAR0. -/
theorem RegId.addr_ne (r t : RegId) (i u : Nat) (hp : r.defn.blk.place = t.defn.blk.place) (h : r.defn.off ≠ t.defn.off ∨ i ≠ u) :
    r.addr i 0 0 ≠ t.addr u 0 0 := by
  have off_lt : ∀ x : RegId, x.defn.off < x.defn.blk.place.2.1 := fun x => by
    obtain ⟨-, hx⟩ := x.sits
    have hs : 0 < x.size := by unfold RegId.size; split <;> omega
    have := x.defn.blk.span_le
    unfold RegId.stop RegId.row at hx
    omega
  have hr := off_lt r
  have ht := off_lt t
  unfold RegId.addr
  simp only [Nat.zero_mul, Nat.add_zero, hp] at hr ⊢
  intro e
  have e : i * t.defn.blk.place.2.1 + r.defn.off = u * t.defn.blk.place.2.1 + t.defn.off := by omega
  have hm := congrArg (· % t.defn.blk.place.2.1) e
  have hd := congrArg (· / t.defn.blk.place.2.1) e
  have hpos : 0 < t.defn.blk.place.2.1 := by omega
  simp only [Nat.mul_add_mod_self_right, Nat.mod_eq_of_lt hr, Nat.mod_eq_of_lt ht] at hm
  simp only [Nat.mul_comm _ t.defn.blk.place.2.1, Nat.mul_add_div hpos, Nat.div_eq_of_lt hr, Nat.div_eq_of_lt ht, Nat.add_zero] at hd
  omega

/-- A field that is set leaves those of other registers of its block. -/
theorem State.fget_fset_reg (f g : Fld) (v i u : Nat) (hp : g.reg.defn.blk.place = f.reg.defn.blk.place)
    (h : g.reg.defn.off ≠ f.reg.defn.off) : (s.fset f v i).fget g u = s.fget g u :=
  s.fget_fset_ne f g v i 0 0 u 0 0 (g.reg.addr_ne f.reg u i hp (.inl h))

/-- A field that is set leaves those of other units of its block. -/
theorem State.fget_fset_inst (f g : Fld) (v i u : Nat) (hp : g.reg.defn.blk.place = f.reg.defn.blk.place)
    (h : u ≠ i) : (s.fset f v i).fget g u = s.fget g u :=
  s.fget_fset_ne f g v i 0 0 u 0 0 (g.reg.addr_ne f.reg u i hp (.inr h))

/-- A field that is set leaves the others of its register. -/
theorem State.fget_fset_beside (f g : Fld) (v i : Nat) (hr : g.reg = f.reg)
    (h : f.lo ≤ f.hi ∧ f.hi < 64 ∧ (g.hi < f.lo ∨ f.hi < g.lo)) : (s.fset f v i).fget g i = s.fget g i :=
  s.fget_fset_field f g v i 0 0 hr h.1 h.2.1 h.2.2

/-- A write of PRESET leaves the other registers of the block. -/
theorem State.rd_setPreset_reg (b : Block) (n p : Nat) (r : RegId) (u : Nat) (hp : r.defn.blk.place = b.profile.defn.blk.place)
    (h : r.defn.off ≠ b.profile.defn.off) : (s.setPreset b n p).rd r u = s.rd r u :=
  s.rd_setPreset_ne b n p r u 0 0 (r.addr_ne b.profile u _ hp (.inl h))

/-- A write of PRESET leaves the fields of the other registers of the block. -/
theorem State.fget_setPreset_reg (b : Block) (n p : Nat) (g : Fld) (u : Nat) (hp : g.reg.defn.blk.place = b.profile.defn.blk.place)
    (h : g.reg.defn.off ≠ b.profile.defn.off) : (s.setPreset b n p).fget g u = s.fget g u :=
  s.fget_fset_reg b.preset g p _ u hp h

/-! ## Folds over units -/

/-- What the step at u of a fold brings about, and every step keeps, holds after a fold that meets u. -/
theorem foldl_reaches {α β : Type} (P : β → Prop) (f : β → α → β) (u : α) (hu : ∀ b, P (f b u)) (hk : ∀ b a, P b → P (f b a))
    (l : List α) (h : u ∈ l) (b : β) : P (l.foldl f b) := by
  induction l generalizing b with
  | nil => cases h
  | cons a l ih =>
    obtain rfl | h := List.mem_cons.1 h
    · exact foldl_keeps P f hk l _ (hu b)
    · exact ih h _

/-! ## The write of PRESET -/

/-- An element of a _PROFILE register is the one unit of its block's, or its core's own (R21, R46). -/
theorem profileInstance_of_has (b : Block) (i j k : Nat) (h : b.profile.has i j k = true) : profileInstance b i = i := by
  obtain ⟨-, -, hc⟩ := b.profile_row
  obtain ⟨hi, h0⟩ := b.profile.unit_lt i j k h
  unfold profileInstance
  split
  · rfl
  · rename_i hb
    rw [if_neg hb] at hc
    obtain ho | h1 := hc
    · exact (h0 ho).symm
    · omega

/-- What a write of PRESET does: nothing while LOCK is 1 or the preset is undefined, else the load of the preset (R22, R23). -/
theorem exec_profilePresetWrite (off : BitVec 27) (p : Fin 16) (r : RegRef) (h : regAt off.toNat = some r)
    (hr : r.id = r.id.defn.blk.profile) :
    exec (.profilePresetWrite off p) s = .next (s.presetWrite r.id.defn.blk r.i p) := by
  show execProfilePresetWrite off p s = _
  unfold execProfilePresetWrite
  rw [h]
  exact congrArg _ (if_pos hr)

theorem State.presetWrite_refused (b : Block) (i p : Nat) (h : s.flag F.MOD_CTRL_LOCK = true ∨ s.presetLoad b i p = none) :
    s.presetWrite b i p = s := by
  unfold State.presetWrite State.locked
  obtain h | h := h
  · rw [if_pos h]
  · split
    · rfl
    · rw [h]

theorem State.presetWrite_loaded (b : Block) (i p : Nat) (u : State) (h : s.flag F.MOD_CTRL_LOCK = false)
    (hu : s.presetLoad b i p = some u) : s.presetWrite b i p = u.setPreset b i p := by
  unfold State.presetWrite State.locked
  rw [h, hu]
  rfl

/-! ## What each preset loads -/

theorem State.presetLoad_MX (i p : Nat) (h : p ≤ 3) :
    s.presetLoad .MX i p = some (s.wr .MX_CHECK (BitVec.ofNat 64 ([94, 98, 88, 30].getD p 0)) i) := by
  interval_cases p <;> rfl

theorem State.presetLoad_FB (i p : Nat) (h : p ≤ 1) : s.presetLoad .FB i p = some (s.fset F.FB_MERGE_MERGE_EN (1 - p) i) := by
  interval_cases p <;> rfl

theorem State.presetLoad_TRACT (i p : Nat) (h : p ≤ 2) : s.presetLoad .TRACT i p
    = some (s.tractPreset ([0, 1024, 0].getD p 0) ([1000, 10000, 100].getD p 0) ([250, 2000, 25].getD p 0)) := by
  interval_cases p <;> rfl

theorem State.presetLoad_RED (i p : Nat) (h : p ≤ 3) :
    s.presetLoad .RED i p = some (s.redPreset ([1, 1, 1, 0].getD p 0) ([12, 8, 16, 12].getD p 0)) := by
  interval_cases p <;> rfl

theorem State.presetLoad_PWR (i p : Nat) (h : p ≤ 2) : s.presetLoad .PWR i p
    = some (s.pwrPreset ([5, 10, 5].getD p 0) ([10, 100, 10].getD p 0) ([10, 10, 15].getD p 0) ([1, 1, 10].getD p 0)) := by
  interval_cases p <;> rfl

/-- The step of the TRACT presets for one slot. -/
def State.tractPresetStep (extra tag bar : Nat) (s : State) (t : Nat) : State :=
  ((s.fset F.TRACT_BAR_SLACK_EXTRA extra t).fset F.TRACT_TAG_TIMEOUT_US tag t).fset F.TRACT_BAR_TIMEOUT_MS bar t

theorem State.tractPreset_eq (extra tag bar : Nat) :
    s.tractPreset extra tag bar = (List.range 16).foldl (State.tractPresetStep extra tag bar) s := rfl

/-- The fields of slot u that the TRACT presets load hold the values given. -/
def TractTimes (extra tag bar u : Nat) (s : State) : Prop :=
  s.fget F.TRACT_BAR_SLACK_EXTRA u = extra ∧ s.fget F.TRACT_TAG_TIMEOUT_US u = tag ∧ s.fget F.TRACT_BAR_TIMEOUT_MS u = bar

/-- One step loads its own slot. -/
theorem State.tractPresetStep_same (extra tag bar u : Nat) (he : extra < 2 ^ 14) (ht : tag < 2 ^ 24) (hb : bar < 2 ^ 16) :
    TractTimes extra tag bar u (s.tractPresetStep extra tag bar u) := by
  unfold State.tractPresetStep TractTimes
  simp (disch := decide) only [State.fget_fset_reg, State.fget_fset_same]
  exact ⟨Nat.mod_eq_of_lt he, Nat.mod_eq_of_lt ht, Nat.mod_eq_of_lt hb⟩

/-- One step leaves another slot. -/
theorem State.tractPresetStep_ne (extra tag bar i u : Nat) (hu : u ≠ i) (g : Fld) (hg : g.reg.defn.blk = .TRACT) :
    (s.tractPresetStep extra tag bar i).fget g u = s.fget g u := by
  have hp : g.reg.defn.blk.place = Block.TRACT.place := congrArg _ hg
  exact ((State.fget_fset_inst _ F.TRACT_BAR_TIMEOUT_MS g bar i u hp hu).trans
    (State.fget_fset_inst _ F.TRACT_TAG_TIMEOUT_US g tag i u hp hu)).trans (s.fget_fset_inst F.TRACT_BAR_SLACK_EXTRA g extra i u hp hu)

/-- The TRACT presets load the fields of every slot (R200). -/
theorem State.tractPreset_times (extra tag bar u : Nat) (he : extra < 2 ^ 14) (ht : tag < 2 ^ 24) (hb : bar < 2 ^ 16) (hu : u < 16) :
    TractTimes extra tag bar u (s.tractPreset extra tag bar) := by
  rw [State.tractPreset_eq]
  refine foldl_reaches _ _ u (fun b => b.tractPresetStep_same _ _ _ _ he ht hb) (fun b a h => ?_) _ (List.mem_range.2 hu) s
  by_cases hua : u = a
  · rw [← hua]; exact b.tractPresetStep_same _ _ _ _ he ht hb
  · obtain ⟨h1, h2, h3⟩ := h
    have keep := b.tractPresetStep_ne extra tag bar a u hua
    exact ⟨(keep _ rfl).trans h1, (keep _ rfl).trans h2, (keep _ rfl).trans h3⟩

/-- The RED presets (R405). -/
theorem State.redPreset_fields (en vlog : Nat) (he : en < 2) (hv : vlog < 2 ^ 5) :
    (s.redPreset en vlog).fget F.RED_VFY_EN = en ∧ (s.redPreset en vlog).fget F.RED_VFY_VLOG = vlog := by
  unfold State.redPreset
  simp (disch := decide) only [State.fget_fset_beside, State.fget_fset_same]
  exact ⟨Nat.mod_eq_of_lt he, Nat.mod_eq_of_lt hv⟩

/-- The PWR presets (R490). -/
theorem State.pwrPreset_fields (hyst down delta ms : Nat) (hh : hyst < 2 ^ 8) (hd : down < 2 ^ 8) :
    (s.pwrPreset hyst down delta ms).fget F.PWR_GOV_HYST = hyst ∧ (s.pwrPreset hyst down delta ms).fget F.PWR_GOV_DOWN_N = down := by
  unfold State.pwrPreset
  simp (disch := decide) only [State.fget_fset_reg, State.fget_fset_beside, State.fget_fset_same]
  exact ⟨Nat.mod_eq_of_lt hh, Nat.mod_eq_of_lt hd⟩

/-! ## A preset that has been loaded -/

theorem State.tractPreset_regs (extra tag bar : Nat) : SameButRegs s (s.tractPreset extra tag bar) := by
  rw [State.tractPreset_eq]
  exact foldl_keeps (SameButRegs s) _ (fun _ i h => ((h.fset _ _ i _ _).fset _ _ i _ _).fset _ _ i _ _) _ s (.refl s)

/-- Where a preset is loaded, PRESET shows it and nothing but registers has changed; what else holds is a matter of what has
been loaded. -/
theorem gives_preset (off : BitVec 27) (p : Fin 16) (r : RegRef) (hat : regAt off.toNat = some r) (hr : r.id = r.id.defn.blk.profile)
    (hl : s.flag F.MOD_CTRL_LOCK = false) (b : Block) (hb : r.id.defn.blk = b) {u : State} (hu : s.presetLoad b r.i p = some u)
    (hs : SameButRegs s u) {P : State → Prop} (hP : P (u.setPreset b r.i p)) :
    Gives (.profilePresetWrite off p) s (fun t => (t.fget ⟨r.id, 3, 0⟩ r.i = p.val ∧ { t with regs := s.regs } = s) ∧ P t) := by
  subst hb
  refine ⟨_, exec_profilePresetWrite s off p r hat hr, ?_⟩
  rw [s.presetWrite_loaded _ _ _ u hl hu]
  refine ⟨⟨?_, hs.fset r.id.defn.blk.preset p _ 0 0⟩, hP⟩
  have hi := profileInstance_of_has r.id.defn.blk r.i r.j r.k (by rw [← hr]; exact (has_of_regAt _ r hat).1)
  have hp := u.preset_setPreset r.id.defn.blk r.i p p.isLt
  rw [hi, Block.preset, ← hr] at hp
  exact hp

theorem presetsLoad : Claim.PresetsLoad := by
  intro s off p c r hat hr shows
  refine ⟨fun h => ⟨_, exec_profilePresetWrite s off p r hat hr, s.presetWrite_refused _ _ _ h⟩, fun hl => ?_⟩
  have gives := gives_preset s off p r hat hr hl
  have keep : ∀ {t : State} (f : Fld) (v i : Nat), SameButRegs s t → SameButRegs s (t.fset f v i) := fun f v i h => h.fset f v i 0 0
  refine ⟨fun e hp => ?_, fun e hp => ?_, fun e hp => ?_, fun e hp => ?_, fun e hp => ?_⟩
  · have hv : [94, 98, 88, 30].getD p.val 0 < 2 ^ 64 := by interval_cases p.val <;> decide
    subst e
    refine gives .MX rfl (s.presetLoad_MX c p hp) ((SameButRegs.refl s).wr _ _ _ _ _) ?_
    simp (disch := decide) only [State.rd_setPreset_reg, State.rd_wr_same, BitVec.toNat_ofNat]
    exact Nat.mod_eq_of_lt hv
  · refine gives .FB (by rw [e]; rfl) (s.presetLoad_FB r.i p hp) (keep _ _ _ (.refl s)) ?_
    simp (disch := decide) only [State.fget_setPreset_reg, State.fget_fset_same]
    exact Nat.mod_eq_of_lt (by omega)
  · refine gives .TRACT (by rw [e]; rfl) (s.presetLoad_TRACT r.i p hp) (s.tractPreset_regs _ _ _) fun u => ?_
    simp (disch := decide) only [State.fget_setPreset_reg]
    refine s.tractPreset_times _ _ _ u ?_ ?_ ?_ u.isLt <;> interval_cases p.val <;> decide
  · refine gives .RED (by rw [e]; rfl) (s.presetLoad_RED r.i p hp) (keep _ _ _ (keep _ _ _ (keep _ _ _ (keep _ _ _ (.refl s))))) ?_
    simp (disch := decide) only [State.fget_setPreset_reg]
    refine s.redPreset_fields _ _ ?_ ?_ <;> interval_cases p.val <;> decide
  · refine gives .PWR (by rw [e]; rfl) (s.presetLoad_PWR r.i p hp) (keep _ _ _ (keep _ _ _ (keep _ _ _ (keep _ _ _ (.refl s))))) ?_
    simp (disch := decide) only [State.fget_setPreset_reg]
    refine s.pwrPreset_fields _ _ _ _ ?_ ?_ <;> interval_cases p.val <;> decide

/-- Settles O55: field by field through `State.bits_merged`, and preset by preset. -/
theorem registersAreWritten : Obligations.RegistersAreWritten := ⟨registerFieldsAreWritten, presetsLoad⟩

end Sys2Proof.Machine
end

section
/-! # 64-bit registers in halves, and the read index of the event ring (R11, R12, R49) -/

namespace Sys2Proof.Machine

variable (s : State)

/-! ## Reads in halves -/

/-- A read of the low word captures the high word (R11, R12). -/
theorem State.readWord_low (r : RegRef) (hr : regAt r.addr = some r) (hw : r.id.defn.wide = true) :
    s.readWord r.addr = ({ s with rHold := mput 0 s.rHold r.addr (s.regValue r / 2 ^ 32 + 1) }, some (s.regValue r % 2 ^ 32)) := by
  simp [State.readWord, hr, hw]

/-- A read of the high word returns what has been captured. -/
theorem State.readWord_high (r : RegRef) (n : Nat) (hr : regAt (r.addr + 4) = some r) (hw : r.id.defn.wide = true)
    (hn : mget 0 s.rHold r.addr = n + 1) : (s.readWord (r.addr + 4)).2 = some n := by
  simp [State.readWord, hr, hw, hn]

theorem State.hostDone_rHold (tag status : Nat) (l : List Byte) (p : Bool) : (s.hostDone tag status l p).rHold = s.rHold := rfl

theorem exec_counterLowRead (tag : Fin 16384) (lane : BitVec 24) (r : RegRef) (ha : 8 * lane.toNat = r.addr)
    (hr : regAt r.addr = some r) (hw : r.id.defn.wide = true) (hb : s.hostReach r.id.defn.blk = true) :
    exec (.counterLowRead tag lane) s
      = .next ((s.readWord r.addr).1.hostDone tag 0 (leBytes 4 ((s.readWord r.addr).2.getD 0)) false) := by
  show execCounterLowRead tag lane s = _
  simp [execCounterLowRead, ha, hr, hw, hb]

/-! ## Writes in halves -/

theorem State.lowWrite_wHold (r : RegRef) (v : Nat) : (s.lowWrite r v).wHold = mput 0 s.wHold r.addr (v + 1) := rfl

theorem exec_splitLowWordWrite (lane : BitVec 24) (low : BitVec 32) (r : RegRef) (h : splitReg lane = some r) :
    exec (.splitLowWordWrite lane low) s = .next (s.lowWrite r low.toNat) := by
  show execSplitLowWordWrite lane low s = _
  simp [execSplitLowWordWrite, h]

theorem exec_splitHighWordWrite (lane : BitVec 24) (high : BitVec 32) (r : RegRef) (h : splitReg lane = some r) :
    exec (.splitHighWordWrite lane high) s = .next (s.highWrite .bar0 r high.toNat) := by
  show execSplitHighWordWrite lane high s = _
  simp [execSplitHighWordWrite, h]

theorem regAt_of_splitReg (lane : BitVec 24) (r : RegRef) (h : splitReg lane = some r) : regAt (8 * lane.toNat) = some r := by
  unfold splitReg at h
  split at h
  · cases h
  · split at h
    · cases h; assumption
    · cases h

/-- A write of the high word writes the whole register, from the word held or the present low word, and nothing is held
any longer (R12). -/
theorem State.highWrite_held (path : CmdPath) (r : RegRef) (v low : Nat) (h : mget 0 s.wHold r.addr = low + 1) :
    s.highWrite path r v = ({ s with wHold := merase s.wHold r.addr } : State).regWrite path r (v * 2 ^ 32 + low) := by
  simp [State.highWrite, h]

theorem State.highWrite_free (path : CmdPath) (r : RegRef) (v : Nat) (h : mget 0 s.wHold r.addr = 0) :
    s.highWrite path r v = ({ s with wHold := merase s.wHold r.addr } : State).regWrite path r
      (v * 2 ^ 32 + (s.rd r.id r.i r.j r.k).toNat % 2 ^ 32) := by
  simp [State.highWrite, h]

/-- A register with no RWX field leaves PRESET as it is. -/
theorem State.regStore_noRWX (r : RegRef) (v : Nat) (h : r.id.hasRWX = false) :
    s.regStore r v = s.wr r.id (BitVec.ofNat 64 (s.merged r v)) r.i r.j r.k := by
  simp [State.regStore, h]

/-- What HOST_XLAT_BASE takes from a write: its address field, and no other register changes. -/
theorem State.xlatBase_regStore (i x : Nat) :
    (s.regStore ⟨.HOST_XLAT_BASE, 0, i, 0⟩ x).fget F.HOST_XLAT_BASE_ADDR 0 i = x % 2 ^ 64 / 2 ^ 12
      ∧ RegsKept s (s.regStore ⟨.HOST_XLAT_BASE, 0, i, 0⟩ x) [RegId.HOST_XLAT_BASE.addr 0 i 0] := by
  rw [s.regStore_noRWX _ _ (show RegId.HOST_XLAT_BASE.hasRWX = false by decide)]
  refine ⟨?_, s.wr_regsKept _ _ _ _ _ _ (.head _)⟩
  have hm := s.bits_merged ⟨.HOST_XLAT_BASE, 0, i, 0⟩ x ⟨63, 12, .RW, 0, .none, []⟩ (.head _)
  rw [State.fget, State.rd_wr_same, BitVec.toNat_ofNat, Nat.mod_eq_of_lt (s.merged_lt _ _)]
  refine hm.trans ?_
  show bits x 63 12 = _
  unfold bits
  omega

/-! ## The read index of the event ring (R49) -/

/-- Entries between a read index and the write index. -/
def State.ringLeft (s : State) (rd : Nat) : Nat := (s.fget F.MOD_EVT_WR_INDEX + 8192 - rd) % 8192

theorem State.evtRdWrite_toward (v : Nat) (hv : v < 8192) (h : s.ringLeft v ≤ s.ringLeft (s.fget F.MOD_EVT_RD_INDEX)) :
    ∃ p : HostPort, s.evtRdWrite v = { s.fset F.MOD_EVT_RD_INDEX v with host := p } := by
  have hr : s.fget F.MOD_EVT_RD_INDEX < 8192 := s.fget_lt F.MOD_EVT_RD_INDEX 0 0 0
  unfold State.ringLeft at h
  unfold State.evtRdWrite
  simp only [Nat.mod_eq_of_lt hv, Nat.mod_eq_of_lt hr, if_pos h]
  split
  · exact ⟨_, rfl⟩
  · exact State.msix_eq _ _

theorem State.evtRdWrite_away (v : Nat) (hv : v < 8192) (h : s.ringLeft (s.fget F.MOD_EVT_RD_INDEX) < s.ringLeft v) :
    s.evtRdWrite v = s := by
  have hr : s.fget F.MOD_EVT_RD_INDEX < 8192 := s.fget_lt F.MOD_EVT_RD_INDEX 0 0 0
  unfold State.ringLeft at h
  unfold State.evtRdWrite
  simp only [Nat.mod_eq_of_lt hv, Nat.mod_eq_of_lt hr]
  exact if_neg (Nat.not_le.2 h)

/-- Settles O54: a word captured or held is what the other half's access finds, and the whole register is then written by its
access codes. -/
theorem wideRegisters : Obligations.WideRegisters := by
  intro s tag lane low high data i index a base is wr left
  have hp : RegId.HOST_XLAT_BASE ∈ plainRegs := by decide
  refine ⟨fun r hr hr4 hw ha hb => ?_, fun r h => ?_, fun h => ⟨fun hh => ?_, fun hh => ?_, fun hm => ?_⟩, fun h => ?_, fun h => ?_⟩
  · rw [ha] at hr hr4 ⊢
    refine ⟨_, exec_counterLowRead s tag lane r ha hr hw hb, ?_⟩
    rw [s.readWord_low r hr hw]
    exact ⟨rfl, State.readWord_high _ r _ hr4 hw (by rw [State.hostDone_rHold, mget_mput_same]), rfl⟩
  · exact ⟨_, exec_splitLowWordWrite s lane low r h, by rw [State.lowWrite_wHold, mget_mput_same], rfl⟩
  · refine ⟨_, exec_splitHighWordWrite s lane high base h, ?_⟩
    rw [s.highWrite_held _ _ _ _ hh, State.regWrite_plain _ _ _ _ hp]
    have hw := congrArg State.wHold (State.regStore_onlyRegs { s with wHold := merase s.wHold base.addr } base
      (high.toNat * 2 ^ 32 + low.toNat)).2
    refine ⟨State.xlatBase_regStore _ i _, ?_⟩
    rw [show State.wHold _ = _ from hw, mget_merase, if_pos rfl]
  · refine ⟨_, exec_splitHighWordWrite s lane high base h, ?_⟩
    rw [s.highWrite_free _ _ _ hh, State.regWrite_plain _ _ _ _ hp]
    exact State.xlatBase_regStore _ i _
  · refine ⟨_, exec_registerWrite_wide s lane data, ?_⟩
    rw [s.busWrite_wide _ _ base hm (regAt_of_splitReg lane base h) rfl, s.regWrite_plain _ _ _ hp]
    exact s.xlatBase_regStore i _
  · obtain ⟨p, hp⟩ := s.evtRdWrite_toward index.toNat index.isLt h
    refine ⟨_, rfl, ?_⟩
    rw [hp]
    exact ⟨(s.fget_fset_same F.MOD_EVT_RD_INDEX _ _ _ _ (by decide) (by decide)).trans (Nat.mod_eq_of_lt index.isLt),
      s.fset_regsKept _ _ _ _ _ _ (.head _),
      MemKept.of_eq rfl rfl rfl rfl rfl rfl⟩
  · exact ⟨_, rfl, s.evtRdWrite_away index.toNat index.isLt h⟩

end Sys2Proof.Machine
end

section
/-! # Timeouts fault a tract (R179, R187, R194) -/

namespace Sys2Proof.Machine

variable (s : State)

/-! ## What stopping one core does (R194) -/

/-- The registers of core c's engines and stream port that clearing them writes. -/
def clearRegs (c : Nat) : List Nat :=
  [RegId.MX_STATUS.addr c 0 0, RegId.VX_SUM_KIND.addr c 0 0, RegId.VX_SUM.addr c 0 0, RegId.VX_SUM.addr c 1 0, RegId.VX_SUM.addr c 2 0,
    RegId.VX_SUM.addr c 3 0, RegId.VX_POS_Q.addr c 0 0, RegId.VX_POS_K.addr c 0 0, RegId.VX_DOC_COUNT.addr c 0 0,
    RegId.STP_STATUS.addr c 0 0]

/-- No memory and no Epru differs, and of the registers those of `clearRegs` at most. -/
def ClearKept (c : Nat) (s t : State) : Prop := RegsKept s t (clearRegs c) ∧ MemKept s t ∧ t.ep = s.ep

theorem ClearKept.trans {c : Nat} {s t u : State} (h : ClearKept c s t) (h' : ClearKept c t u) : ClearKept c s u :=
  ⟨h.1.trans h'.1, h.2.1.trans h'.2.1, h'.2.2.trans h.2.2⟩

/-- A change of a per-unit table. -/
theorem ClearKept.of_table (c : Nat) {t : State} (hr : t.regs = s.regs) (hm : MemKept s t) (he : t.ep = s.ep) : ClearKept c s t :=
  ⟨fun a d _ => by rw [hr], hm, he⟩

theorem ClearKept.wr {c : Nat} {s t : State} (h : ClearKept c s t) (r : RegId) (v : Word64) (j : Nat)
    (hr : r.addr c j 0 ∈ clearRegs c := by simp [clearRegs]) : ClearKept c s (t.wr r v c j) :=
  h.trans ⟨t.wr_regsKept r v c j 0 _ hr, MemKept.of_eq rfl rfl rfl rfl rfl rfl, rfl⟩

theorem ClearKept.fset {c : Nat} {s t : State} (h : ClearKept c s t) (f : Fld) (v : Nat)
    (hf : f.reg.addr c 0 0 ∈ clearRegs c := by simp [clearRegs]) : ClearKept c s (t.fset f v c) :=
  h.wr f.reg _ 0 hf

theorem State.setMx_kept (c : Nat) (x : Mx) : ClearKept c s (s.setMx c x) :=
  .of_table s c rfl (MemKept.of_eq rfl rfl rfl rfl rfl rfl) rfl

theorem State.setVx_kept (c : Nat) (x : Vx) : ClearKept c s (s.setVx c x) :=
  .of_table s c rfl (MemKept.of_eq rfl rfl rfl rfl rfl rfl) rfl

theorem State.setSp_kept (c : Nat) (x : SpCore) : ClearKept c s (s.setSp c x) :=
  .of_table s c rfl (MemKept.of_eq rfl rfl rfl rfl rfl rfl) rfl

theorem State.setStp_kept (c : Nat) (x : Stp) : ClearKept c s (s.setStp c x) :=
  .of_table s c rfl (MemKept.of_eq rfl rfl rfl rfl rfl rfl) rfl

theorem State.mxClear_kept (c : Nat) : ClearKept c s (s.mxClear c) :=
  ((s.setMx_kept c _).fset F.MX_STATUS_SHADOW_FULL 0).fset F.MX_STATUS_HELD_VALID 0

theorem State.vxClear_kept (c : Nat) : ClearKept c s (s.vxClear c) :=
  ((((((((s.setVx_kept c _).wr .VX_SUM_KIND 0 0).wr .VX_SUM 0 0).wr .VX_SUM 0 1).wr .VX_SUM 0 2).wr .VX_SUM 0 3).wr .VX_POS_Q 0 0).wr
    .VX_POS_K 0 0).wr .VX_DOC_COUNT 0 0

theorem State.spEngineClear_kept (c : Nat) : ClearKept c s (s.spEngineClear c) := s.setSp_kept c _

theorem State.stpFault_kept (c : Nat) : ClearKept c s (s.stpFault c) := (s.setStp_kept c _).fset F.STP_STATUS_PF_ACTIVE 0

/-- A core that stops: its Epru first, and then clears that leave it. -/
theorem State.coreStop_clears (c : Nat) : ∃ e : Epru, (e.mq = [] ∧ e.vq = [] ∧ e.sq = [] ∧ e.defq = [])
    ∧ ClearKept c ((s.setCore c e).fset F.EP_STATUS_STATE 0 c) (s.coreStop c) :=
  ⟨_, ⟨rfl, rfl, rfl, rfl⟩, (((State.mxClear_kept _ c).trans (State.vxClear_kept _ c)).trans (State.spEngineClear_kept _ c)).trans
    (State.stpFault_kept _ c)⟩

/-- The Epru of a core is idle, and its queues and deferred buffer are empty. -/
def CoreIdle (d : Nat) (s : State) : Prop :=
  s.epState d = epIDLE ∧ (s.core d).mq = [] ∧ (s.core d).vq = [] ∧ (s.core d).sq = [] ∧ (s.core d).defq = []

theorem CoreIdle.congr {d : Nat} {s t : State} (h : CoreIdle d s) {l : List Nat} (hr : RegsKept s t l) (hl : RegId.EP_STATUS.addr d 0 0 ∉ l)
    (he : t.core d = s.core d) : CoreIdle d t := by
  unfold CoreIdle State.epState at h ⊢
  rwa [hr.fget F.EP_STATUS_STATE d 0 0 hl, he]

theorem epStatus_not_cleared (c d : Nat) : RegId.EP_STATUS.addr d 0 0 ∉ clearRegs c := by
  simp only [clearRegs, RegId.addr, RegId.defn, Block.place, List.mem_cons, List.not_mem_nil, or_false]
  omega

theorem core_congr {s t : State} (h : t.ep = s.ep) (d : Nat) : t.core d = s.core d := by rw [State.core, State.core, h]

theorem State.coreStop_idle_same (c : Nat) : CoreIdle c (s.coreStop c) := by
  obtain ⟨e, hq, hr, -, he⟩ := s.coreStop_clears c
  refine CoreIdle.congr ?_ hr (epStatus_not_cleared c c) (core_congr he c)
  unfold CoreIdle State.epState
  rw [State.fget_fset_same _ _ _ _ _ _ (by decide) (by decide), core_congr (State.fset_ep _ _ _ _ _ _), State.core_setCore_same]
  exact ⟨rfl, hq⟩

/-- A core that stops leaves an idle one idle. -/
theorem State.coreStop_idle (c d : Nat) (h : CoreIdle d s) : CoreIdle d (s.coreStop c) := by
  by_cases hd : d = c
  · rw [hd]; exact s.coreStop_idle_same c
  · obtain ⟨e, -, hr, -, he⟩ := s.coreStop_clears c
    refine CoreIdle.congr ?_ hr (epStatus_not_cleared c d) (core_congr he d)
    refine h.congr (l := [RegId.EP_STATUS.addr c 0 0]) (State.fset_regsKept _ F.EP_STATUS_STATE _ _ _ _ _ (.head _)) ?_ ?_
    · simp only [List.mem_singleton]; exact RegId.addr_ne _ _ _ _ rfl (.inr hd)
    · rw [core_congr (State.fset_ep _ _ _ _ _ _), State.core_setCore_ne _ _ _ _ hd]

theorem State.coreStop_memKept (c : Nat) : MemKept s (s.coreStop c) := by
  obtain ⟨e, -, -, hm, -⟩ := s.coreStop_clears c
  exact MemKept.trans (MemKept.of_eq rfl rfl rfl rfl rfl rfl) hm

/-! ## The fault of a slot (R194) -/

/-- The slot has faulted with a cause: no release is to come, and each of its cores has stopped. -/
def Faulted (slot cause : Nat) (cores : List Nat) (t : State) : Prop :=
  t.tstate slot = tFAULTED ∧ t.fget F.TRACT_FAULT_INFO_CAUSE slot = cause ∧ (t.tract slot).rel = none ∧ ∀ d ∈ cores, CoreIdle d t

theorem RegsKept.of_regs {s t u : State} {l : List Nat} (h : RegsKept s t l) (e : u.regs = t.regs) : RegsKept s u l :=
  fun a d ha => by rw [e]; exact h a d ha

/-- What a slot that stops does once its cores have stopped, but for its STATE. -/
def State.slotRest (s : State) (t : Nat) : State :=
  let s := (s.fset F.TRACT_STATUS_ENABLE_PENDING 0 t).fset F.TRACT_STATUS_PARK_PENDING 0 t
  let x := s.tract t
  ({ s with pwr := { s.pwr with idleAt := s.clk.wt } } : State).setTract t
    { x with rel := none, rootT := none, stepHeld := false, filling := false }

theorem State.slotStop_eq (t st : Nat) :
    s.slotStop t st = (((s.tractCores t).foldl State.coreStop s).slotRest t).fset F.TRACT_STATUS_STATE st t := rfl

theorem State.fset_memKept (f : Fld) (v i : Nat) : MemKept s (s.fset f v i) := MemKept.of_eq rfl rfl rfl rfl rfl rfl

theorem State.slotRest_memKept (t : Nat) : MemKept s (s.slotRest t) := MemKept.of_eq rfl rfl rfl rfl rfl rfl

theorem State.slotRest_regsKept (t : Nat) : RegsKept s (s.slotRest t) [RegId.TRACT_STATUS.addr t 0 0] :=
  RegsKept.of_regs ((s.fset_regsKept F.TRACT_STATUS_ENABLE_PENDING 0 t 0 0 _ (.head _)).trans
    (State.fset_regsKept _ F.TRACT_STATUS_PARK_PENDING 0 t 0 0 _ (.head _))) rfl

theorem State.slotRest_ep (t : Nat) : (s.slotRest t).ep = s.ep := rfl

theorem State.slotRest_rel (t : Nat) : ((s.slotRest t).tract t).rel = none :=
  congrArg Tract.rel (State.tract_setTract_same _ t _)

theorem State.slotStop_rel (t st : Nat) : ((s.slotStop t st).tract t).rel = none := by
  rw [State.slotStop_eq, State.tract, State.fset_tracts]
  exact State.slotRest_rel _ t

theorem State.slotStop_tstate (t st : Nat) (h : st < 16) : (s.slotStop t st).tstate t = st := by
  rw [State.slotStop_eq, State.tstate, State.fget_fset_same _ _ _ _ _ _ (by decide) (by decide)]
  exact Nat.mod_eq_of_lt h

theorem State.slotStop_memKept (t st : Nat) : MemKept s (s.slotStop t st) := by
  rw [State.slotStop_eq]
  exact ((foldl_keeps (MemKept s) _ (fun b c h => h.trans (b.coreStop_memKept c)) _ s (MemKept.refl s)).trans
    (State.slotRest_memKept _ t)).trans (State.fset_memKept _ _ _ _)

/-- Registers of a tract slot and of the event ring are none of a core's. -/
theorem epStatus_not_tract (slot : Slot) (d : Nat) (r : RegId) (hr : r.defn.blk = .TRACT) : RegId.EP_STATUS.addr d 0 0 ≠ r.addr slot 0 0 := by
  obtain ⟨-, hs⟩ := r.sits
  have hz : 0 < r.size := by unfold RegId.size; split <;> omega
  have := slot.isLt
  unfold RegId.stop RegId.row at hs
  simp only [hr, Block.span] at hs
  rw [show RegId.EP_STATUS.addr d 0 0 = 0x4000000 + d * 0x800 + 4 from rfl]
  simp only [RegId.addr, hr, Block.place]
  omega

theorem State.slotStop_idle (slot : Slot) (st d : Nat) (h : d ∈ s.tractCores slot) : CoreIdle d (s.slotStop slot st) := by
  have hi : CoreIdle d ((s.tractCores slot).foldl State.coreStop s) :=
    foldl_reaches (CoreIdle d) _ d (fun b => b.coreStop_idle_same d) (fun b c hb => b.coreStop_idle c d hb) _ h s
  rw [State.slotStop_eq]
  generalize (s.tractCores slot).foldl State.coreStop s = u at hi ⊢
  refine hi.congr ((u.slotRest_regsKept slot).trans (State.fset_regsKept _ F.TRACT_STATUS_STATE st slot 0 0 _ (.head _))) ?_
    (core_congr ((State.fset_ep _ _ _ _ _ _).trans (u.slotRest_ep slot)) d)
  simp only [List.mem_singleton]
  exact epStatus_not_tract slot d .TRACT_STATUS rfl

/-- A fault of a slot is recorded: TRACT_FAULT_INFO and the event (R194). -/
def State.faultRecord (s : State) (t info detail : Nat) : State :=
  (s.wr .TRACT_FAULT_INFO (BitVec.ofNat 64 info) t).raise 0x4001 kTRACT t detail

theorem State.slotFault_eq (t c cause code : Nat) : s.slotFault t c cause code
    = (s.slotStop t tFAULTED).faultRecord t (cause + code % 256 * 2 ^ 8 + c * 2 ^ 16) (cause + c * 2 ^ 8 + s.pc c * 2 ^ 32) := rfl

/-- The registers that recording a fault of a slot writes. -/
def faultRegs (slot : Nat) : List Nat :=
  [RegId.TRACT_FAULT_INFO.addr slot 0 0, RegId.MOD_EVT_WR.addr 0 0 0, RegId.MOD_EVT_LOST.addr 0 0 0]

theorem State.faultRecord_regsKept (t info detail : Nat) : RegsKept s (s.faultRecord t info detail) (faultRegs t) :=
  (s.wr_regsKept _ _ _ _ _ _ (.head _)).trans (State.raise_regsKept _ _ _ _ _ _ (.tail _ (.head _)) (.tail _ (.tail _ (.head _))))

/-- Recording a fault leaves Eprus, tracts and memories. -/
theorem State.faultRecord_keeps (t info detail : Nat) :
    (s.faultRecord t info detail).ep = s.ep ∧ (s.faultRecord t info detail).tracts = s.tracts ∧ MemKept s (s.faultRecord t info detail) := by
  unfold State.faultRecord
  obtain ⟨m, g, h, p, e, -⟩ := (s.wr .TRACT_FAULT_INFO (BitVec.ofNat 64 info) t).raise_eq 0x4001 kTRACT t detail
  rw [e]
  exact ⟨rfl, rfl, MemKept.of_eq rfl rfl rfl rfl rfl rfl⟩

theorem State.faultRecord_cause (slot : Slot) (info detail : Nat) :
    (s.faultRecord slot info detail).fget F.TRACT_FAULT_INFO_CAUSE slot = info % 256 := by
  have hr := (s.wr .TRACT_FAULT_INFO (BitVec.ofNat 64 info) slot).raise_regsKept 0x4001 kTRACT slot detail
    [RegId.MOD_EVT_WR.addr 0 0 0, RegId.MOD_EVT_LOST.addr 0 0 0] (.head _) (.tail _ (.head _))
  rw [State.faultRecord, hr.fget F.TRACT_FAULT_INFO_CAUSE slot 0 0 ?_, State.fget, State.rd_wr_same, BitVec.toNat_ofNat]
  · show bits _ 7 0 = _
    unfold bits; omega
  · simp only [RegId.addr, RegId.defn, Block.place, List.mem_cons, List.not_mem_nil, or_false]; omega

/-- A stopped slot whose fault is recorded has faulted, with the cause in the record's low byte. -/
theorem State.faultRecord_faulted (slot : Slot) (info detail : Nat) (cores : List Nat) (hst : s.tstate slot = tFAULTED)
    (hrel : (s.tract slot).rel = none) (hidle : ∀ d ∈ cores, CoreIdle d s) :
    Faulted slot (info % 256) cores (s.faultRecord slot info detail) := by
  obtain ⟨he, ht, -⟩ := s.faultRecord_keeps slot info detail
  have hr := s.faultRecord_regsKept slot info detail
  refine ⟨(hr.fget F.TRACT_STATUS_STATE slot 0 0 ?_).trans hst, s.faultRecord_cause slot info detail, ?_,
    fun d hd => (hidle d hd).congr hr ?_ (core_congr he d)⟩
  · simp only [faultRegs, RegId.addr, RegId.defn, Block.place, List.mem_cons, List.not_mem_nil, or_false]; omega
  · rwa [State.tract, ht]
  · simp only [faultRegs, List.mem_cons, List.not_mem_nil, or_false, epStatus_not_tract slot d .TRACT_FAULT_INFO rfl, false_or]
    simp only [RegId.addr, RegId.defn, Block.place]; omega

/-- What a fault of a slot does: the slot stops FAULTED, with its cause recorded, and its cores with it (R194). -/
theorem State.slotFault_faulted (slot : Slot) (c cause code : Nat) (hc : cause < 256) :
    Faulted slot cause (s.tractCores slot) (s.slotFault slot c cause code) ∧ MemKept s (s.slotFault slot c cause code) := by
  have hi : (cause + code % 256 * 2 ^ 8 + c * 2 ^ 16) % 256 = cause := by omega
  have hf := fun detail => State.faultRecord_faulted _ slot (cause + code % 256 * 2 ^ 8 + c * 2 ^ 16) detail _
    (s.slotStop_tstate slot tFAULTED (by decide)) (s.slotStop_rel slot tFAULTED) (s.slotStop_idle slot tFAULTED)
  rw [State.slotFault_eq]
  rw [hi] at hf
  exact ⟨hf _, (s.slotStop_memKept slot tFAULTED).trans (State.faultRecord_keeps _ _ _ _).2.2⟩

/-- A fault found in a core of a RUNNING tract is one of its slot. -/
theorem State.tractFault_running (c cause t : Nat) (h : s.slotOf c = some t) (hr : s.tstate t = tRUNNING) :
    s.tractFault c cause = s.slotFault t c cause 0 := by
  simp [State.tractFault, State.running, h, hr]

/-! ## Waiting for the timeout -/

/-- All that waiting for an instant of WT does to registers, Eprus and memories: CLK_SKIMMED may rise (R433). -/
theorem State.atWt_kept (w : Nat) : RegsKept s (s.atWt w) [RegId.CLK_SKIMMED.addr 0 0 0] ∧ MemKept s (s.atWt w) := by
  obtain e | ⟨n, e⟩ := s.atWt_adv w
  · rw [e]; exact ⟨RegsKept.refl s _, MemKept.refl s⟩
  · rw [e]
    refine ⟨s.adv_regsKept n _ (.head _), ?_⟩
    obtain ⟨m, h, -⟩ := s.adv_eq n
    rw [h]; exact MemKept.of_eq rfl rfl rfl rfl rfl rfl

/-- A register of a tract slot is not CLK_SKIMMED. -/
theorem RegsKept.fget_tract {s t : State} (h : RegsKept s t [RegId.CLK_SKIMMED.addr 0 0 0]) (f : Fld) (i : Nat)
    (hf : f.reg.defn.blk = .TRACT) : t.fget f i = s.fget f i := by
  refine h.fget f i 0 0 ?_
  rw [List.mem_singleton, show RegId.CLK_SKIMMED.addr 0 0 0 = 0x100120 from rfl]
  simp only [RegId.addr, hf, Block.place]
  omega

theorem RegsKept.tractCores {s t : State} (h : RegsKept s t [RegId.CLK_SKIMMED.addr 0 0 0]) (i : Nat) :
    t.tractCores i = s.tractCores i := by
  simp (disch := decide) only [State.tractCores, h.fget_tract]

theorem RegsKept.tstate {s t : State} (h : RegsKept s t [RegId.CLK_SKIMMED.addr 0 0 0]) (i : Nat) : t.tstate i = s.tstate i :=
  h.fget_tract _ i rfl

theorem RegsKept.slotOf {s t : State} (h : RegsKept s t [RegId.CLK_SKIMMED.addr 0 0 0]) (c : Nat) : t.slotOf c = s.slotOf c := by
  simp (disch := decide) only [State.slotOf, State.inRect, h.tstate, h.fget_tract]

/-- A slot that faults once WT has been waited for. -/
theorem State.atWt_slotFault (w : Nat) (slot : Slot) (c cause : Nat) (hc : cause < 256) :
    Faulted slot cause (s.tractCores slot) ((s.atWt w).slotFault slot c cause 0)
      ∧ MemKept s ((s.atWt w).slotFault slot c cause 0) := by
  obtain ⟨hr, hm⟩ := s.atWt_kept w
  obtain ⟨hf, hk⟩ := (s.atWt w).slotFault_faulted slot c cause 0 hc
  rw [hr.tractCores] at hf
  exact ⟨hf, hm.trans hk⟩

theorem exec_barrierTimeout (slot : Slot) (h : s.tstate slot = tRUNNING) (hr : (s.tract slot).rootT = none) :
    ∃ c, exec (.barrierTimeout slot) s
      = .next ((s.atWt ((s.tract slot).relWt + (s.tract slot).barMs * 1000000 + 1)).slotFault slot c 0x05 0) := by
  show ∃ c, execBarrierTimeout slot s = _
  unfold execBarrierTimeout
  simp only [h, hr]
  exact ⟨_, rfl⟩

theorem exec_tagBlockTimeout (slot : Slot) (c : Core) (port : Fin 16) (bank : Fin 32) (h : s.slotOf c = some slot.val)
    (ht : s.fget F.TRACT_MODE_TAGMODE slot = 1) (hb : mget 0 (s.spCore c).blocked (port.val * 32 + bank.val) ≠ 0) :
    exec (.tagBlockTimeout c port bank) s = .next ((s.atWt (mget 0 (s.spCore c).blocked (port.val * 32 + bank.val) - 1
      + (s.tract slot).tagUs * 1000 + 1)).tractFault c 0x08) := by
  show execTagBlockTimeout c port bank s = _
  simp [execTagBlockTimeout, h, ht, hb]

/-- Settles O17: either timeout is a fault of the slot at the instant at which the time has passed. -/
theorem tractTimeouts : Obligations.TractTimeouts := by
  intro s slot c port bank faults
  have close : ∀ {cause : Nat} {t : State}, Faulted slot cause (s.tractCores slot) t ∧ MemKept s t → faults cause t :=
    fun ⟨⟨hst, hc, hr, hi⟩, hm⟩ => ⟨hst, hc, hr, hi, hm⟩
  refine ⟨fun hs hr => ?_, fun hc hs ht hb => ⟨_, exec_tagBlockTimeout s slot c port bank hc ht hb, ?_⟩⟩
  · obtain ⟨d, h⟩ := exec_barrierTimeout s slot hs hr
    exact ⟨_, h, close (s.atWt_slotFault _ slot d 0x05 (by decide))⟩
  · obtain ⟨hk, -⟩ := s.atWt_kept (mget 0 (s.spCore c).blocked (port.val * 32 + bank.val) - 1 + (s.tract slot).tagUs * 1000 + 1)
    rw [State.tractFault_running _ _ _ slot ((hk.slotOf c).trans hc) ((hk.tstate slot).trans hs)]
    exact close (s.atWt_slotFault _ slot c 0x08 (by decide))

end Sys2Proof.Machine
end

section
/-! # Core failures, substitution and re-placement (R32 to R34, R415 to R421) -/

namespace Sys2Proof.Machine

variable (s : State) (pos : Pos)

/-! ## The ledger of a failure -/

/-- What the handling of a failed core accounts for: the map's generation, the spares left, the positions of the segment that are
marked failed, the substitutions counted, the changes and criteria that wait, and the memories. -/
structure Ledger where
  gen : Nat
  left : Nat
  failed : Nat
  subs : Nat
  changes : List Change
  crit : List (Nat × Nat)
  padMem : Memory × SMap Nat × SMap Nat
  stackMem : Memory × SMap Nat × SMap (List (Nat × Nat))

/-- The ledger of a state, for the segment of a position. -/
def State.ledger (s : State) (pos : Pos) : Ledger where
  gen := s.fget F.MOD_SPARE_GEN_GEN
  left := s.fget F.MOD_SPARES_LEFT_COUNT
  failed := s.fget F.MOD_SPARE_FAIL_FAILED 0 (segOfPos pos)
  subs := (s.rd .HLTH_SUBSTITUTIONS).toNat
  changes := s.hlth.changes
  crit := s.hlth.crit
  padMem := (s.sp, s.spCode, s.spTag)
  stackMem := (s.hbm, s.hbmPoison, s.hbmErr)

/-- The registers that the ledger reads. -/
def ledgerRegs (pos : Pos) : List Nat :=
  [RegId.MOD_SPARE_GEN.addr 0 0 0, RegId.MOD_SPARES_LEFT.addr 0 0 0, RegId.MOD_SPARE_FAIL.addr 0 (segOfPos pos) 0,
    RegId.HLTH_SUBSTITUTIONS.addr 0 0 0]

theorem segOfPos_lt : segOfPos pos < 600 := by
  have := pos.isLt
  unfold segOfPos
  omega

theorem mem_ledgerRegs (a : Nat) :
    a ∈ ledgerRegs pos ↔ a = 0x20 ∨ a = 0x24 ∨ a = 0x2000 + segOfPos pos * 4 ∨ a = 0x3E00048 := by
  simp [ledgerRegs, RegId.addr, RegId.defn, Block.place]

/-- The ledger reads its registers, the record of health and the memories alone. -/
theorem State.ledger_congr {s t : State} (hr : ∀ a ∈ ledgerRegs pos, ∀ d, mget d t.regs a = mget d s.regs a)
    (hh : (t.hlth.changes, t.hlth.crit) = (s.hlth.changes, s.hlth.crit)) (hp : (t.sp, t.spCode, t.spTag) = (s.sp, s.spCode, s.spTag))
    (hs : (t.hbm, t.hbmPoison, t.hbmErr) = (s.hbm, s.hbmPoison, s.hbmErr)) : t.ledger pos = s.ledger pos := by
  obtain ⟨hc, hk⟩ := Prod.mk.inj hh
  have rd : ∀ (r : RegId) (j : Nat), r.addr 0 j 0 ∈ ledgerRegs pos → t.rd r 0 j 0 = s.rd r 0 j 0 := fun r j h => hr _ h _
  simp only [State.ledger, State.fget, hc, hk, hp, hs,
    rd .MOD_SPARE_GEN 0 (by simp [ledgerRegs]), rd .MOD_SPARES_LEFT 0 (by simp [ledgerRegs]),
    rd .MOD_SPARE_FAIL (segOfPos pos) (by simp [ledgerRegs]), rd .HLTH_SUBSTITUTIONS 0 (by simp [ledgerRegs])]

/-! ## What leaves the ledger as it is -/

/-- A fold leaves the ledger as each of its steps does. -/
theorem ledger_foldl {α : Type} (f : State → α → State) (hf : ∀ b a, (f b a).ledger pos = b.ledger pos) (l : List α) (s : State) :
    (l.foldl f s).ledger pos = s.ledger pos :=
  foldl_keeps (fun b => b.ledger pos = s.ledger pos) f (fun b a h => (hf b a).trans h) l s rfl

/-- A step that writes no register of the ledger, and leaves the record of health and the memories. -/
theorem RegsKept.ledger {s t : State} {l : List Nat} (hr : RegsKept s t l) (hl : ∀ a ∈ ledgerRegs pos, a ∉ l)
    (hh : (t.hlth.changes, t.hlth.crit) = (s.hlth.changes, s.hlth.crit)) (hp : (t.sp, t.spCode, t.spTag) = (s.sp, s.spCode, s.spTag))
    (hs : (t.hbm, t.hbmPoison, t.hbmErr) = (s.hbm, s.hbmPoison, s.hbmErr)) : t.ledger pos = s.ledger pos :=
  State.ledger_congr pos (fun a ha d => hr a d (hl a ha)) hh hp hs

/-- A write of a register that the ledger does not read. -/
theorem State.ledger_wr (r : RegId) (v : Word64) (i j k : Nat) (h : r.addr i j k ∉ ledgerRegs pos) :
    (s.wr r v i j k).ledger pos = s.ledger pos :=
  (s.wr_regsKept r v i j k [r.addr i j k] (.head _)).ledger pos
    (fun a ha => by rw [List.mem_singleton]; exact fun e => h (e ▸ ha)) rfl rfl rfl

theorem State.ledger_fset (f : Fld) (v i j k : Nat) (h : f.reg.addr i j k ∉ ledgerRegs pos) :
    (s.fset f v i j k).ledger pos = s.ledger pos := s.ledger_wr pos f.reg _ i j k h

theorem modStatus_not_ledger : RegId.MOD_STATUS.addr 0 0 0 ∉ ledgerRegs pos := by
  rw [mem_ledgerRegs]; simp only [RegId.addr, RegId.defn, Block.place]; omega

theorem hlthStatus_not_ledger : RegId.HLTH_STATUS.addr 0 0 0 ∉ ledgerRegs pos := by
  have := segOfPos_lt pos
  rw [mem_ledgerRegs]; simp only [RegId.addr, RegId.defn, Block.place]; omega

theorem replacements_not_ledger : RegId.HLTH_REPLACEMENTS.addr 0 0 0 ∉ ledgerRegs pos := by
  have := segOfPos_lt pos
  rw [mem_ledgerRegs]; simp only [RegId.addr, RegId.defn, Block.place]; omega

theorem spareSkip_not_ledger : RegId.MOD_SPARE_SKIP.addr 0 (segOfPos pos) 0 ∉ ledgerRegs pos := by
  have := segOfPos_lt pos
  rw [mem_ledgerRegs]; simp only [RegId.addr, RegId.defn, Block.place]; omega

/-- A field of a tract slot is set: its registers lie above those of MOD that the ledger reads, and none
stands at the place of the one of HLTH. -/
theorem State.ledger_fset_tract (f : Fld) (v t : Nat) (hb : f.reg.defn.blk = .TRACT) (ho : f.reg.defn.off < 0x48) :
    (s.fset f v t).ledger pos = s.ledger pos := by
  refine s.ledger_fset pos f v t 0 0 ?_
  have := segOfPos_lt pos
  rw [mem_ledgerRegs]
  simp only [RegId.addr, hb, Block.place]
  omega

/-- A write of a register of a core, which lies above the ledger's registers. -/
theorem State.ledger_wr_core (r : RegId) (v : Word64) (c j : Nat) (hb : r.defn.blk.place.1 = 0x4000000) :
    (s.wr r v c j).ledger pos = s.ledger pos := by
  refine s.ledger_wr pos r v c j 0 ?_
  have := segOfPos_lt pos
  rw [mem_ledgerRegs, RegId.addr, hb]
  omega

theorem State.ledger_fset_core (f : Fld) (v c : Nat) (hb : f.reg.defn.blk.place.1 = 0x4000000) :
    (s.fset f v c).ledger pos = s.ledger pos := s.ledger_wr_core pos f.reg _ c 0 hb

/-! ## Events and records -/

/-- An event that is no strike adds its weight alone to the record of health (R409). -/
theorem State.raise_hlth (code kind idx detail : Nat) (h : code ≠ 0x2001 ∧ code ≠ 0x3001) :
    ∃ a, (s.raise code kind idx detail).hlth = { s.hlth with acc := a } := by
  have quiet : ∀ t : State, t.strike code kind idx = t := fun t => if_pos (.inr h)
  refine ⟨mupd 0 s.hlth.acc (s.clk.wt / 10000000) (· + s.weight code), ?_⟩
  unfold State.raise
  simp only [quiet]
  split
  · obtain ⟨l, e⟩ := State.count_eq { s with hlth := { s.hlth with
      acc := mupd 0 s.hlth.acc (s.clk.wt / 10000000) (· + s.weight code) } } .MOD_EVT_LOST 1 0 0 0
    rw [e]
  · split
    · obtain ⟨p, e⟩ := State.msix_eq _ 0
      rw [e]; rfl
    · rfl

@[simp] theorem State.ledger_raise (code kind idx detail : Nat) (h : code ≠ 0x2001 ∧ code ≠ 0x3001) :
    (s.raise code kind idx detail).ledger pos = s.ledger pos := by
  have hr := s.raise_regsKept code kind idx detail
    [RegId.MOD_EVT_WR.addr 0 0 0, RegId.MOD_EVT_LOST.addr 0 0 0] (.head _) (.tail _ (.head _))
  obtain ⟨m, g, y, p, e, -⟩ := s.raise_eq code kind idx detail
  obtain ⟨a, ha⟩ := s.raise_hlth code kind idx detail h
  refine hr.ledger pos (fun a ha => ?_) (by rw [ha]) (by rw [e]) (by rw [e])
  rw [mem_ledgerRegs] at ha
  simp only [RegId.addr, RegId.defn, Block.place, List.mem_cons, List.not_mem_nil, or_false]
  omega

@[simp] theorem State.ledger_logRecord (kind data detail : Nat) : (s.logRecord kind data detail).ledger pos = s.ledger pos :=
  State.ledger_congr pos (fun _ _ _ => rfl) rfl rfl rfl

@[simp] theorem State.ledger_coreFailed (q crit : Nat) : (s.coreFailed q crit).ledger pos = s.ledger pos := by
  simp [State.coreFailed]

@[simp] theorem State.ledger_setCore (c : Nat) (x : Epru) : (s.setCore c x).ledger pos = s.ledger pos :=
  State.ledger_congr pos (fun _ _ _ => rfl) rfl rfl rfl
@[simp] theorem State.ledger_setMx (c : Nat) (x : Mx) : (s.setMx c x).ledger pos = s.ledger pos :=
  State.ledger_congr pos (fun _ _ _ => rfl) rfl rfl rfl
@[simp] theorem State.ledger_setVx (c : Nat) (x : Vx) : (s.setVx c x).ledger pos = s.ledger pos :=
  State.ledger_congr pos (fun _ _ _ => rfl) rfl rfl rfl
@[simp] theorem State.ledger_setSp (c : Nat) (x : SpCore) : (s.setSp c x).ledger pos = s.ledger pos :=
  State.ledger_congr pos (fun _ _ _ => rfl) rfl rfl rfl
@[simp] theorem State.ledger_setStp (c : Nat) (x : Stp) : (s.setStp c x).ledger pos = s.ledger pos :=
  State.ledger_congr pos (fun _ _ _ => rfl) rfl rfl rfl
@[simp] theorem State.ledger_setTract (t : Nat) (x : Tract) : (s.setTract t x).ledger pos = s.ledger pos :=
  State.ledger_congr pos (fun _ _ _ => rfl) rfl rfl rfl

@[simp] theorem State.ledger_free : s.free.2.ledger pos = s.ledger pos :=
  State.ledger_congr pos (fun _ _ _ => rfl) rfl rfl rfl

@[simp] theorem State.ledger_recovery : s.recovery.ledger pos = s.ledger pos := s.ledger_fset pos _ _ _ _ _ (hlthStatus_not_ledger pos)

@[simp] theorem State.ledger_setDegraded : s.setDegraded.ledger pos = s.ledger pos :=
  s.ledger_fset pos _ _ _ _ _ (modStatus_not_ledger pos)

@[simp] theorem State.ledger_replaced : (s.count .HLTH_REPLACEMENTS).ledger pos = s.ledger pos := by
  have hr := s.count_regsKept .HLTH_REPLACEMENTS 1 0 0 0 [RegId.HLTH_REPLACEMENTS.addr 0 0 0] (.head _)
  obtain ⟨l, e⟩ := s.count_eq .HLTH_REPLACEMENTS 1 0 0 0
  refine hr.ledger pos (fun a ha => ?_) (by rw [e]) (by rw [e]) (by rw [e])
  rw [List.mem_singleton]; exact fun h => replacements_not_ledger pos (h ▸ ha)

/-! ## Entries of the ledger -/

/-- A field that is set shows in the ledger's registers alone. -/
theorem State.ledger_fset_eq (f : Fld) (v i j k : Nat) : (s.fset f v i j k).ledger pos = { s.ledger pos with
    gen := (s.fset f v i j k).fget F.MOD_SPARE_GEN_GEN
    left := (s.fset f v i j k).fget F.MOD_SPARES_LEFT_COUNT
    failed := (s.fset f v i j k).fget F.MOD_SPARE_FAIL_FAILED 0 (segOfPos pos)
    subs := ((s.fset f v i j k).rd .HLTH_SUBSTITUTIONS).toNat } := rfl

theorem State.ledger_fset_gen (v : Nat) :
    (s.fset F.MOD_SPARE_GEN_GEN v).ledger pos = { s.ledger pos with gen := v % 2 ^ 32 } := by
  have := segOfPos_lt pos
  have hv : (s.fset F.MOD_SPARE_GEN_GEN v).fget F.MOD_SPARE_GEN_GEN = v % 2 ^ 32 :=
    s.fget_fset_same _ _ _ _ _ (by decide) (by decide)
  rw [State.ledger_fset_eq, hv, State.fget_fset_ne _ _ F.MOD_SPARES_LEFT_COUNT, State.fget_fset_ne _ _ F.MOD_SPARE_FAIL_FAILED,
    State.rd_fset_ne]
  · rfl
  all_goals simp only [RegId.addr, RegId.defn, Block.place]; omega

theorem State.ledger_fset_left (v : Nat) :
    (s.fset F.MOD_SPARES_LEFT_COUNT v).ledger pos = { s.ledger pos with left := v % 2 ^ 11 } := by
  have := segOfPos_lt pos
  have hv : (s.fset F.MOD_SPARES_LEFT_COUNT v).fget F.MOD_SPARES_LEFT_COUNT = v % 2 ^ 11 :=
    s.fget_fset_same _ _ _ _ _ (by decide) (by decide)
  rw [State.ledger_fset_eq, hv, State.fget_fset_ne _ _ F.MOD_SPARE_GEN_GEN, State.fget_fset_ne _ _ F.MOD_SPARE_FAIL_FAILED,
    State.rd_fset_ne]
  · rfl
  all_goals simp only [RegId.addr, RegId.defn, Block.place]; omega

theorem State.ledger_fset_failed (v : Nat) :
    (s.fset F.MOD_SPARE_FAIL_FAILED v 0 (segOfPos pos)).ledger pos = { s.ledger pos with failed := v % 2 ^ 32 } := by
  have := segOfPos_lt pos
  have hv : (s.fset F.MOD_SPARE_FAIL_FAILED v 0 (segOfPos pos)).fget F.MOD_SPARE_FAIL_FAILED 0 (segOfPos pos) = v % 2 ^ 32 :=
    s.fget_fset_same _ _ _ _ _ (by decide) (by decide)
  rw [State.ledger_fset_eq, hv, State.fget_fset_ne _ _ F.MOD_SPARE_GEN_GEN, State.fget_fset_ne _ _ F.MOD_SPARES_LEFT_COUNT,
    State.rd_fset_ne]
  · rfl
  all_goals simp only [RegId.addr, RegId.defn, Block.place]; omega

/-- The map's generation rises (R34). -/
@[simp] theorem State.ledger_spareGen :
    s.spareGen.ledger pos = { s.ledger pos with gen := ((s.ledger pos).gen + 1) % 2 ^ 32 } := by
  rw [State.spareGen, State.ledger_fset_gen, Nat.mod_mod]
  rfl

/-- A position of the segment is entered as failed (R33, R415). -/
@[simp] theorem State.ledger_markFailed (p : Nat) : (s.markFailed (segOfPos pos) p).ledger pos
    = { s.ledger pos with failed := setBits (s.ledger pos).failed p p 1 % 2 ^ 32 } := s.ledger_fset_failed pos _

/-- A spare is spent, where the count of them is as it was in s (R31). -/
theorem State.ledger_spend (n : Nat) (h : n = (s.ledger pos).left) :
    (s.fset F.MOD_SPARES_LEFT_COUNT (n - 1)).ledger pos = { s.ledger pos with left := (s.ledger pos).left - 1 } := by
  have : (s.ledger pos).left < 2 ^ 11 := s.fget_lt F.MOD_SPARES_LEFT_COUNT 0 0 0
  rw [State.ledger_fset_left, h, Nat.mod_eq_of_lt (by omega)]

/-- A substitution is counted (R418). -/
@[simp] theorem State.ledger_substituted : (s.count .HLTH_SUBSTITUTIONS).ledger pos
    = { s.ledger pos with subs := min ((s.ledger pos).subs + 1) (2 ^ 64 - 1) } := by
  have := segOfPos_lt pos
  have hr := s.count_regsKept .HLTH_SUBSTITUTIONS 1 0 0 0 [RegId.HLTH_SUBSTITUTIONS.addr 0 0 0] (.head _)
  have hc := s.rd_count_same .HLTH_SUBSTITUTIONS 1 0 0 0
  obtain ⟨l, e⟩ := s.count_eq .HLTH_SUBSTITUTIONS 1 0 0 0
  unfold State.ledger
  rw [hc, hr.fget F.MOD_SPARE_GEN_GEN, hr.fget F.MOD_SPARES_LEFT_COUNT, hr.fget F.MOD_SPARE_FAIL_FAILED, e]
  all_goals simp only [List.mem_singleton, RegId.addr, RegId.defn, Block.place]; omega

/-- A spare fails: its position is marked, and it is spent (R415). -/
@[simp] theorem State.ledger_spareFailed (p : Nat) : (s.spareFailed (segOfPos pos) p).ledger pos
    = { s.ledger pos with failed := setBits (s.ledger pos).failed p p 1 % 2 ^ 32, left := (s.ledger pos).left - 1 } := by
  have skip : ∀ f : Fld, f.reg = .MOD_SPARE_SKIP → (s.fset f 1 0 (segOfPos pos)).ledger pos = s.ledger pos := fun f hf =>
    s.ledger_fset pos f 1 0 _ 0 (hf ▸ spareSkip_not_ledger pos)
  have spent : ∀ t : State, t.ledger pos = s.ledger pos →
      ((t.markFailed (segOfPos pos) p).fset F.MOD_SPARES_LEFT_COUNT (t.fget F.MOD_SPARES_LEFT_COUNT - 1)).ledger pos
        = { s.ledger pos with failed := setBits (s.ledger pos).failed p p 1 % 2 ^ 32, left := (s.ledger pos).left - 1 } := fun t ht => by
    rw [State.ledger_spend _ _ _ (by rw [State.ledger_markFailed]; rfl), State.ledger_markFailed, ht]
  unfold State.spareFailed
  split
  · exact spent _ (skip _ rfl)
  · exact spent _ (skip _ rfl)

/-- The bit of a position that has been marked (R33). -/
theorem bit_marked (v p : Nat) (h : p < 32) : bit (setBits v p p 1 % 2 ^ 32) p = true := by
  have e : bit (setBits v p p 1 % 2 ^ 32) p = (setBits v p p 1 % 2 ^ 32).testBit p := by
    rw [Nat.testBit_eq_decide_div_mod_eq]; rfl
  rw [e, Nat.testBit_mod_two_pow, setBits_testBit _ _ _ _ _ (Nat.le_refl p)]
  simp [h]

/-! ## A slot halts (R194, R416) -/

@[simp] theorem State.ledger_mxClear (c : Nat) : (s.mxClear c).ledger pos = s.ledger pos := by
  unfold State.mxClear
  simp (disch := decide) only [State.ledger_fset_core, State.ledger_setMx]

@[simp] theorem State.ledger_vxClear (c : Nat) : (s.vxClear c).ledger pos = s.ledger pos := by
  unfold State.vxClear
  simp (disch := decide) only [State.ledger_wr_core]
  rw [ledger_foldl pos _ (fun b n => b.ledger_wr_core pos .VX_SUM 0 c n (by decide)),
    State.ledger_wr_core _ _ .VX_SUM_KIND _ _ _ (by decide), State.ledger_setVx]

@[simp] theorem State.ledger_coreStop (c : Nat) : (s.coreStop c).ledger pos = s.ledger pos := by
  unfold State.coreStop State.stpFault State.spEngineClear
  simp (disch := decide) only [State.ledger_fset_core, State.ledger_setStp, State.ledger_setSp, State.ledger_vxClear,
    State.ledger_mxClear, State.ledger_setCore]

@[simp] theorem State.ledger_slotStop (t st : Nat) : (s.slotStop t st).ledger pos = s.ledger pos := by
  have idle : ∀ (u : State) (x : Pwr), ({ u with pwr := x } : State).ledger pos = u.ledger pos := fun _ _ =>
    State.ledger_congr pos (fun _ _ _ => rfl) rfl rfl rfl
  unfold State.slotStop
  simp (disch := decide) only [State.ledger_fset_tract, State.ledger_setTract, idle]
  exact ledger_foldl pos _ (fun b c => b.ledger_coreStop pos c) _ s

@[simp] theorem State.ledger_slotHalt (t : Nat) : (s.slotHalt t).ledger pos = s.ledger pos := by
  rw [State.slotHalt, State.ledger_setTract, State.ledger_slotStop]

theorem State.tstate_setTract (t u : Nat) (x : Tract) : (s.setTract t x).tstate u = s.tstate u := rfl

theorem State.slotHalt_tstate_same (t : Nat) : (s.slotHalt t).tstate t = tHALTED := by
  rw [State.slotHalt, State.tstate_setTract, s.slotStop_tstate t tHALTED (by decide)]

/-- A core that stops leaves the state of every slot. -/
theorem State.coreStop_tstate (c u : Nat) : (s.coreStop c).tstate u = s.tstate u := by
  obtain ⟨e, -, hr, -, -⟩ := s.coreStop_clears c
  refine (hr.fget F.TRACT_STATUS_STATE u 0 0 ?_).trans (State.fget_fset_ne _ F.EP_STATUS_STATE F.TRACT_STATUS_STATE _ _ _ _ _ _ _ ?_)
  · simp only [clearRegs, RegId.addr, RegId.defn, Block.place, List.mem_cons, List.not_mem_nil, or_false]
    omega
  · simp only [RegId.addr, RegId.defn, Block.place]
    omega

/-- A slot that halts leaves the state of another. -/
theorem State.slotHalt_tstate_ne (t u : Nat) (h : u ≠ t) : (s.slotHalt t).tstate u = s.tstate u := by
  have stop : ((s.tractCores t).foldl State.coreStop s).tstate u = s.tstate u :=
    foldl_keeps (fun b => b.tstate u = s.tstate u) _ (fun b c hb => (b.coreStop_tstate c u).trans hb) _ s rfl
  have ne : RegId.TRACT_STATUS.addr u 0 0 ≠ RegId.TRACT_STATUS.addr t 0 0 := RegId.addr_ne _ _ _ _ rfl (.inr h)
  rw [State.slotHalt, State.tstate_setTract, State.slotStop_eq, State.tstate,
    State.fget_fset_inst _ F.TRACT_STATUS_STATE F.TRACT_STATUS_STATE _ _ _ rfl h,
    (State.slotRest_regsKept _ t).fget F.TRACT_STATUS_STATE u 0 0 (by rw [List.mem_singleton]; exact ne)]
  exact stop

/-- Slots that halt are HALTED once all of them have. -/
theorem foldl_slotHalt_tstate (l : List Nat) (u : Nat) (h : u ∈ l) : (l.foldl State.slotHalt s).tstate u = tHALTED := by
  refine foldl_reaches (fun b => b.tstate u = tHALTED) _ u (fun b => b.slotHalt_tstate_same u) (fun b t hb => ?_) l h s
  by_cases e : u = t
  · rw [← e]; exact b.slotHalt_tstate_same u
  · exact (b.slotHalt_tstate_ne t u e).trans hb

/-! ## A slot is restored or re-placed (R418, R419, R421) -/

@[simp] theorem State.ledger_slotRestore (t : Nat) : (s.slotRestore t).ledger pos = s.ledger pos := by
  have loaded : (((s.fset F.TRACT_STATUS_STATE tLOADED t).fset F.TRACT_CTRL_ENABLE 0 t).setTract t {}).ledger pos = s.ledger pos := by
    simp (disch := decide) only [State.ledger_setTract, State.ledger_fset_tract]
  unfold State.slotRestore
  split
  · exact s.ledger_raise pos _ _ _ _ (by decide)
  · exact loaded

@[simp] theorem State.ledger_originRecord (k row col : Nat) : (s.originRecord k row col).ledger pos = s.ledger pos := by
  unfold State.originRecord
  dsimp only
  split
  · rfl
  · rfl

/-- A slot is re-placed. The search for a place and its validation are taken as any functions: the ledger does not depend on what
they find, and the kernel need not run them. -/
@[simp] theorem State.ledger_slotReplace (t : Nat) : (s.slotReplace t).ledger pos = s.ledger pos := by
  obtain ⟨origin, ho⟩ : ∃ f, f = State.originFor := ⟨_, rfl⟩
  obtain ⟨bad, hb⟩ : ∃ f, f = State.tractBad := ⟨_, rfl⟩
  unfold State.slotReplace
  rw [← ho, ← hb]
  extract_lets own old fail
  have failed : ∀ why, (fail why).ledger pos = s.ledger pos := fun why => s.ledger_raise pos _ _ _ _ (by decide)
  clear_value own fail
  split
  · exact failed 0
  · extract_lets moved
    have hm : moved.ledger pos = s.ledger pos := by
      simp (disch := decide) only [moved, State.ledger_fset_tract]
    clear_value moved
    split
    · exact failed _
    · rw [State.ledger_replaced, State.ledger_raise _ _ _ _ _ _ (by decide)]
      cases own with
      | none => rw [State.ledger_slotRestore, hm]
      | some k => rw [State.ledger_originRecord, State.ledger_slotRestore, hm]

@[simp] theorem State.ledger_awayReplace (k : Nat) : (s.awayReplace k).ledger pos = s.ledger pos := by
  unfold State.awayReplace
  dsimp only
  split
  · rw [State.ledger_raise _ _ _ _ _ _ (by decide), State.ledger_free]
  · rw [State.ledger_replaced, State.ledger_raise _ _ _ _ _ _ (by decide), State.ledger_originRecord, State.ledger_free]

/-- A change that is complete is the first of those that wait (R417). -/
@[simp] theorem State.ledger_changeDone :
    s.changeDone.ledger pos = { s.ledger pos with changes := (s.ledger pos).changes.drop 1 } := by
  rw [State.changeDone, State.ledger_setDegraded, State.ledger_recovery]
  rfl

/-! ## A spare takes a place (R32, R418) -/

/-- A swap of the map spends a spare. -/
@[simp] theorem State.ledger_spareSwap (p q : Nat) : (s.spareSwap (segOfPos pos) p q).ledger pos
    = { s.ledger pos with left := (s.ledger pos).left - 1 } := by
  unfold State.spareSwap
  dsimp only
  rw [State.ledger_spend, State.ledger_wr _ _ _ _ _ _ _ (spareSkip_not_ledger pos)]
  rfl

/-- A spare that is made fresh changes scratchpads alone. -/
theorem State.ledger_spareFresh (n : Nat) : ∃ m, (s.spareFresh n).ledger pos = { s.ledger pos with padMem := m } := ⟨_, rfl⟩

@[simp] theorem State.ledger_coresMove (before : State) (seg : Nat) : (before.coresMove s seg).ledger pos = s.ledger pos :=
  State.ledger_congr pos (fun _ _ _ => rfl) rfl rfl rfl

@[simp] theorem State.ledger_setEpState (c st : Nat) : (s.setEpState c st).ledger pos = s.ledger pos :=
  s.ledger_fset_core pos _ _ c (by decide)

@[simp] theorem State.ledger_ifill (c line lines byte : Nat) : (s.ifill c line lines byte).ledger pos = s.ledger pos :=
  State.ledger_congr pos (fun _ _ _ => rfl) rfl rfl rfl

/-- What a substitution enters: a spare spent, a position marked, and scratchpads changed. -/
theorem State.ledger_substitute (p q : Nat) : ∃ m, (s.substitute (segOfPos pos) p q).ledger pos
    = { s.ledger pos with
        left := (s.ledger pos).left - 1
        failed := setBits (s.ledger pos).failed p p 1 % 2 ^ 32
        padMem := m } := by
  obtain ⟨m, hm⟩ := s.ledger_spareFresh pos (posOf (segOfPos pos) q)
  refine ⟨m, ?_⟩
  unfold State.substitute
  dsimp only
  split
  · rw [State.ledger_setEpState, State.ledger_ifill, State.ledger_coresMove, State.ledger_spareSwap, State.ledger_markFailed, hm]
  · rw [State.ledger_coresMove, State.ledger_spareSwap, State.ledger_markFailed, hm]

/-! ## What a ledger tells of its state -/

/-- A state whose ledger has the same memories. -/
theorem MemKept.of_ledger {s t : State} {l : Ledger} (h : t.ledger pos = l) (hp : l.padMem = (s.ledger pos).padMem)
    (hs : l.stackMem = (s.ledger pos).stackMem) : MemKept s t := by
  subst h
  simp only [State.ledger, Prod.mk.injEq] at hp hs
  obtain ⟨h1, h2, h3⟩ := hp
  obtain ⟨h4, h5, h6⟩ := hs
  exact MemKept.of_eq h1 h2 h3 h4 h5 h6

theorem StacksKept.of_ledger {s t : State} {l : Ledger} (h : t.ledger pos = l) (hs : l.stackMem = (s.ledger pos).stackMem) :
    StacksKept s t := by
  subst h
  simp only [State.ledger, Prod.mk.injEq] at hs
  obtain ⟨h1, h2, h3⟩ := hs
  unfold StacksKept
  rw [h1, h2, h3]
  exact ⟨fun _ => rfl, fun _ => rfl, fun _ => rfl⟩

/-- A state whose ledger has a position of the segment marked. -/
theorem bit_of_ledger {t : State} {l : Ledger} (h : t.ledger pos = l) (v p : Nat) (hl : l.failed = setBits v p p 1 % 2 ^ 32)
    (hp : p < 32) : bit (t.fget F.MOD_SPARE_FAIL_FAILED 0 (segOfPos pos)) p = true := by
  subst h
  exact (congrArg (bit · p) hl).trans (bit_marked v p hp)

/-- A change of the map begins and ends (R34). -/
theorem gen_twice (g : Nat) : ((g + 1) % 2 ^ 32 + 1) % 2 ^ 32 = (g + 2) % 2 ^ 32 := by omega

theorem posIn_lt (n : Nat) : posIn n < 32 := Nat.mod_lt _ (by decide)

/-! ## Criteria (R415) -/

theorem exec_corePulseLapse (hu : s.boot.coresUp = true) (hp : s.parkedField (fieldOfPos pos) = false)
    (hw : s.fget F.PWR_STATUS_STATE < 2) : exec (.corePulseLapse pos) s = .next (s.critMet pos 1) := by
  have hn : ¬ 2 ≤ s.fget F.PWR_STATUS_STATE := by omega
  show execCorePulseLapse pos s = _
  simp [execCorePulseLapse, hu, hp, hn]

theorem State.coreFailWrite_phys (i : Nat) (he : s.flag F.MOD_CTRL_EXPERT = true) (hl : s.flag F.MOD_CTRL_LOCK = false)
    (hi : i < 19200) : s.coreFailWrite true i = s.critMet i 6 := by
  simp [State.coreFailWrite, he, hl, hi]

theorem State.coreFailWrite_logical (i : Nat) (he : s.flag F.MOD_CTRL_EXPERT = true) (hl : s.flag F.MOD_CTRL_LOCK = false)
    (hi : i < 18000) : s.coreFailWrite false i = s.critMet (s.phys i) 6 := by
  simp [State.coreFailWrite, he, hl, hi]

/-! ## Declarations (R415, R416) -/

/-- The criterion that was met first is taken up. -/
def State.critTaken (s : State) (rest : List (Nat × Nat)) : State := { s with hlth := { s.hlth with crit := rest } }

/-- A change waits to be handled. -/
def State.changeBegins (s : State) (c : Change) : State := { s with hlth := { s.hlth with changes := s.hlth.changes ++ [c] } }

theorem State.ledger_critTaken (rest : List (Nat × Nat)) : (s.critTaken rest).ledger pos = { s.ledger pos with crit := rest } := rfl

theorem State.ledger_changeBegins (c : Change) :
    (s.changeBegins c).ledger pos = { s.ledger pos with changes := (s.ledger pos).changes ++ [c] } := rfl

theorem exec_coreFailureDeclaration (q crit : Nat) (rest : List (Nat × Nat)) (h : s.hlth.crit = (q, crit) :: rest) :
    exec .coreFailureDeclaration s = .next ((s.critTaken rest).declare q crit) := by
  show execCoreFailureDeclaration s = _
  unfold execCoreFailureDeclaration
  rw [h]
  rfl

/-- A declaration of a spare that is healthy. -/
theorem State.declare_spare (q crit : Nat) (hf : s.posFailed q = false) (hc : s.hlth.changes.any (·.pos == q) = false)
    (hl : s.logical q = none) : s.declare q crit = ((s.coreFailed q crit).spareGen.spareFailed (segOfPos q) (posIn q)).spareGen := by
  simp [State.declare, hf, hc, hl]

/-- A declaration of the position of a logical core. -/
theorem State.declare_core (q crit : Nat) (hf : s.posFailed q = false) (hc : s.hlth.changes.any (·.pos == q) = false)
    (hl : (s.logical q).isSome = true) : s.declare q crit
      = ((((s.coreFailed q crit).slotsOfSeg (segOfPos q)).foldl State.slotHalt (s.coreFailed q crit)).changeBegins
          ⟨q, (((s.coreFailed q crit).slotsOfSeg (segOfPos q)).map (2 ^ ·)).sum⟩).recovery := by
  have hn : (s.logical q).isNone = false := by rw [← Option.not_isSome, hl]; rfl
  unfold State.declare
  simp only [hf, hc, hn, Bool.or_self, Bool.false_eq_true, if_false]
  rfl

/-- CORE_FAILED and its record leave the registers of tract slots. -/
theorem State.fget_coreFailed_tract (q crit : Nat) (f : Fld) (t : Nat) (hf : f.reg.defn.blk = .TRACT) :
    (s.coreFailed q crit).fget f t = s.fget f t := by
  have hr := s.raise_regsKept 0xA010 (s.posSource q).1 (s.posSource q).2 (crit + q * 2 ^ 16 + segOfPos q * 2 ^ 32)
    [RegId.MOD_EVT_WR.addr 0 0 0, RegId.MOD_EVT_LOST.addr 0 0 0] (.head _) (.tail _ (.head _))
  refine hr.fget f t 0 0 ?_
  rw [show RegId.MOD_EVT_WR.addr 0 0 0 = 0x40 from rfl, show RegId.MOD_EVT_LOST.addr 0 0 0 = 0x48 from rfl]
  simp only [RegId.addr, hf, Block.place, List.mem_cons, List.not_mem_nil, or_false]
  omega

theorem State.slotsOfSeg_coreFailed (q crit seg : Nat) : (s.coreFailed q crit).slotsOfSeg seg = s.slotsOfSeg seg := by
  simp (disch := decide) only [State.slotsOfSeg, State.tstate, State.inRect, State.fget_coreFailed_tract]

/-- What the declaration of a spare enters (R415). -/
theorem State.ledger_declare_spare (crit : Nat) (hf : s.posFailed pos = false) (hc : s.hlth.changes.any (·.pos == pos.val) = false)
    (hl : s.logical pos = none) : (s.declare pos crit).ledger pos = { s.ledger pos with
      gen := ((s.ledger pos).gen + 2) % 2 ^ 32
      left := (s.ledger pos).left - 1
      failed := setBits (s.ledger pos).failed (posIn pos) (posIn pos) 1 % 2 ^ 32 } := by
  rw [s.declare_spare pos crit hf hc hl, State.ledger_spareGen, State.ledger_spareFailed, State.ledger_spareGen,
    State.ledger_coreFailed]
  simp only [gen_twice]

/-- What the declaration of a logical core's position enters (R416). -/
theorem State.ledger_declare_core (crit : Nat) (hf : s.posFailed pos = false) (hc : s.hlth.changes.any (·.pos == pos.val) = false)
    (hl : (s.logical pos).isSome = true) : (s.declare pos crit).ledger pos = { s.ledger pos with
      changes := (s.ledger pos).changes ++ [⟨pos, ((s.slotsOfSeg (segOfPos pos)).map (2 ^ ·)).sum⟩] } := by
  rw [s.declare_core pos crit hf hc hl, State.ledger_recovery, State.ledger_changeBegins,
    ledger_foldl pos _ (fun b t => b.ledger_slotHalt pos t), State.ledger_coreFailed, State.slotsOfSeg_coreFailed]

/-- The slots of the segment are HALTED by the declaration (R416). -/
theorem State.declare_core_halts (q crit u : Nat) (hf : s.posFailed q = false) (hc : s.hlth.changes.any (·.pos == q) = false)
    (hl : (s.logical q).isSome = true) (hu : u ∈ s.slotsOfSeg (segOfPos q)) : (s.declare q crit).tstate u = tHALTED := by
  have hlt : u < 16 := List.mem_range.1 (List.mem_filter.1 hu).1
  rw [s.declare_core q crit hf hc hl, State.slotsOfSeg_coreFailed]
  refine (State.fget_fset_ne _ F.HLTH_STATUS_RECOVERY F.TRACT_STATUS_STATE _ _ _ _ _ _ _ ?_).trans ?_
  · simp only [RegId.addr, RegId.defn, Block.place]; omega
  · exact foldl_slotHalt_tstate _ _ u hu

/-! ## Changes (R417 to R420) -/

/-- A segment with a healthy spare has a nearest one (R32). -/
theorem State.nearSpare_of_spares (seg p : Nat) (h : s.spares seg ≠ []) : ∃ q, s.nearSpare seg p = some q := by
  rw [← Option.isSome_iff_exists]
  unfold State.nearSpare
  obtain ⟨a, l, e⟩ := List.exists_cons_of_ne_nil h
  rw [e]
  refine foldl_keeps (fun b : Option Nat => b.isSome = true) _ (fun b q hb => ?_) l _ rfl
  obtain ⟨c, rfl⟩ := Option.isSome_iff_exists.1 hb
  simp only [apply_ite Option.isSome, Option.isSome_some, ite_self]

/-- What a substitution enters, when the nearest spare passes. -/
theorem exec_spareSubstitution_ledger (ch : Change) (more : List Change) (h : s.hlth.changes = ch :: more) (hp : ch.pos = pos)
    (hs : s.spares (segOfPos pos) ≠ []) : ∃ t m, exec (.spareSubstitution []) s = .next t ∧ t.ledger pos = { s.ledger pos with
      gen := ((s.ledger pos).gen + 2) % 2 ^ 32
      left := (s.ledger pos).left - 1
      failed := setBits (s.ledger pos).failed (posIn pos) (posIn pos) 1 % 2 ^ 32
      subs := min ((s.ledger pos).subs + 1) (2 ^ 64 - 1)
      changes := more
      padMem := m } := by
  obtain ⟨q, hq⟩ := s.nearSpare_of_spares (segOfPos pos) (posIn pos) hs
  obtain ⟨m, hm⟩ := s.spareGen.ledger_substitute pos (posIn pos) q
  have he : (s.spares (segOfPos pos)).isEmpty = false := by simpa using hs
  have hc : (s.ledger pos).changes = ch :: more := h
  show ∃ t m, execSpareSubstitution [] s = .next t ∧ _
  unfold execSpareSubstitution
  rw [h]
  simp only [hp, he, State.spareTry, hq, Bool.false_eq_true, if_false]
  refine ⟨_, m, rfl, ?_⟩
  rw [State.ledger_changeDone, State.ledger_substituted, State.ledger_raise _ _ _ _ _ _ (by decide),
    ledger_foldl pos _ (fun b t => b.ledger_slotRestore pos t), State.ledger_spareGen, State.ledger_logRecord, hm,
    State.ledger_spareGen]
  simp only [gen_twice, hc, List.drop_one, List.tail_cons]

/-- What a re-placement enters, in a segment with no healthy spare. -/
theorem exec_rePlacement_ledger (ch : Change) (more : List Change) (h : s.hlth.changes = ch :: more) (hp : ch.pos = pos)
    (hs : s.spares (segOfPos pos) = []) : ∃ t, exec .rePlacement s = .next t ∧ t.ledger pos = { s.ledger pos with
      gen := ((s.ledger pos).gen + 2) % 2 ^ 32
      failed := setBits (s.ledger pos).failed (posIn pos) (posIn pos) 1 % 2 ^ 32
      changes := more } := by
  have hc : (s.ledger pos).changes = ch :: more := h
  show ∃ t, execRePlacement s = .next t ∧ _
  unfold execRePlacement
  rw [h]
  simp only [hp, hs, List.isEmpty_nil, Bool.not_true, Bool.false_eq_true, if_false]
  refine ⟨_, rfl, ?_⟩
  rw [State.ledger_changeDone, ledger_foldl pos _ (fun b k => b.ledger_awayReplace pos k),
    ledger_foldl pos _ (fun b t => b.ledger_slotReplace pos t), ledger_foldl pos _ (fun b t => b.ledger_slotRestore pos t),
    State.ledger_setDegraded, State.ledger_spareGen, State.ledger_logRecord, State.ledger_markFailed, State.ledger_spareGen]
  simp only [gen_twice, hc, List.drop_one, List.tail_cons]

/-! ## The obligation -/

/-- Settles O42: each command's claims are read off the ledger of the state that it leaves. -/
theorem coresFail : Obligations.CoresFail := by
  intro s pos crit rest seg p gen2 spent meets
  refine ⟨fun hu hp hw => ⟨_, exec_corePulseLapse s pos hu hp hw, rfl⟩, fun he hl => ⟨fun i hi => ?_, fun i hi => ?_⟩,
    fun h hf hc => ⟨fun hl => ?_, fun hl => ?_⟩, fun ch more h hp => ⟨fun hs => ?_, fun hs => ?_⟩⟩
  · exact ⟨_, rfl, s.coreFailWrite_phys i he hl hi⟩
  · exact ⟨_, rfl, s.coreFailWrite_logical i he hl hi⟩
  · have ht := (s.critTaken rest).ledger_declare_core pos crit hf hc hl
    have halts := fun u hu => (s.critTaken rest).declare_core_halts pos crit u hf hc hl hu
    refine ⟨_, exec_coreFailureDeclaration s pos crit rest h, ?_⟩
    generalize (s.critTaken rest).declare pos crit = t at ht halts
    rw [State.ledger_critTaken] at ht
    exact ⟨congrArg Ledger.crit ht, halts, congrArg Ledger.changes ht, .of_ledger pos ht rfl rfl⟩
  · have ht := (s.critTaken rest).ledger_declare_spare pos crit hf hc hl
    refine ⟨_, exec_coreFailureDeclaration s pos crit rest h, ?_⟩
    generalize (s.critTaken rest).declare pos crit = t at ht
    rw [State.ledger_critTaken] at ht
    exact ⟨congrArg Ledger.crit ht, congrArg Ledger.gen ht, congrArg Ledger.left ht, bit_of_ledger pos ht _ _ rfl (posIn_lt pos),
      congrArg Ledger.changes ht, .of_ledger pos ht rfl rfl⟩
  · obtain ⟨t, m, he, ht⟩ := exec_spareSubstitution_ledger s pos ch more h hp hs
    exact ⟨t, he, congrArg Ledger.changes ht, congrArg Ledger.gen ht, congrArg Ledger.left ht, congrArg Ledger.subs ht,
      .of_ledger pos ht rfl⟩
  · obtain ⟨t, he, ht⟩ := exec_rePlacement_ledger s pos ch more h hp hs
    exact ⟨t, he, congrArg Ledger.changes ht, congrArg Ledger.gen ht, bit_of_ledger pos ht _ _ rfl (posIn_lt pos),
      .of_ledger pos ht rfl rfl⟩

end Sys2Proof.Machine
end

section
/-! # The engines of a core: time, frames, and the four states under ENABLE (R111, R155) -/

namespace Sys2Proof.Machine

variable (s : State) (c : Nat)

/-! ## The records of the engines -/

theorem mxc_congr {s t : State} (h : t.mx = s.mx) (d : Nat) : t.mxc d = s.mxc d := by rw [State.mxc, State.mxc, h]
theorem vxc_congr {s t : State} (h : t.vx = s.vx) (d : Nat) : t.vxc d = s.vxc d := by rw [State.vxc, State.vxc, h]
theorem spCore_congr {s t : State} (h : t.spc = s.spc) (d : Nat) : t.spCore d = s.spCore d := by rw [State.spCore, State.spCore, h]

@[simp] theorem State.fset_mxc (f : Fld) (v i d : Nat) : (s.fset f v i).mxc d = s.mxc d := rfl
@[simp] theorem State.fset_vxc (f : Fld) (v i d : Nat) : (s.fset f v i).vxc d = s.vxc d := rfl

/-! ## Waiting for an instant of TB -/

/-- All that waiting for an instant of TB does: the clocks, CLK_SKIMMED (R433). -/
theorem State.atTb_eq (n : Nat) : ∃ (k : Clock) (m : SMap Word64), s.atTb n = { s with clk := k, regs := m }
    ∧ ∀ a d, a ≠ RegId.CLK_SKIMMED.addr 0 0 0 → mget d m a = mget d s.regs a := by
  obtain e | ⟨x, e⟩ := s.atTb_adv n
  · exact ⟨s.clk, s.regs, e, fun _ _ _ => rfl⟩
  · obtain ⟨m, h, hm⟩ := s.adv_eq x
    exact ⟨_, m, e.trans h, hm⟩

theorem State.atTb_regsKept (n : Nat) (l : List Nat) (h : RegId.CLK_SKIMMED.addr 0 0 0 ∈ l) : RegsKept s (s.atTb n) l := by
  intro a d ha
  obtain ⟨k, m, e, hm⟩ := s.atTb_eq n
  rw [e]
  exact hm a d fun e' => ha (e' ▸ h)

@[simp] theorem State.atTb_mx (n : Nat) : (s.atTb n).mx = s.mx := by
  obtain ⟨k, m, e, -⟩ := s.atTb_eq n
  rw [e]

@[simp] theorem State.atTb_vx (n : Nat) : (s.atTb n).vx = s.vx := by
  obtain ⟨k, m, e, -⟩ := s.atTb_eq n
  rw [e]

@[simp] theorem State.atTb_ep (n : Nat) : (s.atTb n).ep = s.ep := by
  obtain ⟨k, m, e, -⟩ := s.atTb_eq n
  rw [e]

@[simp] theorem State.atTb_spc (n : Nat) : (s.atTb n).spc = s.spc := by
  obtain ⟨k, m, e, -⟩ := s.atTb_eq n
  rw [e]

@[simp] theorem State.atTb_mxc (n d : Nat) : (s.atTb n).mxc d = s.mxc d := mxc_congr (s.atTb_mx n) d

@[simp] theorem State.atTb_vxc (n d : Nat) : (s.atTb n).vxc d = s.vxc d := vxc_congr (s.atTb_vx n) d

@[simp] theorem State.atTb_core (n d : Nat) : (s.atTb n).core d = s.core d := core_congr (s.atTb_ep n) d

@[simp] theorem State.atTb_spCore (n d : Nat) : (s.atTb n).spCore d = s.spCore d := spCore_congr (s.atTb_spc n) d

/-- A register in the block of a core is not CLK_SKIMMED. -/
theorem RegId.addr_ne_skimmed (r : RegId) (i j k : Nat) (h : r.defn.blk.place.1 = 0x4000000) :
    r.addr i j k ≠ RegId.CLK_SKIMMED.addr 0 0 0 := by
  rw [show RegId.CLK_SKIMMED.addr 0 0 0 = 0x100120 from rfl, RegId.addr, h]
  omega

theorem State.rd_atTb (n : Nat) (r : RegId) (i j k : Nat) (h : r.defn.blk.place.1 = 0x4000000) :
    (s.atTb n).rd r i j k = s.rd r i j k :=
  (s.atTb_regsKept n [RegId.CLK_SKIMMED.addr 0 0 0] (.head _)).rd r i j k
    (by rw [List.mem_singleton]; exact r.addr_ne_skimmed i j k h)

theorem State.fget_atTb (n : Nat) (f : Fld) (i j k : Nat) (h : f.reg.defn.blk.place.1 = 0x4000000) :
    (s.atTb n).fget f i j k = s.fget f i j k := by
  rw [State.fget, State.fget, s.rd_atTb n f.reg i j k h]

/-! ## The frame of an engine's command -/

/-- Nothing differs but the clocks, CLK_SKIMMED and the registers named, and of core c its two engines, its Epru's record and its
scratchpad's requests. -/
def EngFrame (regs : List Nat) (s t : State) : Prop :=
  RegsKept s t (RegId.CLK_SKIMMED.addr 0 0 0 :: regs)
    ∧ (∀ d, d ≠ c → t.mxc d = s.mxc d ∧ t.vxc d = s.vxc d ∧ t.core d = s.core d ∧ t.spCore d = s.spCore d)
    ∧ { t with clk := s.clk, regs := s.regs, ep := s.ep, mx := s.mx, vx := s.vx, spc := s.spc } = s

section
variable {s c} {t u : State} {regs : List Nat}

theorem EngFrame.refl (s : State) (c : Nat) (regs : List Nat) : EngFrame c regs s s :=
  ⟨RegsKept.refl s _, fun _ _ => ⟨rfl, rfl, rfl, rfl⟩, rfl⟩

theorem EngFrame.trans (h : EngFrame c regs s t) (h' : EngFrame c regs t u) : EngFrame c regs s u := by
  obtain ⟨hr, ho, he⟩ := h
  obtain ⟨hr', ho', he'⟩ := h'
  refine ⟨hr.trans hr', fun d hd => ?_, ?_⟩
  · obtain ⟨m, v, e, p⟩ := ho d hd
    obtain ⟨m', v', e', p'⟩ := ho' d hd
    exact ⟨m'.trans m, v'.trans v, e'.trans e, p'.trans p⟩
  · exact (congrArg (fun x : State =>
      { x with clk := s.clk, regs := s.regs, ep := s.ep, mx := s.mx, vx := s.vx, spc := s.spc }) he').trans he

/-- The memories are outside an engine's frame. -/
theorem EngFrame.memKept (h : EngFrame c regs s t) : MemKept s t := by
  show MemKept s { t with clk := s.clk, regs := s.regs, ep := s.ep, mx := s.mx, vx := s.vx, spc := s.spc }
  rw [h.2.2]
  exact MemKept.refl s

/-- A command of the matrix engine leaves the vector engine. -/
theorem EngFrame.mxFrame (h : EngFrame c regs s t) (hv : t.vx = s.vx) : MxFrame c regs s t := by
  obtain ⟨hr, ho, he⟩ := id h
  refine ⟨hr, h.memKept, fun d hd => ?_, ?_⟩
  · obtain ⟨m, -, e, p⟩ := ho d hd
    exact ⟨m, e, p⟩
  · rwa [← hv] at he

/-- A command of the vector engine leaves the matrix engine. -/
theorem EngFrame.vxFrame (h : EngFrame c regs s t) (hm : t.mx = s.mx) : VxFrame c regs s t := by
  obtain ⟨hr, ho, he⟩ := id h
  refine ⟨hr, h.memKept, fun d hd => ?_, ?_⟩
  · obtain ⟨-, v, e, p⟩ := ho d hd
    exact ⟨v, e, p⟩
  · rwa [← hm] at he

/-- An update of the clocks and registers alone. -/
theorem EngFrame.of_regs (k : Clock) (m : SMap Word64)
    (hm : ∀ a d, a ∉ RegId.CLK_SKIMMED.addr 0 0 0 :: regs → mget d m a = mget d s.regs a) :
    EngFrame c regs s { s with clk := k, regs := m } :=
  ⟨hm, fun _ _ => ⟨rfl, rfl, rfl, rfl⟩, rfl⟩

theorem EngFrame.atTb (h : EngFrame c regs s t) (n : Nat) : EngFrame c regs s (t.atTb n) := by
  obtain ⟨k, m, e, hm⟩ := t.atTb_eq n
  rw [e]
  exact h.trans (.of_regs k m fun a d ha => hm a d fun e => ha (e ▸ .head _))

theorem EngFrame.wr (h : EngFrame c regs s t) (r : RegId) (v : Word64) (i j k : Nat) (hr : r.addr i j k ∈ regs) :
    EngFrame c regs s (t.wr r v i j k) :=
  h.trans (.of_regs t.clk _ (t.wr_regsKept r v i j k _ (.tail _ hr)))

theorem EngFrame.fset (h : EngFrame c regs s t) (f : Fld) (v i j k : Nat) (hf : f.reg.addr i j k ∈ regs) :
    EngFrame c regs s (t.fset f v i j k) := h.wr f.reg _ i j k hf

theorem EngFrame.count (h : EngFrame c regs s t) (r : RegId) (n i j k : Nat) (hl : liveKey r i = none) (hr : r.addr i j k ∈ regs) :
    EngFrame c regs s (t.count r n i j k) := by
  unfold State.count
  rw [hl]
  exact h.wr r _ i j k hr

theorem EngFrame.setMx (h : EngFrame c regs s t) (x : Mx) : EngFrame c regs s (t.setMx c x) :=
  h.trans ⟨RegsKept.refl t _, fun d hd => ⟨t.mxc_setMx_ne c d x hd, rfl, rfl, rfl⟩, rfl⟩

theorem EngFrame.setVx (h : EngFrame c regs s t) (x : Vx) : EngFrame c regs s (t.setVx c x) :=
  h.trans ⟨RegsKept.refl t _, fun d hd => ⟨rfl, t.vxc_setVx_ne c d x hd, rfl, rfl⟩, rfl⟩

theorem EngFrame.setCore (h : EngFrame c regs s t) (x : Epru) : EngFrame c regs s (t.setCore c x) :=
  h.trans ⟨RegsKept.refl t _, fun d hd => ⟨rfl, rfl, t.core_setCore_ne c d x hd, rfl⟩, rfl⟩

theorem EngFrame.setSp (h : EngFrame c regs s t) (x : SpCore) : EngFrame c regs s (t.setSp c x) :=
  h.trans ⟨RegsKept.refl t _, fun d hd => ⟨rfl, rfl, rfl, t.spCore_setSp_ne c d x hd⟩, rfl⟩

theorem EngFrame.mono {l : List Nat} (h : EngFrame c regs s t) (hl : ∀ a ∈ regs, a ∈ l) : EngFrame c l s t :=
  ⟨h.1.mono fun a ha => by
    obtain rfl | ha := List.mem_cons.1 ha
    · exact .head _
    · exact .tail _ (hl a ha), h.2⟩

end

/-! ## The four states of a stoppable engine (R111) -/

/-- A change of the engines' records of core c alone. -/
def RecordOnly (c : Nat) (s t : State) : Prop := t.regs = s.regs ∧ EngFrame c [] s t

theorem RecordOnly.setMx (x : Mx) : RecordOnly c s (s.setMx c x) := ⟨rfl, (EngFrame.refl s c _).setMx x⟩
theorem RecordOnly.setVx (x : Vx) : RecordOnly c s (s.setVx c x) := ⟨rfl, (EngFrame.refl s c _).setVx x⟩

/-- A stoppable engine of core c: its registers CTRL and STATUS, which stand at different offsets in the block of the core, and what
happens to its record when it begins enabling, begins stopping, breaks off enabling, has stopped, and has stopped to enable again. -/
structure StopEngine (c : Nat) where
  ctrl : RegId
  status : RegId
  start : State → State
  stop : State → State
  back : State → State
  idle : State → State
  again : State → State
  place_eq : ctrl.defn.blk.place = status.defn.blk.place
  off_ne : ctrl.defn.off ≠ status.defn.off
  in_core : status.defn.blk.place.1 = 0x4000000
  start_record : ∀ s, RecordOnly c s (start s)
  stop_record : ∀ s, RecordOnly c s (stop s)
  back_record : ∀ s, RecordOnly c s (back s)
  idle_record : ∀ s, RecordOnly c s (idle s)
  again_record : ∀ s, RecordOnly c s (again s)

def mxEngine (c : Nat) : StopEngine c where
  ctrl := .MX_CTRL
  status := .MX_STATUS
  start s := s.setMx c { s.mxc c with enabling := some s.clk.tb }
  stop s := s.setMx c { s.mxc c with stopping := some ((s.mxc c).drainNow s.clk.tb false 0) }
  back s := s.setMx c { s.mxc c with enabling := none }
  idle s := s.setMx c { s.mxc c with stopping := none }
  again s := s.setMx c { s.mxc c with stopping := none, enabling := some (s.clk.tb + 1) }
  place_eq := rfl
  off_ne := by decide
  in_core := rfl
  start_record s := .setMx s c _
  stop_record s := .setMx s c _
  back_record s := .setMx s c _
  idle_record s := .setMx s c _
  again_record s := .setMx s c _

def vxEngine (c : Nat) : StopEngine c where
  ctrl := .VX_CTRL
  status := .VX_STATUS
  start s := s.setVx c { s.vxc c with enabling := some s.clk.tb }
  stop s := s.setVx c { s.vxc c with stopping := some ((s.vxc c).drainNow s.clk.tb false 0) }
  back s := s.setVx c { s.vxc c with enabling := none }
  idle s := s.setVx c { s.vxc c with stopping := none }
  again s := s.setVx c { s.vxc c with stopping := none, enabling := some (s.clk.tb + 1) }
  place_eq := rfl
  off_ne := by decide
  in_core := rfl
  start_record s := .setVx s c _
  stop_record s := .setVx s c _
  back_record s := .setVx s c _
  idle_record s := .setVx s c _
  again_record s := .setVx s c _

section
variable {c}

namespace StopEngine

variable (E : StopEngine c)

/-- ENABLE of CTRL; STATE and ENABLE_PENDING of STATUS. -/
abbrev enableFld : Fld := ⟨E.ctrl, 0, 0⟩
abbrev stateFld : Fld := ⟨E.status, 1, 0⟩
abbrev pendingFld : Fld := ⟨E.status, 4, 4⟩

/-- A write of ENABLE. -/
def write (v : Bool) (s : State) : State :=
  let s := s.fset E.enableFld (b2n v) c
  let st := s.fget E.stateFld c
  if v then
    if st = eDISABLED then (E.start s).fset E.stateFld eENABLING c
    else if st = eSTOPPING then s.fset E.pendingFld 1 c
    else s
  else if st = eENABLED then (E.stop s).fset E.stateFld eSTOPPING c
  else if st = eENABLING then (E.back s).fset E.stateFld eDISABLED c
  else s.fset E.pendingFld 0 c

/-- The end of a stop. -/
def stopped (s : State) : State :=
  if s.flag E.pendingFld c then ((E.again s).fset E.pendingFld 0 c).fset E.stateFld eENABLING c
  else (E.idle s).fset E.stateFld eDISABLED c

/-- The engine is in state n, and nothing differs but what its commands may change. -/
def StepsTo (n : Nat) (s t : State) : Prop :=
  t.fget E.stateFld c = n ∧ EngFrame c [E.status.addr c 0 0, E.ctrl.addr c 0 0] s t

variable {E} {n m : Nat} {s t u : State}

theorem StepsTo.record (h : E.StepsTo n s t) (hu : RecordOnly c t u) : E.StepsTo n s u :=
  ⟨(t.fget_congr u _ _ _ _ hu.1).trans h.1, h.2.trans (hu.2.mono fun _ h => nomatch h)⟩

/-- STATE is set to one of the four states. -/
theorem StepsTo.setState (h : E.StepsTo n s t) (hm : m < 4) : E.StepsTo m s (t.fset E.stateFld m c) :=
  ⟨(t.fget_fset_same E.stateFld m c 0 0 (by simp) (by simp)).trans (Nat.mod_eq_of_lt hm), h.2.fset E.stateFld m c 0 0 (.head _)⟩

/-- ENABLE_PENDING stands beside STATE. -/
theorem StepsTo.setPending (h : E.StepsTo n s t) (v : Nat) : E.StepsTo n s (t.fset E.pendingFld v c) :=
  ⟨(t.fget_fset_beside E.pendingFld E.stateFld v c rfl (by simp)).trans h.1, h.2.fset E.pendingFld v c 0 0 (.head _)⟩

variable (E s)

theorem stepsTo_atTb (k : Nat) : E.StepsTo (s.fget E.stateFld c) s (s.atTb k) :=
  ⟨s.fget_atTb k E.stateFld c 0 0 E.in_core, (EngFrame.refl s c _).atTb k⟩

theorem stepsTo_enable (v : Nat) : E.StepsTo (s.fget E.stateFld c) s (s.fset E.enableFld v c) :=
  ⟨s.fget_fset_reg E.enableFld E.stateFld v c c E.place_eq.symm E.off_ne.symm,
    (EngFrame.refl s c _).fset E.enableFld v c 0 0 (.tail _ (.head _))⟩

theorem pending_set (v : Bool) : (s.fset E.pendingFld (b2n v) c).flag E.pendingFld c = v := by
  rw [State.flag, s.fget_fset_same E.pendingFld _ c 0 0 (by simp) (by simp)]
  cases v <;> rfl

theorem pending_setState (k : Nat) : (s.fset E.stateFld k c).flag E.pendingFld c = s.flag E.pendingFld c := by
  rw [State.flag, State.flag, s.fget_fset_beside E.stateFld E.pendingFld k c rfl (by simp)]

theorem enable_set (v : Bool) : (s.fset E.enableFld (b2n v) c).flag E.enableFld c = v := by
  rw [State.flag, s.fget_fset_same E.enableFld _ c 0 0 (by simp) (by simp)]
  cases v <;> rfl

/-- ENABLE stays as written through a change of the engine's record and of STATUS. -/
theorem enable_kept (v : Bool) (t : State) (f : Fld) (hf : f.reg = E.status) (k : Nat)
    (hr : t.regs = (s.fset E.enableFld (b2n v) c).regs) : (t.fset f k c).flag E.enableFld c = v := by
  rw [State.flag, t.fget_fset_reg f E.enableFld k c c (hf ▸ E.place_eq) (hf ▸ E.off_ne), State.fget_congr _ _ _ _ _ _ hr]
  exact E.enable_set s v

/-- What setting a field and changing the engine's record keep, a write of ENABLE and the end of a stop keep. -/
theorem write_keeps {β : Type} (g : State → β) (hf : ∀ u f x, g (State.fset u f x c) = g u) (hstart : ∀ u, g (E.start u) = g u)
    (hstop : ∀ u, g (E.stop u) = g u) (hback : ∀ u, g (E.back u) = g u) (v : Bool) : g (E.write v s) = g s := by
  simp only [write, apply_ite g, hf, hstart, hstop, hback, ite_self]

theorem stopped_keeps {β : Type} (g : State → β) (hf : ∀ u f x, g (State.fset u f x c) = g u) (hagain : ∀ u, g (E.again u) = g u)
    (hidle : ∀ u, g (E.idle u) = g u) : g (E.stopped s) = g s := by
  simp only [stopped, apply_ite g, hf, hagain, hidle, ite_self]

/-- A write of ENABLE = 1 (R111). -/
theorem write_true : (E.write true s).flag E.enableFld c = true
    ∧ E.StepsTo (if s.fget E.stateFld c = eDISABLED then eENABLING else s.fget E.stateFld c) s (E.write true s)
    ∧ (s.fget E.stateFld c = eDISABLED → E.write true s = (E.start (s.fset E.enableFld 1 c)).fset E.stateFld eENABLING c)
    ∧ (s.fget E.stateFld c = eSTOPPING → (E.write true s).flag E.pendingFld c = true) := by
  have hu := E.stepsTo_enable s 1
  have hf := E.enable_kept s true
  rw [write, if_pos rfl, show b2n true = 1 from rfl, hu.1]
  split
  next hd => exact ⟨hf _ _ rfl _ (E.start_record _).1, (hu.record (E.start_record _)).setState (by decide), fun _ => rfl,
    fun hs => absurd (hd.symm.trans hs) (by decide)⟩
  next hd =>
    split
    next hs => exact ⟨hf _ _ rfl _ rfl, hu.setPending 1, fun h => absurd h hd, fun _ => E.pending_set _ true⟩
    next hs => exact ⟨E.enable_set s true, hu, fun h => absurd h hd, fun h => absurd h hs⟩

/-- A write of ENABLE = 0 (R111). -/
theorem write_false : (E.write false s).flag E.enableFld c = false
    ∧ E.StepsTo (if s.fget E.stateFld c = eENABLED then eSTOPPING
        else if s.fget E.stateFld c = eENABLING then eDISABLED else s.fget E.stateFld c) s (E.write false s)
    ∧ (s.fget E.stateFld c = eSTOPPING → (E.write false s).flag E.pendingFld c = false)
    ∧ (s.fget E.stateFld c = eENABLED → E.write false s = (E.stop (s.fset E.enableFld 0 c)).fset E.stateFld eSTOPPING c) := by
  have hu := E.stepsTo_enable s 0
  have hf := E.enable_kept s false
  rw [write, if_neg Bool.false_ne_true, show b2n false = 0 from rfl, hu.1]
  split
  next he => exact ⟨hf _ _ rfl _ (E.stop_record _).1, (hu.record (E.stop_record _)).setState (by decide),
    fun hs => absurd (he.symm.trans hs) (by decide), fun _ => rfl⟩
  next he =>
    split
    next hg => exact ⟨hf _ _ rfl _ (E.back_record _).1, (hu.record (E.back_record _)).setState (by decide),
      fun hs => absurd (hg.symm.trans hs) (by decide), fun h => absurd h he⟩
    next hg => exact ⟨hf _ _ rfl _ rfl, hu.setPending 0, fun _ => E.pending_set _ false, fun h => absurd h he⟩

/-- A stop that has ended at an instant (R111). -/
theorem stopped_atTb (k : Nat) : (E.stopped (s.atTb k)).flag E.pendingFld c = false
    ∧ E.StepsTo (if s.flag E.pendingFld c then eENABLING else eDISABLED) s (E.stopped (s.atTb k)) := by
  have hu := E.stepsTo_atTb s k
  have hp : (s.atTb k).flag E.pendingFld c = s.flag E.pendingFld c := by
    rw [State.flag, State.flag, s.fget_atTb k _ c 0 0 E.in_core]
  rw [stopped, hp]
  split
  next h => exact ⟨(E.pending_setState _ _).trans (E.pending_set _ false),
      ((hu.record (E.again_record _)).setPending 0).setState (by decide)⟩
  next h =>
    refine ⟨?_, (hu.record (E.idle_record _)).setState (by decide)⟩
    rw [E.pending_setState, State.flag, State.fget_congr _ _ _ _ _ _ (E.idle_record _).1]
    exact hp.trans (Bool.eq_false_iff.2 h)

end StopEngine

end

/-! ## The commands of the two engines -/

theorem State.mxEnable_eq (v : Bool) : s.mxEnable c v = (mxEngine c).write v s := rfl
theorem State.vxEnable_eq (v : Bool) : s.vxEnable c v = (vxEngine c).write v s := rfl

theorem exec_mxStoppingEnd (c : Core) (d : Drain) (b : Nat) (hs : (s.mxc c).stopping = some d) (ht : d.t = some b)
    (hv : (s.mxc c).vecs = []) : exec (.mxStoppingEnd c) s = .next ((mxEngine c).stopped (s.atTb (max (d.d + 8) b))) := by
  show execMxStoppingEnd c s = _
  unfold execMxStoppingEnd
  simp only [hs, ht, hv, List.any_nil, Bool.false_eq_true, if_false]
  exact (apply_ite Host.Outcome.next _ _ _).symm

theorem exec_vxStoppingEnd (c : Core) (d : Drain) (b : Nat) (hs : (s.vxc c).stopping = some d) (ht : d.t = some b) :
    exec (.vxStoppingEnd c) s = .next ((vxEngine c).stopped (s.atTb (max (d.d + 8) b))) := by
  show execVxStoppingEnd c s = _
  unfold execVxStoppingEnd
  simp only [hs, ht]
  exact (apply_ite Host.Outcome.next _ _ _).symm

theorem exec_mxEnablingEnd (c : Core) (b : Nat) (h : (s.mxc c).enabling = some b) :
    exec (.mxEnablingEnd c) s = .next (((mxEngine c).back (s.atTb (b + 16))).fset F.MX_STATUS_STATE eENABLED c) := by
  show execMxEnablingEnd c s = _
  simp only [execMxEnablingEnd, h]
  rfl

theorem exec_vxEnablingEnd (c : Core) (b : Nat) (h : (s.vxc c).enabling = some b) :
    exec (.vxEnablingEnd c) s = .next (((vxEngine c).back (s.atTb (b + 16))).fset F.VX_STATUS_STATE eENABLED c) := by
  show execVxEnablingEnd c s = _
  simp only [execVxEnablingEnd, h]
  rfl

theorem mxEngine_write_vx (v : Bool) : ((mxEngine c).write v s).vx = s.vx :=
  (mxEngine c).write_keeps s State.vx (fun _ _ _ => rfl) (fun _ => rfl) (fun _ => rfl) (fun _ => rfl) v

theorem vxEngine_write_mx (v : Bool) : ((vxEngine c).write v s).mx = s.mx :=
  (vxEngine c).write_keeps s State.mx (fun _ _ _ => rfl) (fun _ => rfl) (fun _ => rfl) (fun _ => rfl) v

theorem mxEngine_stopped_vx : ((mxEngine c).stopped s).vx = s.vx :=
  (mxEngine c).stopped_keeps s State.vx (fun _ _ _ => rfl) (fun _ => rfl) fun _ => rfl

theorem vxEngine_stopped_mx : ((vxEngine c).stopped s).mx = s.mx :=
  (vxEngine c).stopped_keeps s State.mx (fun _ _ _ => rfl) (fun _ => rfl) fun _ => rfl

theorem mxEngine_stopped_stopping : (((mxEngine c).stopped s).mxc c).stopping = none := by
  unfold StopEngine.stopped
  split <;> simp only [State.fset_mxc] <;> exact congrArg Mx.stopping (State.mxc_setMx_same _ _ _)

theorem vxEngine_stopped_stopping : (((vxEngine c).stopped s).vxc c).stopping = none := by
  unfold StopEngine.stopped
  split <;> simp only [State.fset_vxc] <;> exact congrArg Vx.stopping (State.vxc_setVx_same _ _ _)

theorem matrixEngineEnables : Claim.MatrixEngineEnables := by
  intro s c st stepsTo
  have steps : ∀ {n t}, (mxEngine c).StepsTo n s t → t.vx = s.vx → stepsTo n t := fun h hv => ⟨h.1, h.2.mxFrame hv⟩
  refine ⟨⟨_, rfl, ?_⟩, ⟨_, rfl, ?_⟩, fun b hb => ⟨_, exec_mxEnablingEnd s c b hb, ?_, ?_⟩,
    fun d b hs ht hv => ⟨_, exec_mxStoppingEnd s c d b hs ht hv, mxEngine_stopped_stopping _ c, ?_⟩⟩
  · obtain ⟨he, hst, hd, hp⟩ := (mxEngine c).write_true s
    refine ⟨he, steps hst (mxEngine_write_vx s c true), fun h => ?_, hp⟩
    rw [s.mxEnable_eq c true, hd h, State.fset_mxc]
    exact congrArg Mx.enabling (State.mxc_setMx_same _ _ _)
  · obtain ⟨he, hst, hp, hd⟩ := (mxEngine c).write_false s
    refine ⟨he, steps hst (mxEngine_write_vx s c false), hp, fun h => ?_⟩
    rw [s.mxEnable_eq c false, hd h, State.fset_mxc]
    exact ⟨_, congrArg Mx.stopping (State.mxc_setMx_same _ _ _), rfl⟩
  · exact steps ((((mxEngine c).stepsTo_atTb s (b + 16)).record (StopEngine.back_record _ _)).setState (by decide)) (s.atTb_vx _)
  · exact congrArg Mx.enabling (State.mxc_setMx_same _ _ _)
  · obtain ⟨hp, hst⟩ := (mxEngine c).stopped_atTb s (max (d.d + 8) b)
    exact ⟨hp, steps hst ((mxEngine_stopped_vx _ _).trans (s.atTb_vx _))⟩

theorem vectorEngineEnables : Claim.VectorEngineEnables := by
  intro s c st stepsTo
  have steps : ∀ {n t}, (vxEngine c).StepsTo n s t → t.mx = s.mx → stepsTo n t := fun h hm => ⟨h.1, h.2.vxFrame hm⟩
  refine ⟨⟨_, rfl, ?_⟩, ⟨_, rfl, ?_⟩, fun b hb => ⟨_, exec_vxEnablingEnd s c b hb, ?_, ?_⟩,
    fun d b hs ht => ⟨_, exec_vxStoppingEnd s c d b hs ht, vxEngine_stopped_stopping _ c, ?_⟩⟩
  · obtain ⟨he, hst, hd, hp⟩ := (vxEngine c).write_true s
    refine ⟨he, steps hst (vxEngine_write_mx s c true), fun h => ?_, hp⟩
    rw [s.vxEnable_eq c true, hd h, State.fset_vxc]
    exact congrArg Vx.enabling (State.vxc_setVx_same _ _ _)
  · obtain ⟨he, hst, hp, hd⟩ := (vxEngine c).write_false s
    refine ⟨he, steps hst (vxEngine_write_mx s c false), hp, fun h => ?_⟩
    rw [s.vxEnable_eq c false, hd h, State.fset_vxc]
    exact ⟨_, congrArg Vx.stopping (State.vxc_setVx_same _ _ _), rfl⟩
  · exact steps ((((vxEngine c).stepsTo_atTb s (b + 16)).record (StopEngine.back_record _ _)).setState (by decide)) (s.atTb_mx _)
  · exact congrArg Vx.enabling (State.vxc_setVx_same _ _ _)
  · obtain ⟨hp, hst⟩ := (vxEngine c).stopped_atTb s (max (d.d + 8) b)
    exact ⟨hp, steps hst ((vxEngine_stopped_mx _ _).trans (s.atTb_mx _))⟩

/-- Settles O13: both engines follow the one description of a stoppable engine. -/
theorem enginesEnable : Obligations.EnginesEnable := ⟨matrixEngineEnables, vectorEngineEnables⟩

end Sys2Proof.Machine
end

section
/-! # The matrix engine's LOADs (R91, R92) -/

namespace Sys2Proof.Machine

variable (s : State) (c : Nat)

/-! ## Requests at a scratchpad's ports -/

/-- Nothing differs but the record of core c's scratchpad. -/
def SpOnly (c : Nat) (s t : State) : Prop := (∀ d, d ≠ c → t.spCore d = s.spCore d) ∧ { t with spc := s.spc } = s

section
variable {s c} {t u : State}

theorem SpOnly.refl (s : State) (c : Nat) : SpOnly c s s := ⟨fun _ _ => rfl, rfl⟩

theorem SpOnly.setSp (h : SpOnly c s t) (x : SpCore) : SpOnly c s (t.setSp c x) :=
  ⟨fun d hd => (t.spCore_setSp_ne c d x hd).trans (h.1 d hd), h.2⟩

theorem SpOnly.present (h : SpOnly c s t) (port line : Nat) (use : SpUse) (wr : Option SpWr) (tb : Nat) :
    SpOnly c s (t.present c port line use wr tb) := h.setSp _

theorem SpOnly.clk (h : SpOnly c s t) : t.clk = s.clk := (congrArg State.clk h.2 :)
theorem SpOnly.regs (h : SpOnly c s t) : t.regs = s.regs := (congrArg State.regs h.2 :)
theorem SpOnly.mx (h : SpOnly c s t) : t.mx = s.mx := (congrArg State.mx h.2 :)
theorem SpOnly.vx (h : SpOnly c s t) : t.vx = s.vx := (congrArg State.vx h.2 :)
theorem SpOnly.ep (h : SpOnly c s t) : t.ep = s.ep := (congrArg State.ep h.2 :)

theorem SpOnly.mxc (h : SpOnly c s t) (d : Nat) : t.mxc d = s.mxc d := mxc_congr h.mx d
theorem SpOnly.vxc (h : SpOnly c s t) (d : Nat) : t.vxc d = s.vxc d := vxc_congr h.vx d
theorem SpOnly.core (h : SpOnly c s t) (d : Nat) : t.core d = s.core d := core_congr h.ep d

theorem SpOnly.engFrame (h : SpOnly c s t) (regs : List Nat) : EngFrame c regs s t := by
  refine ⟨fun a d _ => by rw [h.regs], fun d hd => ⟨h.mxc d, h.vxc d, h.core d, h.1 d hd⟩, ?_⟩
  exact congrArg (fun x : State => { x with clk := s.clk, regs := s.regs, ep := s.ep, mx := s.mx, vx := s.vx }) h.2

end

/-- A request that is presented stands last at its port. -/
theorem State.reqs_present_same (port line : Nat) (use : SpUse) (wr : Option SpWr) (tb : Nat) :
    mget [] ((s.present c port line use wr tb).spCore c).reqs port = mget [] (s.spCore c).reqs port ++ [⟨line, use, wr, tb⟩] := by
  rw [State.present, State.spCore_setSp_same]
  exact mget_mupd_same [] (s.spCore c).reqs port fun q => q ++ [⟨line, use, wr, tb⟩]

/-- What a map holds at a key is its default or stands in an entry. -/
theorem mget_mem {α : Type} (d : α) (m : SMap α) (k : Nat) : mget d m k = d ∨ ∃ j, (j, mget d m k) ∈ m := by
  induction m with
  | nil => exact .inl rfl
  | cons e m ih =>
    rw [mget_cons]
    split
    · exact .inr ⟨e.1, .head _⟩
    · exact ih.imp_right fun ⟨j, h⟩ => ⟨j, .tail _ h⟩

/-! ## A LOAD begins (R92) -/

/-- Is the access one of the held loader's? -/
def SpUse.isHeld : SpUse → Bool
  | .held _ _ => true
  | _ => false

/-- The held loader's requests and lines of an earlier LOAD are dropped. -/
def SpCore.dropHeld (y : SpCore) : SpCore :=
  { y with
    reqs := (y.reqs.map fun p => (p.1, p.2.filter (fun r => !r.use.isHeld))).filter (fun p => !p.2.isEmpty)
    rx := y.rx.filter (fun r => !r.use.isHeld) }

theorem SpCore.dropHeld_reqs (y : SpCore) (port : Nat) : ∀ r ∈ mget [] y.dropHeld.reqs port, r.use.isHeld = false := by
  intro r hr
  obtain h | ⟨j, h⟩ := mget_mem [] y.dropHeld.reqs port
  · rw [h] at hr; cases hr
  · obtain ⟨p, -, hp⟩ := List.mem_map.1 (List.mem_filter.1 h).1
    rw [← (Prod.mk.inj hp).2] at hr
    simpa using (List.mem_filter.1 hr).2

/-- A LOAD has begun: the shadow bank is empty and bears its format and scale record. -/
def State.loadBegun (s : State) (c : Nat) (l : MxLoad) : State :=
  ((s.setSp c (s.spCore c).dropHeld).setMx c { s.mxc c with
    loads := { l with begun := true } :: ((s.mxc c).loads.filter (fun k => !k.begun)).drop 1
    shadow := { (s.mxc c).shadow with hfmt := bits l.payload 57 54, hscale := bits l.payload 53 42, cap := 0 } }).fset
      F.MX_STATUS_SHADOW_FULL 0 c

/-- The first n lines of a LOAD's tile are presented, one an NCLK. -/
def State.presentHeld (s : State) (c : Nat) (l : MxLoad) (n : Nat) : State :=
  (List.range n).foldl
    (fun s i => s.present c pMX_HELD (bits l.payload 75 59 + i) (.held l.rel i) none (s.clk.tb + 2 * i)) s

variable (l : MxLoad) (n : Nat)

theorem State.presentHeld_succ : s.presentHeld c l (n + 1) = (s.presentHeld c l n).present c pMX_HELD (bits l.payload 75 59 + n)
    (.held l.rel n) none ((s.presentHeld c l n).clk.tb + 2 * n) := by
  simp only [State.presentHeld, List.range_succ, List.foldl_append, List.foldl_cons, List.foldl_nil]

theorem State.presentHeld_spOnly : SpOnly c s (s.presentHeld c l n) := by
  induction n with
  | zero => exact .refl s c
  | succ n ih => rw [s.presentHeld_succ]; exact ih.present _ _ _ _ _

theorem State.presentHeld_reqs : mget [] ((s.presentHeld c l n).spCore c).reqs pMX_HELD = mget [] (s.spCore c).reqs pMX_HELD
    ++ (List.range n).map fun i => ⟨bits l.payload 75 59 + i, .held l.rel i, none, s.clk.tb + 2 * i⟩ := by
  induction n with
  | zero => simp [State.presentHeld]
  | succ n ih =>
    rw [s.presentHeld_succ, State.reqs_present_same, ih, (s.presentHeld_spOnly c l n).clk, List.range_succ, List.map_append,
      List.append_assoc]
    rfl

theorem exec_mxLoadBegin (c : Core) (hl : (s.mxc c).loads = [l]) (hb : l.begun = false) (hw : l.waits = none) :
    exec (.mxLoadBegin c) s = .next (((s.atTb l.after).loadBegun c l).presentHeld c l
      (if bit l.payload 58 then 0 else tileLines (bits l.payload 57 54))) := by
  show execMxLoadBegin c s = _
  unfold execMxLoadBegin
  have hw' : ¬ l.waits.isSome = true := by simp [hw]
  simp only [hl, List.find?_cons, hb, Bool.not_false, if_neg hw']
  rfl

theorem exec_mxLoadComplete (c : Core) (hl : (s.mxc c).loads = [l]) (hb : l.begun = true)
    (hg : tileLines (bits l.payload 57 54) ≤ l.got.length) :
    exec (.mxLoadComplete c) s
      = .next (((s.atTb (l.last + 4)).setMx c { s.mxc c with loads := [] }).fset F.MX_STATUS_SHADOW_FULL 1 c) := by
  show execMxLoadComplete c s = _
  unfold execMxLoadComplete loadLines
  simp [hl, hb, hg]

/-- The matrix engine's record once a LOAD has begun. -/
theorem State.loadBegun_mxc : (s.loadBegun c l).mxc c = { s.mxc c with
    loads := { l with begun := true } :: ((s.mxc c).loads.filter (fun k => !k.begun)).drop 1
    shadow := { (s.mxc c).shadow with hfmt := bits l.payload 57 54, hscale := bits l.payload 53 42, cap := 0 } } :=
  State.mxc_setMx_same _ _ _

theorem State.loadBegun_spCore : (s.loadBegun c l).spCore c = (s.spCore c).dropHeld := State.spCore_setSp_same _ _ _

theorem State.loadBegun_engFrame : EngFrame c [RegId.MX_STATUS.addr c 0 0] s (s.loadBegun c l) :=
  (((EngFrame.refl s c _).setSp _).setMx _).fset F.MX_STATUS_SHADOW_FULL 0 c 0 0 (.head _)

theorem State.loadBegun_vx : (s.loadBegun c l).vx = s.vx := State.fset_vx _ _ _ _ _ _

theorem State.loadBegun_shadow : (s.loadBegun c l).fget F.MX_STATUS_SHADOW_FULL c = 0 :=
  State.fget_fset_same _ F.MX_STATUS_SHADOW_FULL 0 c 0 0 (by decide) (by decide)

/-- Of the held loader's requests, those of the LOAD that has begun remain. -/
theorem State.held_lines_of_loadBegun : ((mget [] (((s.loadBegun c l).presentHeld c l n).spCore c).reqs pMX_HELD).filter
      (fun r => r.use.isHeld)).map (·.line) = (List.range n).map fun i => bits l.payload 75 59 + i := by
  have hold : (mget [] (s.spCore c).dropHeld.reqs pMX_HELD).filter (fun r => r.use.isHeld) = [] :=
    List.filter_eq_nil_iff.2 fun r hr => by rw [(s.spCore c).dropHeld_reqs pMX_HELD r hr]; decide
  rw [State.presentHeld_reqs, s.loadBegun_spCore, List.filter_append, hold, List.nil_append, List.filter_eq_self.2, List.map_map]
  · rfl
  · intro r hr
    obtain ⟨i, -, rfl⟩ := List.mem_map.1 hr
    rfl

theorem matrixLoads : Claim.MatrixLoads := by
  intro s c l
  refine ⟨fun hl hb hw => ⟨_, exec_mxLoadBegin s l c hl hb hw, ?_⟩,
    fun hl hb hg => ⟨_, exec_mxLoadComplete s l c hl hb hg, ?_, ?_, ?_⟩⟩
  · generalize hn : (if bit l.payload 58 then 0 else tileLines (bits l.payload 57 54)) = n
    have hp := ((s.atTb l.after).loadBegun c l).presentHeld_spOnly c l n
    have hm := (hp.mxc c).trans ((s.atTb l.after).loadBegun_mxc c l)
    refine ⟨?_, ?_, ?_, ?_, ?_, fun hsrc => ?_, ?_⟩
    · exact (State.fget_congr _ _ _ _ _ _ hp.regs).trans (State.loadBegun_shadow _ c l)
    · rw [hm]
    · rw [hm]
    · rw [hm]
    · rw [hm, s.atTb_mxc, hl]
      simp [hb]
    · rw [hsrc, if_neg Bool.false_ne_true] at hn
      subst hn
      exact (s.atTb l.after).held_lines_of_loadBegun c l _
    · have hfr := (((EngFrame.refl s c _).atTb l.after).trans (State.loadBegun_engFrame _ c l)).trans (hp.engFrame _)
      exact hfr.mxFrame (hp.vx.trans ((State.loadBegun_vx _ c l).trans (s.atTb_vx _)))
  · exact State.fget_fset_same _ F.MX_STATUS_SHADOW_FULL 1 c 0 0 (by decide) (by decide)
  · exact congrArg Mx.loads (State.mxc_setMx_same _ _ _)
  · exact EngFrame.mxFrame ((((EngFrame.refl s c _).atTb _).setMx _).fset F.MX_STATUS_SHADOW_FULL 1 c 0 0 (.head _)) (s.atTb_vx _)

end Sys2Proof.Machine
end

section
/-! # The matrix engine's vectors (R93, R95, R97) -/

namespace Sys2Proof.Machine

variable (s : State) (c : Nat)

/-! ## Events -/

/-- All that a limited event does: registers of the event ring, the ring, its limit, the record of health, MSI-X. -/
theorem State.raiseLim_eq (code kind idx detail : Nat) :
    ∃ (m : SMap Word64) (g : SMap EvtEntry) (h : Hlth) (p : HostPort) (e : SMap Nat),
      s.raiseLim code kind idx detail = { s with regs := m, ring := g, hlth := h, host := p, evtSeen := e }
      ∧ ∀ a d, a ≠ RegId.MOD_EVT_WR.addr 0 0 0 → a ≠ RegId.MOD_EVT_LOST.addr 0 0 0 → mget d m a = mget d s.regs a := by
  obtain e | ⟨seen, e⟩ := s.raiseLim_cases code kind idx detail
  · exact ⟨s.regs, s.ring, s.hlth, s.host, s.evtSeen, e, fun _ _ _ _ => rfl⟩
  · obtain ⟨m, g, h, p, e', hm⟩ := State.raise_eq ({ s with evtSeen := seen } : State) code kind idx detail
    exact ⟨m, g, h, p, seen, e.trans e', hm⟩

/-- A limited event leaves the engines, the Eprus, the scratchpads and the memories. -/
theorem State.raiseLim_keeps (code kind idx detail : Nat) :
    (s.raiseLim code kind idx detail).mx = s.mx ∧ (s.raiseLim code kind idx detail).ep = s.ep
      ∧ (s.raiseLim code kind idx detail).spc = s.spc ∧ MemKept s (s.raiseLim code kind idx detail) := by
  obtain ⟨m, g, h, p, seen, e, -⟩ := s.raiseLim_eq code kind idx detail
  rw [e]
  exact ⟨rfl, rfl, rfl, MemKept.of_eq rfl rfl rfl rfl rfl rfl⟩

theorem State.raiseLim_regsKept (code kind idx detail : Nat) (l : List Nat) (h1 : RegId.MOD_EVT_WR.addr 0 0 0 ∈ l)
    (h2 : RegId.MOD_EVT_LOST.addr 0 0 0 ∈ l) : RegsKept s (s.raiseLim code kind idx detail) l := by
  intro a d ha
  obtain ⟨m, g, h, p, seen, e, hm⟩ := s.raiseLim_eq code kind idx detail
  rw [e]
  exact hm a d (fun e' => ha (e' ▸ h1)) fun e' => ha (e' ▸ h2)

/-! ## The column sums of one vector -/

theorem arrayStep_outs_length (k : Nat) (x : Nat → Val) (w : Nat → Nat → Val) (term : Nat → Nat → Nat) (yin : List Nat)
    (checkEn : Bool) (tau : Nat) : (arrayStep k x w term yin checkEn tau).outs.length = 32 := by
  simp [arrayStep]

/-- A vector has one sum for each of the 32 columns. -/
theorem vectorSum_outs_length (fmt : Nat) (tile : MxTile) (x : Nat → Val) (yin : List Nat) (checkEn : Bool) (tau : Nat) :
    (vectorSum fmt tile x yin checkEn tau).outs.length = 32 := by
  unfold vectorSum
  split
  · simp
  · exact arrayStep_outs_length _ _ _ _ _ _ _

/-- Values put one after the other at numbered places stand there as a run. -/
theorem foldl_mput_numbered (m : SMap Nat) (a k : Nat) (l : List Nat) :
    (l.zip (List.range' k l.length)).foldl (fun m o => mput 0 m (a + o.2) o.1) m = mputs 0 m (a + k) l := by
  induction l generalizing m k with
  | nil => rfl
  | cons v l ih =>
    rw [List.length_cons, List.range'_succ, List.zip_cons_cons, List.foldl_cons, ih]
    rfl

/-- The sums of the vector that enters next (SLIDE = 0), from the pass's tile and check. -/
def State.mxSum (s : State) (c : Nat) (p : MxPass) : VecSum :=
  vectorSum p.mfmt p.tile (s.mxElem c p p.ents.length) ((List.range 32).map fun n =>
    if p.top then mget 0 (s.mxc c).ub ((p.ubBase + p.ents.length) % 256 * 32 + n) else 0) (bit p.check 6) (bits p.check 5 0)

/-- The record of that vector. -/
def State.mxVec (s : State) (c : Nat) (p : MxPass) (t : Nat) : MxVec :=
  let r := s.mxSum c p
  ⟨p.id, p.ents.length, t, r.outs, r.verdict.code, r.verdict.d, r.verdict.a⟩

/-- The pass once a vector has entered in ACLK t. -/
def MxPass.enter (p : MxPass) (t : Nat) : MxPass := { p with ents := t :: p.ents, nextEntry := t + 1 }

/-- Time passes until a vector enters, and its stall is counted. -/
def State.mxWait (s : State) (c t stall : Nat) : State :=
  if stall = 0 then s.atTb t else (s.atTb t).count .MX_STALL_ACLK stall c

/-- The vector that enters stands in the array and its sums in the Underback (OUT = 0). -/
def State.mxPark (s : State) (c : Nat) (p : MxPass) (t : Nat) : State :=
  let x := s.mxc c
  let e := (p.ubBase + p.ents.length) % 256
  s.setMx c { x with
    passes := x.passes.map (fun q => if q.id = p.id then p.enter t else q)
    vecs := x.vecs ++ [s.mxVec c p t]
    ub := ((s.mxSum c p).outs.zip (List.range 32)).foldl (fun m o => mput 0 m (e * 32 + o.2) o.1) x.ub
    ubT := mput 0 x.ubT e (t + 1)
    lastT := some t }

/-- A pass has entered all its vectors: the drains that wait for it learn its last entry, and its lines leave the feeders. -/
def State.mxLastEntry (s : State) (c id bound : Nat) : State :=
  let x := s.mxc c
  let s := s.setMx c { x with drains := x.drains.map (·.passDone id bound), stopping := x.stopping.map (·.passDone id bound) }
  let y := s.spCore c
  let mine := fun u : SpUse =>
    match u with
    | .feed i _ => i == id
    | _ => false
  (s.setSp c { y with rx := y.rx.filter (fun r => !mine r.use) }).mxFeed c

theorem State.mxEnter_eq (p : MxPass) (t stall : Nat) (hs : p.slide = 0) (ho : p.out = false) :
    s.mxEnter c p t stall =
      let u := s.mxWait c t stall
      let v := if (u.mxSum c p).ovf then (u.mxPark c p t).accOverflow c else u.mxPark c p t
      if (p.enter t).entered then v.mxLastEntry c p.id (t + 70) else v := by
  have hs' : bits p.payload 26 24 = 0 := hs
  have ho' : bit p.payload 19 = false := ho
  unfold State.mxEnter
  simp only [MxPass.slide, MxPass.out, hs', ho', slideTaps, if_true, Nat.sub_self, Nat.not_lt_zero, if_false, Nat.sub_zero,
    Bool.false_eq_true, List.getD_cons_zero]
  rfl

/-! ## What an entry leaves -/

/-- The array, the Underback and the held tile of core c are as before. -/
def ArrayKept (c : Nat) (s t : State) : Prop :=
  (t.mxc c).vecs = (s.mxc c).vecs ∧ (t.mxc c).ub = (s.mxc c).ub ∧ (t.mxc c).held = (s.mxc c).held

theorem ArrayKept.of_mxc {c : Nat} {s t : State} (h : t.mxc c = s.mxc c) : ArrayKept c s t := by
  unfold ArrayKept
  rw [h]
  exact ⟨rfl, rfl, rfl⟩

theorem ArrayKept.trans {c : Nat} {s t u : State} (h : ArrayKept c s t) (h' : ArrayKept c t u) : ArrayKept c s u :=
  ⟨h'.1.trans h.1, h'.2.1.trans h.2.1, h'.2.2.trans h.2.2⟩

/-- The feeders' requests change neither the array nor anything outside the engine's frame. -/
theorem State.mxFeed_keeps : ArrayKept c s (s.mxFeed c) ∧ EngFrame c [] s (s.mxFeed c) := by
  unfold State.mxFeed
  extract_lets x load t0
  cases x.passes.find? (fun p => !p.presented) with
  | none => exact ⟨.of_mxc rfl, .refl s c _⟩
  | some p =>
    dsimp -zeta only
    extract_lets need offs u y
    split
    · exact ⟨.of_mxc rfl, .refl s c _⟩
    · have hu : SpOnly c s u := foldl_keeps (SpOnly c s) _ (fun _ _ h => h.present _ _ _ _ _) _ s (.refl s c)
      refine ⟨(ArrayKept.of_mxc (hu.mxc c)).trans ?_, (hu.engFrame []).setMx _⟩
      unfold ArrayKept
      rw [State.mxc_setMx_same]
      exact ⟨rfl, rfl, rfl⟩

theorem State.mxLastEntry_keeps (id bound : Nat) :
    ArrayKept c s (s.mxLastEntry c id bound) ∧ EngFrame c [] s (s.mxLastEntry c id bound) := by
  unfold State.mxLastEntry
  extract_lets x u y mine
  obtain ⟨ha, hf⟩ := (u.setSp c { y with rx := y.rx.filter (fun r => !mine r.use) }).mxFeed_keeps c
  refine ⟨ArrayKept.trans ?_ ha, (((EngFrame.refl s c _).setMx _).setSp _).trans hf⟩
  show ArrayKept c s u
  unfold ArrayKept
  rw [State.mxc_setMx_same]
  exact ⟨rfl, rfl, rfl⟩

theorem State.mxWait_keeps (t stall : Nat) : (s.mxWait c t stall).mxc c = s.mxc c ∧ (s.mxWait c t stall).spCore c = s.spCore c
    ∧ EngFrame c [RegId.MX_STALL_ACLK.addr c 0 0] s (s.mxWait c t stall) := by
  have hf := (EngFrame.refl s c [RegId.MX_STALL_ACLK.addr c 0 0]).atTb t
  unfold State.mxWait
  split
  · exact ⟨s.atTb_mxc t c, s.atTb_spCore t c, hf⟩
  · exact ⟨s.atTb_mxc t c, s.atTb_spCore t c, hf.count .MX_STALL_ACLK stall c 0 0 rfl (.head _)⟩

/-- The registers that a vector's entry may write. -/
def entryRegs (c : Nat) : List Nat :=
  [RegId.CLK_SKIMMED.addr 0 0 0, RegId.MX_STALL_ACLK.addr c 0 0, RegId.MOD_EVT_WR.addr 0 0 0, RegId.MOD_EVT_LOST.addr 0 0 0]

/-- What remains of an entry once the sums are parked: an overflow's event, and the end of the pass's entries. -/
theorem State.mxEnter_after_park (p : MxPass) (t stall : Nat) (hs : p.slide = 0) (ho : p.out = false) :
    ArrayKept c ((s.mxWait c t stall).mxPark c p t) (s.mxEnter c p t stall)
      ∧ MemKept ((s.mxWait c t stall).mxPark c p t) (s.mxEnter c p t stall)
      ∧ RegsKept ((s.mxWait c t stall).mxPark c p t) (s.mxEnter c p t stall) (entryRegs c) := by
  rw [s.mxEnter_eq c p t stall hs ho]
  extract_lets u v
  have hv : ArrayKept c (u.mxPark c p t) v ∧ MemKept (u.mxPark c p t) v ∧ RegsKept (u.mxPark c p t) v (entryRegs c) := by
    by_cases h : (u.mxSum c p).ovf = true
    · obtain ⟨hm, -, -, hk⟩ := (u.mxPark c p t).raiseLim_keeps 0x1001 kCORE c 0
      rw [show v = (u.mxPark c p t).raiseLim 0x1001 kCORE c 0 from if_pos h]
      exact ⟨.of_mxc (mxc_congr hm c), hk,
        (u.mxPark c p t).raiseLim_regsKept _ _ _ _ _ (by simp [entryRegs]) (by simp [entryRegs])⟩
    · rw [show v = u.mxPark c p t from if_neg h]
      exact ⟨.of_mxc rfl, MemKept.refl _, RegsKept.refl _ _⟩
  obtain ⟨ha, hk, hr⟩ := hv
  split
  · obtain ⟨ha', hf⟩ := v.mxLastEntry_keeps c p.id (t + 70)
    exact ⟨ha.trans ha', hk.trans hf.memKept, hr.trans (hf.1.mono (by simp [entryRegs]))⟩
  · exact ⟨ha, hk, hr⟩

/-- A vector of the pass has entered (R95, R97): its sums over the tile stand in the array and in the Underback. -/
def VectorEntered (c : Nat) (p : MxPass) (tile : MxTile) (check : Nat) (s t : State) : Prop :=
  ∃ w : MxVec, (t.mxc c).vecs = (s.mxc c).vecs ++ [w] ∧ w.pass = p.id ∧ w.v = p.ents.length
    ∧ w.outs = (vectorSum p.mfmt tile (s.mxElem c p p.ents.length) ((List.range 32).map fun n =>
        if p.top then mget 0 (s.mxc c).ub ((p.ubBase + p.ents.length) % 256 * 32 + n) else 0) (bit check 6) (bits check 5 0)).outs
    ∧ (∀ n, n < 32 → mget 0 (t.mxc c).ub ((p.ubBase + p.ents.length) % 256 * 32 + n) = w.outs.getD n 0)
    ∧ (∀ n, n / 32 ≠ (p.ubBase + p.ents.length) % 256 → mget 0 (t.mxc c).ub n = mget 0 (s.mxc c).ub n)
    ∧ MemKept s t

theorem State.mxPark_entered (p : MxPass) (t : Nat) : VectorEntered c p p.tile p.check s (s.mxPark c p t) := by
  have hlen : (s.mxSum c p).outs.length = 32 := vectorSum_outs_length _ _ _ _ _ _
  have hmx : (s.mxPark c p t).mxc c = _ := State.mxc_setMx_same _ _ _
  have hub : ((s.mxPark c p t).mxc c).ub = mputs 0 (s.mxc c).ub ((p.ubBase + p.ents.length) % 256 * 32) (s.mxSum c p).outs := by
    rw [hmx]
    simp only [List.range_eq_range']
    rw [← hlen, foldl_mput_numbered, hlen]
    rfl
  refine ⟨s.mxVec c p t, by rw [hmx], rfl, rfl, rfl, fun n hn => ?_, fun n hn => ?_, MemKept.of_eq rfl rfl rfl rfl rfl rfl⟩
  · rw [hub, mget_mputs, hlen, if_pos (by omega), Nat.add_sub_cancel_left]
    rfl
  · rw [hub, mget_mputs, hlen, if_neg (by omega)]

/-- The entry of a vector with SLIDE = 0 and OUT = 0. -/
theorem State.mxEnter_entered (p : MxPass) (t stall : Nat) (hs : p.slide = 0) (ho : p.out = false) :
    VectorEntered c p p.tile p.check s (s.mxEnter c p t stall)
      ∧ ((s.mxEnter c p t stall).mxc c).held = (s.mxc c).held ∧ RegsKept s (s.mxEnter c p t stall) (entryRegs c) := by
  obtain ⟨hmx, hsp, hf⟩ := s.mxWait_keeps c t stall
  obtain ⟨⟨hvecs, hub, hheld⟩, hk, hr⟩ := s.mxEnter_after_park c p t stall hs ho
  obtain ⟨w, h1, h2, h3, h4, h5, h6, h7⟩ := (s.mxWait c t stall).mxPark_entered c p t
  have helem : (s.mxWait c t stall).mxElem c p p.ents.length = s.mxElem c p p.ents.length := by
    funext k
    simp only [State.mxElem, hsp]
  rw [hmx] at h1 h4 h6
  rw [helem] at h4
  refine ⟨⟨w, hvecs.trans h1, h2, h3, h4, fun n hn => ?_, fun n hn => ?_, hf.memKept.trans (h7.trans hk)⟩, ?_, ?_⟩
  · rw [hub]; exact h5 n hn
  · rw [hub]; exact h6 n hn
  · rw [hheld, State.mxPark, State.mxc_setMx_same, hmx]
  · exact (hf.1.mono (by simp [entryRegs])).trans hr

/-! ## The two commands -/

theorem exec_mxVectorEntry (c : Core) (p : MxPass) (hp : (s.mxc c).passes = [p]) (hb : p.begun = true) (hu : p.ents.length < p.nEnter)
    (hc : (s.mxComplete c p p.ents.length).isSome) (hf : ∀ n, s.mxFull c n = false) :
    ∃ t stall, exec (.mxVectorEntry c) s = .next (s.mxEnter c p t stall) := by
  obtain ⟨arr, ha⟩ := Option.isSome_iff_exists.1 hc
  have he : p.entered = false := decide_eq_false (Nat.not_le.2 hu)
  show ∃ t stall, execMxVectorEntry c s = _
  unfold execMxVectorEntry
  simp only [hp, List.find?_cons, hb, he, Bool.not_false, Bool.and_self, ha, hf, Bool.false_eq_true, if_false]
  exact ⟨_, _, rfl⟩

/-- The engine at the first entry of a swapping pass: its held tile is the shadow bank. -/
def State.mxSwapped (s : State) (c t : Nat) (loads : List MxLoad) (swap : Option (Nat × Option Nat)) : State :=
  ((s.atTb t).setMx c { s.mxc c with held := (s.mxc c).shadow, loads := loads, lastSwap := swap }).fset F.MX_STATUS_HELD_VALID 1 c

/-- A pass that has captured a tile and a check setting at its first entry. -/
def MxPass.Captured (p p' : MxPass) (tile : MxTile) (check : Nat) : Prop :=
  p'.id = p.id ∧ p'.payload = p.payload ∧ p'.ents = p.ents ∧ p'.tile = tile ∧ p'.check = check

/-- The first entry of a pass with SWAP, SLIDE = 0 and OUT = 0 that finds the shadow bank full and of its family. -/
theorem exec_mxPassFirstEntry (c : Core) (p : MxPass) (hp : (s.mxc c).passes = [p]) (hb : p.begun = false) (hr : p.released = true)
    (hslide : p.slide = 0) (hout : p.out = false) (hc : (s.mxComplete c p 0).isSome) (hf : ∀ n, s.mxFull c n = false)
    (hswap : p.swap = true) (hfmt : (s.mxc c).shadow.hfmt ≠ 15) (hfam : mxFamily (s.mxc c).shadow.hfmt = mxFamily p.mfmt)
    (hfull : s.flag F.MX_STATUS_SHADOW_FULL c = true) :
    ∃ t stall loads swap p', exec (.mxPassFirstEntry c) s = .next ((s.mxSwapped c t loads swap).mxEnter c p' t stall)
      ∧ p.Captured p' (s.mxc c).shadow ((s.mxSwapped c t loads swap).rd .MX_CHECK c).toNat := by
  obtain ⟨arr, ha⟩ := Option.isSome_iff_exists.1 hc
  have hfull' : ∀ n, (s.atTb n).flag F.MX_STATUS_SHADOW_FULL c = true := fun n => by
    rw [State.flag, s.fget_atTb n F.MX_STATUS_SHADOW_FULL c 0 0 rfl]; exact hfull
  have hfind : (s.mxc c).passes.find? (fun q => !q.begun) = some p := by simp [hp, hb]
  have hany : ((s.mxc c).passes.any fun q => q.begun && !q.entered) = false := by simp [hp, hb]
  have hreasons : lowestReason [(false, 3), (false, 1), (false, 4), (false, 5)] = none := rfl
  show ∃ t stall loads swap p', execMxPassFirstEntry c s = _ ∧ _
  unfold execMxPassFirstEntry
  simp only [hfind, hany, hr, Bool.not_true, Bool.or_self, Bool.false_eq_true, if_false, ha, hf, hswap, if_true, State.atTb_mxc, hfmt,
    hout, hslide, hfam, hfull', Bool.false_and, ne_eq, not_true_eq_false, decide_false, Bool.and_false, bne_self_eq_false, hreasons]
  exact ⟨_, _, _, _, _, rfl, rfl, rfl, rfl, rfl, rfl⟩

/-- What a swap leaves for the entry that follows. -/
theorem State.mxSwapped_keeps (t : Nat) (loads : List MxLoad) (swap : Option (Nat × Option Nat)) :
    (s.mxSwapped c t loads swap).mxc c = { s.mxc c with held := (s.mxc c).shadow, loads := loads, lastSwap := swap }
      ∧ (s.mxSwapped c t loads swap).spCore c = s.spCore c ∧ EngFrame c [RegId.MX_STATUS.addr c 0 0] s (s.mxSwapped c t loads swap)
      ∧ (s.mxSwapped c t loads swap).flag F.MX_STATUS_HELD_VALID c = true :=
  ⟨State.mxc_setMx_same _ _ _, s.atTb_spCore t c,
    (((EngFrame.refl s c _).atTb t).setMx _).fset F.MX_STATUS_HELD_VALID 1 c 0 0 (.head _), by
    rw [State.flag, State.mxSwapped, State.fget_fset_same _ F.MX_STATUS_HELD_VALID 1 c 0 0 (by decide) (by decide)]
    rfl⟩

/-- The entry of a vector is judged by the sums' inputs: the pass's fields, the array, the Underback and the lines at the port. -/
theorem VectorEntered.of_captured {s u t : State} {c : Nat} {p p' : MxPass} {tile : MxTile} {check : Nat} (hp : p.Captured p' tile check)
    (hv : (u.mxc c).vecs = (s.mxc c).vecs) (hub : (u.mxc c).ub = (s.mxc c).ub) (hsp : u.spCore c = s.spCore c) (hk : MemKept s u)
    (h : VectorEntered c p' p'.tile p'.check u t) : VectorEntered c p tile check s t := by
  obtain ⟨hid, hpay, hents, htile, hcheck⟩ := hp
  obtain ⟨w, h1, h2, h3, h4, h5, h6, h7⟩ := h
  have hfmt : p'.mfmt = p.mfmt := congrArg (bits · 50 47) hpay
  have hslide : p'.slide = p.slide := congrArg (bits · 26 24) hpay
  have htop : p'.top = p.top := congrArg (bit · 20) hpay
  have hbase : p'.ubBase = p.ubBase := congrArg (bits · 34 27) hpay
  have helem : ∀ v, u.mxElem c p' v = s.mxElem c p v := fun v => by
    funext k
    unfold State.mxElem
    rw [hsp, hslide, hfmt, hid]
  rw [hid] at h2
  rw [hv] at h1
  rw [hents] at h3
  rw [hfmt, htile, hcheck, htop, hbase, hents, hub, helem] at h4
  rw [hbase, hents] at h5 h6
  rw [hub] at h6
  exact ⟨w, h1, h2, h3, h4, h5, h6, hk.trans h7⟩

theorem mxStatus_not_entryRegs : RegId.MX_STATUS.addr c 0 0 ∉ entryRegs c := by
  simp only [entryRegs, RegId.addr, RegId.defn, Block.place, List.mem_cons, List.not_mem_nil, or_false]
  omega

theorem matrixVectorsEnter : Claim.MatrixVectorsEnter := by
  intro s c p hp hslide hout u entry
  refine ⟨fun hc hb hu hf => ?_, fun hc hb hr hu hf hswap hfmt hfam hfull => ?_⟩
  · obtain ⟨t, stall, h⟩ := exec_mxVectorEntry s c p hp hb hu hc hf
    obtain ⟨he, -, -⟩ := s.mxEnter_entered c p t stall hslide hout
    exact ⟨_, h, he⟩
  · obtain ⟨t, stall, loads, swap, p', h, hcap⟩ := exec_mxPassFirstEntry s c p hp hb hr hslide hout hc hf hswap hfmt hfam hfull
    obtain ⟨hmx, hsp, hfr, hvalid⟩ := s.mxSwapped_keeps c t loads swap
    have hpay := hcap.2.1
    obtain ⟨he, hheld, hregs⟩ := (s.mxSwapped c t loads swap).mxEnter_entered c p' t stall
      (by rw [MxPass.slide, hpay]; exact hslide) (by rw [MxPass.out, hpay]; exact hout)
    have hcheck : (s.mxSwapped c t loads swap).rd .MX_CHECK c = s.rd .MX_CHECK c := by
      refine hfr.1.rd .MX_CHECK c 0 0 ?_
      simp only [RegId.addr, RegId.defn, Block.place, List.mem_cons, List.not_mem_nil, or_false]
      omega
    rw [hcheck] at hcap
    refine ⟨_, h, he.of_captured hcap (by rw [hmx]) (by rw [hmx]) hsp hfr.memKept, ?_, ?_⟩
    · rw [hheld, hmx]
    · rw [State.flag, hregs.fget F.MX_STATUS_HELD_VALID c 0 0 (mxStatus_not_entryRegs c)]
      exact hvalid

/-- Settles O9: a LOAD's two commands set the shadow bank, and every entry, the swapping first one among them, is one park of the
vector's sums with what follows it. -/
theorem matrixLoadsAndVectors : Obligations.MatrixLoadsAndVectors := ⟨matrixLoads, matrixVectorsEnter⟩

end Sys2Proof.Machine
end

section
/-! # What leaves the matrix engine (R103, R105 to R108, R115, R546) -/

namespace Sys2Proof.Machine

variable (s : State) (c : Nat)

/-! ## Vectors leave the collector (R106, R107) -/

/-- A count leaves the engines, the Eprus and the memories. -/
theorem State.count_keeps (r : RegId) (n i : Nat) :
    (s.count r n i).mx = s.mx ∧ (s.count r n i).ep = s.ep ∧ MemKept s (s.count r n i) := by
  obtain ⟨l, e⟩ := s.count_eq r n i 0 0
  rw [e]
  exact ⟨rfl, rfl, MemKept.of_eq rfl rfl rfl rfl rfl rfl⟩

theorem State.wr_memKept (r : RegId) (v : Word64) (i : Nat) : MemKept s (s.wr r v i) := MemKept.of_eq rfl rfl rfl rfl rfl rfl

/-- A write of a register leaves the others of its block. -/
theorem State.rd_wr_reg (r r' : RegId) (v : Word64) (i u : Nat) (hp : r'.defn.blk.place = r.defn.blk.place)
    (h : r'.defn.off ≠ r.defn.off) : (s.wr r v i).rd r' u = s.rd r' u :=
  s.rd_wr_ne r r' v i 0 0 u 0 0 (r'.addr_ne r u i hp (.inl h))

/-- A count leaves the other registers of its block. -/
theorem State.rd_count_reg (r r' : RegId) (n i u : Nat) (hp : r'.defn.blk.place = r.defn.blk.place)
    (h : r'.defn.off ≠ r.defn.off) : (s.count r n i).rd r' u = s.rd r' u :=
  s.rd_count_ne r r' n i 0 0 u 0 0 (r'.addr_ne r u i hp (.inl h))

/-- A register of a core stays where only registers below the cores' blocks are written. -/
theorem RegsKept.rd_core {s t : State} {l : List Nat} (h : RegsKept s t l) (r : RegId) (i j k : Nat)
    (hb : r.defn.blk.place.1 = 0x4000000) (hl : ∀ a ∈ l, a < 0x4000000) : t.rd r i j k = s.rd r i j k := by
  refine h.rd r i j k fun ha => ?_
  have := hl _ ha
  rw [RegId.addr, hb] at this
  omega

/-- A rerun request changes the core's record alone. -/
theorem State.latchRerun_keeps (k : Nat) :
    (s.latchRerun c k).mx = s.mx ∧ (s.latchRerun c k).regs = s.regs ∧ MemKept s (s.latchRerun c k) :=
  ⟨rfl, rfl, MemKept.of_eq rfl rfl rfl rfl rfl rfl⟩

/-- The registers that a mismatch writes. -/
def State.mxMismatchRegs (s : State) (c : Nat) (w : MxVec) (info : Nat) : State :=
  (((s.count .MX_CHECK_MISMATCHES 1 c).wr .MX_MISMATCH_INFO (BitVec.ofNat 64 info) c).wr .MX_MISMATCH_D (BitVec.ofNat 64 w.d) c).wr
    .MX_MISMATCH_A (BitVec.ofNat 64 w.a) c

theorem State.mxMismatchRegs_keeps (w : MxVec) (info : Nat) : (s.mxMismatchRegs c w info).mx = s.mx
    ∧ (s.mxMismatchRegs c w info).ep = s.ep ∧ MemKept s (s.mxMismatchRegs c w info) := by
  obtain ⟨hm, he, hk⟩ := s.count_keeps .MX_CHECK_MISMATCHES 1 c
  unfold State.mxMismatchRegs
  simp only [State.wr_mx, State.wr_ep]
  exact ⟨hm, he, ((hk.trans (State.wr_memKept _ _ _ _)).trans (State.wr_memKept _ _ _ _)).trans (State.wr_memKept _ _ _ _)⟩

/-- A mismatch of the array check: it is counted and described, raised, and latches a rerun. -/
def State.mxMismatch (s : State) (c : Nat) (w : MxVec) (info : Nat) : State :=
  ((s.mxMismatchRegs c w info).raiseLim 0x3001 kCORE c (w.d + w.a * 2 ^ 32)).latchRerun c 1

/-- What the verdict of a vector that leaves the collector does. -/
def State.mxVerdict (s : State) (c : Nat) (w : MxVec) (info : Nat) : State :=
  if w.verdict = 1 then s.mxMismatch c w info
  else if w.verdict = 2 then s.count .MX_CHECK_SKIPS 1 c
  else s

theorem exec_mxVectorComplete (c : Core) (w : MxVec) (rest : List MxVec) (p : MxPass) (hv : (s.mxc c).vecs = w :: rest)
    (hp : (s.mxc c).passes.find? (fun q => q.id == w.pass) = some p) (ho : p.out = false) :
    ∃ info, exec (.mxVectorComplete c) s
      = .next (((s.atTb (w.t + 69)).setMx c { s.mxc c with vecs := rest }).mxVerdict c w info) := by
  show ∃ info, execMxVectorComplete c s = _
  unfold execMxVectorComplete
  rw [hv]
  simp only [State.atTb_mxc, hp, ho, Bool.not_false, if_true]
  exact ⟨_, rfl⟩

section
variable (w : MxVec) (info : Nat)

theorem State.mxMismatchRegs_rd :
    ((s.mxMismatchRegs c w info).rd .MX_CHECK_MISMATCHES c).toNat = min ((s.rd .MX_CHECK_MISMATCHES c).toNat + 1) (2 ^ 64 - 1)
      ∧ (s.mxMismatchRegs c w info).rd .MX_CHECK_SKIPS c = s.rd .MX_CHECK_SKIPS c
      ∧ (s.mxMismatchRegs c w info).rd .MX_MISMATCH_D c = BitVec.ofNat 64 w.d
      ∧ (s.mxMismatchRegs c w info).rd .MX_MISMATCH_A c = BitVec.ofNat 64 w.a := by
  unfold State.mxMismatchRegs
  refine ⟨?_, ?_, ?_, ?_⟩
  · simp (disch := decide) only [State.rd_wr_reg]
    exact s.rd_count_same _ _ _ _ _
  · simp (disch := decide) only [State.rd_wr_reg, State.rd_count_reg]
  · simp (disch := decide) only [State.rd_wr_reg, State.rd_wr_same]
  · simp only [State.rd_wr_same]

theorem State.mxMismatch_keeps : (s.mxMismatch c w info).mxc c = s.mxc c ∧ MemKept s (s.mxMismatch c w info)
    ∧ ((s.mxMismatch c w info).core c).rerun = ((s.core c).rerun ||| 2 ^ 1) := by
  obtain ⟨hm, he, -, hk⟩ := (s.mxMismatchRegs c w info).raiseLim_keeps 0x3001 kCORE c (w.d + w.a * 2 ^ 32)
  obtain ⟨hm', he', hk'⟩ := s.mxMismatchRegs_keeps c w info
  unfold State.mxMismatch
  obtain ⟨hm'', -, hk''⟩ := State.latchRerun_keeps
    ((s.mxMismatchRegs c w info).raiseLim 0x3001 kCORE c (w.d + w.a * 2 ^ 32)) c 1
  refine ⟨mxc_congr (hm''.trans (hm.trans hm')) c, hk'.trans (hk.trans hk''), ?_⟩
  rw [ State.latchRerun, State.core_setCore_same, core_congr (he.trans he')]

theorem State.mxMismatch_rd (r : RegId) (hb : r.defn.blk.place.1 = 0x4000000) :
    (s.mxMismatch c w info).rd r c = (s.mxMismatchRegs c w info).rd r c := by
  have hr := (s.mxMismatchRegs c w info).raiseLim_regsKept 0x3001 kCORE c (w.d + w.a * 2 ^ 32)
    [RegId.MOD_EVT_WR.addr 0 0 0, RegId.MOD_EVT_LOST.addr 0 0 0] (.head _) (.tail _ (.head _))
  rw [State.mxMismatch, State.rd_congr _ _ _ _ _ _ (State.latchRerun_keeps _ c 1).2.1]
  exact hr.rd_core r c 0 0 hb (by simp [RegId.addr, RegId.defn, Block.place])

/-- What leaving the collector with a verdict does. -/
theorem State.mxVerdict_spec : (s.mxVerdict c w info).mxc c = s.mxc c ∧ MemKept s (s.mxVerdict c w info)
    ∧ ((s.mxVerdict c w info).rd .MX_CHECK_MISMATCHES c).toNat = (if w.verdict = 1 then
        min ((s.rd .MX_CHECK_MISMATCHES c).toNat + 1) (2 ^ 64 - 1) else (s.rd .MX_CHECK_MISMATCHES c).toNat)
    ∧ ((s.mxVerdict c w info).rd .MX_CHECK_SKIPS c).toNat = (if w.verdict = 2 then
        min ((s.rd .MX_CHECK_SKIPS c).toNat + 1) (2 ^ 64 - 1) else (s.rd .MX_CHECK_SKIPS c).toNat)
    ∧ (w.verdict = 1 → (s.mxVerdict c w info).rd .MX_MISMATCH_D c = BitVec.ofNat 64 w.d
        ∧ (s.mxVerdict c w info).rd .MX_MISMATCH_A c = BitVec.ofNat 64 w.a
        ∧ ((s.mxVerdict c w info).core c).rerun = ((s.core c).rerun ||| 2 ^ 1))
    ∧ (w.verdict ≠ 1 → (s.mxVerdict c w info).core c = s.core c) := by
  unfold State.mxVerdict
  by_cases h1 : w.verdict = 1
  · obtain ⟨hmm, hsk, hd, ha⟩ := s.mxMismatchRegs_rd c w info
    obtain ⟨hmx, hk, hre⟩ := s.mxMismatch_keeps c w info
    simp only [h1, if_true, show (1 : Nat) ≠ 2 by decide, if_false]
    refine ⟨hmx, hk, ?_, ?_, fun _ => ⟨?_, ?_, hre⟩, fun h => absurd rfl h⟩
    · rw [s.mxMismatch_rd c w info _ rfl]; exact hmm
    · rw [s.mxMismatch_rd c w info _ rfl, hsk]
    · rw [s.mxMismatch_rd c w info _ rfl]; exact hd
    · rw [s.mxMismatch_rd c w info _ rfl]; exact ha
  · rw [if_neg h1, if_neg h1]
    by_cases h2 : w.verdict = 2
    · rw [if_pos h2, if_pos h2]
      obtain ⟨hm, he, hk⟩ := s.count_keeps .MX_CHECK_SKIPS 1 c
      exact ⟨mxc_congr hm c, hk, congrArg BitVec.toNat (s.rd_count_reg .MX_CHECK_SKIPS _ 1 c c rfl (by decide)),
        s.rd_count_same _ _ _ _ _, fun h => absurd h h1, fun _ => core_congr he c⟩
    · rw [if_neg h2, if_neg h2]
      exact ⟨rfl, MemKept.refl s, rfl, rfl, fun h => absurd h h1, fun _ => rfl⟩

end

theorem matrixVectorsComplete : Claim.MatrixVectorsComplete := by
  intro s c w rest p hv hp ho hd ha
  obtain ⟨info, h⟩ := exec_mxVectorComplete s c w rest p hv hp ho
  have hu : ∀ r : RegId, r.defn.blk.place.1 = 0x4000000 →
      ((s.atTb (w.t + 69)).setMx c { s.mxc c with vecs := rest }).rd r c = s.rd r c := fun r hb => s.rd_atTb _ r c 0 0 hb
  have hcore : ((s.atTb (w.t + 69)).setMx c { s.mxc c with vecs := rest }).core c = s.core c := s.atTb_core _ c
  have hmx : ((s.atTb (w.t + 69)).setMx c { s.mxc c with vecs := rest }).mxc c = _ := State.mxc_setMx_same _ _ _
  have hk := (((EngFrame.refl s c []).atTb (w.t + 69)).setMx { s.mxc c with vecs := rest }).memKept
  generalize (s.atTb (w.t + 69)).setMx c { s.mxc c with vecs := rest } = u at *
  obtain ⟨vmx, vk, vmm, vsk, vone, vne⟩ := u.mxVerdict_spec c w info
  rw [hu _ rfl] at vmm vsk
  rw [hcore] at vone vne
  refine ⟨_, h, by rw [vmx, hmx], hk.trans vk, by rw [vmx, hmx], vmm, vsk, fun h1 => ?_, vne⟩
  obtain ⟨e, e', hr⟩ := vone h1
  rw [e, e', BitVec.toNat_ofNat, BitVec.toNat_ofNat, Nat.mod_eq_of_lt hd, Nat.mod_eq_of_lt ha]
  exact ⟨rfl, rfl, hr⟩

/-! ## Passes complete (R103) -/

theorem State.inject_keeps (p : Packet) (t : Nat) : (s.inject c p t).mx = s.mx ∧ MemKept s (s.inject c p t)
    ∧ RegsKept s (s.inject c p t) [RegId.FB_INJECTED.addr c 0 0] := by
  obtain ⟨hm, -, hk⟩ := s.count_keeps .FB_INJECTED 1 c
  have hr := s.count_regsKept .FB_INJECTED 1 c 0 0 [RegId.FB_INJECTED.addr c 0 0] (.head _)
  unfold State.inject
  generalize s.count .FB_INJECTED 1 c = u at *
  exact ⟨hm, hk.trans (MemKept.of_eq rfl rfl rfl rfl rfl rfl), hr⟩

/-- A packet that a core sends leaves its engines and the memories; of the registers it may write two of the fabric's. -/
theorem State.coreSend_keeps (p : Packet) (t : Nat) : (s.coreSend c p t).mx = s.mx ∧ MemKept s (s.coreSend c p t)
    ∧ RegsKept s (s.coreSend c p t) [RegId.FB_STATUS.addr c 0 0, RegId.FB_INJECTED.addr c 0 0] := by
  unfold State.coreSend
  extract_lets x u y
  have hu : u.mx = s.mx ∧ u.regs = s.regs ∧ MemKept s u := by
    by_cases h : p.typ = Packet.RD
    · rw [show u = s from if_pos h]
      exact ⟨rfl, rfl, MemKept.refl s⟩
    · rw [show u = s.setFb c { x with wrOut := x.wrOut + 1 } from if_neg h]
      exact ⟨rfl, rfl, MemKept.of_eq rfl rfl rfl rfl rfl rfl⟩
  obtain ⟨hm, hr, hk⟩ := hu
  have hru : RegsKept s u [RegId.FB_STATUS.addr c 0 0, RegId.FB_INJECTED.addr c 0 0] := fun a d _ => by rw [hr]
  split
  · obtain ⟨hm', hk', hr'⟩ := (u.fset F.FB_STATUS_OUTSTANDING (u.outstanding c + 1) c).inject_keeps c p t
    exact ⟨hm'.trans hm, hk.trans ((State.fset_memKept u _ _ _).trans hk'),
      (hru.trans (u.fset_regsKept F.FB_STATUS_OUTSTANDING _ c 0 0 _ (.head _))).trans (hr'.mono (by simp))⟩
  · exact ⟨hm, hk.trans (MemKept.of_eq rfl rfl rfl rfl rfl rfl), hru⟩

/-- The oldest pass has left the engine and is counted. -/
def State.mxPassDone (s : State) (c t : Nat) (rest : List MxPass) : State :=
  ((s.atTb t).setMx c { s.mxc c with passes := rest }).count .MX_PASSES 1 c

theorem State.mxPassDone_spec (t : Nat) (rest : List MxPass) : ((s.mxPassDone c t rest).mxc c).passes = rest
    ∧ ((s.mxPassDone c t rest).rd .MX_PASSES c).toNat = min ((s.rd .MX_PASSES c).toNat + 1) (2 ^ 64 - 1)
    ∧ MxFrame c [RegId.MX_PASSES.addr c 0 0] s (s.mxPassDone c t rest) := by
  have hf := ((EngFrame.refl s c [RegId.MX_PASSES.addr c 0 0]).atTb t).setMx { s.mxc c with passes := rest }
  refine ⟨congrArg Mx.passes (State.mxc_setMx_same _ _ _), ?_, ?_⟩
  · rw [State.mxPassDone, State.rd_count_same, ← s.rd_atTb t .MX_PASSES c 0 0 rfl]
    rfl
  · exact (hf.count .MX_PASSES 1 c 0 0 rfl (.head _)).mxFrame (s.atTb_vx t)

theorem exec_mxPassComplete (c : Core) (p : MxPass) (rest : List MxPass) (hp : (s.mxc c).passes = p :: rest)
    (he : p.nEnter ≤ p.ents.length) (hv : (s.mxc c).vecs.all (fun v => v.pass != p.id) = true) :
    ∃ t a k, exec (.mxPassComplete c) s
      = .next (if p.out && bit p.epi 35 then (s.mxPassDone c t rest).coreSend c a k else s.mxPassDone c t rest) := by
  have hent : p.entered = true := decide_eq_true he
  have hany : ((s.mxc c).vecs.any fun v => v.pass == p.id) = false := by
    rw [List.any_eq_false]
    intro v hvm
    simpa using List.all_eq_true.1 hv v hvm
  show ∃ t a k, execMxPassComplete c s = _
  unfold execMxPassComplete
  simp only [hp, hent, hany, Bool.not_true, Bool.or_self, Bool.false_eq_true, if_false, State.atTb_mxc]
  exact ⟨_, _, _, (apply_ite Host.Outcome.next _ _ _).symm⟩

/-! ## Drains complete (R108, R115) -/

/-- An arrival counter's increase sets the counter, and may mark a wait of the core satisfied. -/
theorem State.arrive_cases (n : Nat) : ∃ v, v = (s.fget F.EP_ARRIVE_COUNT c n + 1) % 2 ^ 32
    ∧ (s.arrive c n = s.fset F.EP_ARRIVE_COUNT v c n ∨ ∃ e, s.arrive c n = (s.fset F.EP_ARRIVE_COUNT v c n).setCore c e) := by
  rw [State.arrive, if_neg Bool.false_ne_true]
  generalize (s.fget F.EP_ARRIVE_COUNT c n + 1) % 2 ^ 32 = v
  exact ⟨v, rfl, ((s.fset F.EP_ARRIVE_COUNT v c n).ctrSatisfies_cases c n).imp_right fun e => ⟨_, e⟩⟩

theorem EngFrame.arrive {regs : List Nat} {s t : State} {c : Nat} (h : EngFrame c regs s t) (n : Nat)
    (hr : RegId.EP_ARRIVE.addr c n 0 ∈ regs) : EngFrame c regs s (t.arrive c n) := by
  obtain ⟨v, -, e | ⟨x, e⟩⟩ := t.arrive_cases c n
  · rw [e]; exact h.fset F.EP_ARRIVE_COUNT v c n 0 hr
  · rw [e]; exact (h.fset F.EP_ARRIVE_COUNT v c n 0 hr).setCore x

/-- An arrival counter's increase leaves the engines, and of the registers writes the counter alone. -/
theorem State.arrive_keeps (n : Nat) : (s.arrive c n).mx = s.mx ∧ (s.arrive c n).vx = s.vx
    ∧ ∃ v, v = (s.fget F.EP_ARRIVE_COUNT c n + 1) % 2 ^ 32 ∧ (s.arrive c n).regs = (s.fset F.EP_ARRIVE_COUNT v c n).regs := by
  obtain ⟨v, hv, e | ⟨x, e⟩⟩ := s.arrive_cases c n
  · rw [e, State.fset_mx, State.fset_vx]; exact ⟨rfl, rfl, v, hv, rfl⟩
  · rw [e, State.setCore_mx, State.setCore_vx, State.setCore_regs, State.fset_mx, State.fset_vx]; exact ⟨rfl, rfl, v, hv, rfl⟩

theorem State.fget_arrive_same (n : Nat) :
    (s.arrive c n).fget F.EP_ARRIVE_COUNT c n = (s.fget F.EP_ARRIVE_COUNT c n + 1) % 2 ^ 32 := by
  obtain ⟨-, -, v, hv, hr⟩ := s.arrive_keeps c n
  rw [State.fget_congr _ _ _ _ _ _ hr, s.fget_fset_same F.EP_ARRIVE_COUNT v c n 0 (by decide) (by decide), hv]
  exact Nat.mod_mod _ _

/-- The 64 arrival counters of a core stand below the matrix engine's STATUS. -/
theorem epArrive_ne_mxStatus (n : Nat) (h : n < 64) : RegId.MX_STATUS.addr c 0 0 ≠ RegId.EP_ARRIVE.addr c n 0 := by
  simp only [RegId.addr, RegId.defn, Block.place]
  omega

/-- The oldest drain has completed: DRAINED is set. -/
def State.mxDrained (s : State) (c t : Nat) (rest : List Drain) : State :=
  ((s.atTb t).setMx c { s.mxc c with drains := rest }).fset F.MX_STATUS_DRAINED 1 c

/-- A drain that has completed, and with ARRIVE its counter's increase. -/
def State.mxDrainDone (s : State) (c t : Nat) (d : Drain) (rest : List Drain) : State :=
  if d.arrive then (s.mxDrained c t rest).arrive c d.ctr else s.mxDrained c t rest

theorem exec_mxDrainComplete (c : Core) (d : Drain) (rest : List Drain) (b : Nat) (hd : (s.mxc c).drains = d :: rest) (ht : d.t = some b)
    (hv : (s.mxc c).vecs.all (fun v => d.upto ≤ v.pass) = true) :
    ∃ t, exec (.mxDrainComplete c) s = .next (s.mxDrainDone c t d rest) := by
  have hany : ((s.mxc c).vecs.any fun v => decide (v.pass < d.upto)) = false := by
    rw [List.any_eq_false]
    intro v hvm
    simpa using List.all_eq_true.1 hv v hvm
  show ∃ t, execMxDrainComplete c s = _
  unfold execMxDrainComplete
  simp only [hd, ht, hany, Bool.false_eq_true, if_false, State.atTb_mxc]
  exact ⟨_, rfl⟩

theorem State.mxDrained_spec (t : Nat) (rest : List Drain) : ((s.mxDrained c t rest).mxc c).drains = rest
    ∧ (s.mxDrained c t rest).fget F.MX_STATUS_DRAINED c = 1 ∧ (s.mxDrained c t rest).vx = s.vx
    ∧ EngFrame c [RegId.MX_STATUS.addr c 0 0] s (s.mxDrained c t rest) :=
  ⟨congrArg Mx.drains (State.mxc_setMx_same _ _ _), State.fget_fset_same _ F.MX_STATUS_DRAINED 1 c 0 0 (by decide) (by decide),
    s.atTb_vx t, (((EngFrame.refl s c _).atTb t).setMx _).fset F.MX_STATUS_DRAINED 1 c 0 0 (.head _)⟩

theorem State.mxDrainDone_spec (t : Nat) (d : Drain) (rest : List Drain) (hc : d.ctr < 64) :
    ((s.mxDrainDone c t d rest).mxc c).drains = rest ∧ (s.mxDrainDone c t d rest).fget F.MX_STATUS_DRAINED c = 1
      ∧ (s.mxDrainDone c t d rest).fget F.EP_ARRIVE_COUNT c d.ctr
        = (if d.arrive then (s.fget F.EP_ARRIVE_COUNT c d.ctr + 1) % 2 ^ 32 else s.fget F.EP_ARRIVE_COUNT c d.ctr)
      ∧ MxFrame c [RegId.MX_STATUS.addr c 0 0, RegId.EP_ARRIVE.addr c d.ctr 0] s (s.mxDrainDone c t d rest) := by
  obtain ⟨hds, hst, hvx, hf⟩ := s.mxDrained_spec c t rest
  have hne := epArrive_ne_mxStatus c d.ctr hc
  have hctr : (s.mxDrained c t rest).fget F.EP_ARRIVE_COUNT c d.ctr = s.fget F.EP_ARRIVE_COUNT c d.ctr := by
    refine hf.1.fget F.EP_ARRIVE_COUNT c d.ctr 0 ?_
    simp only [List.mem_cons, List.not_mem_nil, or_false, not_or]
    exact ⟨RegId.addr_ne_skimmed _ _ _ _ rfl, hne.symm⟩
  have hf' := hf.mono (l := [RegId.MX_STATUS.addr c 0 0, RegId.EP_ARRIVE.addr c d.ctr 0]) (by simp)
  unfold State.mxDrainDone
  split
  · obtain ⟨hm, hv, v, -, hr⟩ := (s.mxDrained c t rest).arrive_keeps c d.ctr
    refine ⟨(congrArg Mx.drains (mxc_congr hm c)).trans hds, ?_, ?_, (hf'.arrive d.ctr (.tail _ (.head _))).mxFrame (hv.trans hvx)⟩
    · rw [State.fget_congr _ _ _ _ _ _ hr, State.fget_fset_ne _ F.EP_ARRIVE_COUNT F.MX_STATUS_DRAINED _ _ _ _ _ _ _ hne]
      exact hst
    · rw [State.fget_arrive_same, hctr]
  · exact ⟨hds, hst, hctr, hf'.mxFrame hvx⟩

theorem matrixPassesAndDrainsComplete : Claim.MatrixPassesAndDrainsComplete := by
  intro s c
  refine ⟨fun p rest hp he hv => ?_, fun d rest b hd ht hc hv => ?_⟩
  · obtain ⟨t, a, k, h⟩ := exec_mxPassComplete s c p rest hp he hv
    obtain ⟨hps, hn, hf⟩ := s.mxPassDone_spec c t rest
    refine ⟨_, h, ?_⟩
    split
    next ho =>
      obtain ⟨hm, hk, hr⟩ := (s.mxPassDone c t rest).coreSend_keeps c a k
      refine ⟨(congrArg Mx.passes (mxc_congr hm c)).trans hps, ?_, hf.2.1.trans hk, fun h => ?_⟩
      · rw [hr.rd .MX_PASSES c 0 0 (by simp only [RegId.addr, RegId.defn, Block.place, List.mem_cons, List.not_mem_nil, or_false]; omega)]
        exact hn
      · rw [h] at ho; cases ho
    next ho => exact ⟨hps, hn, hf.2.1, fun _ => hf⟩
  · obtain ⟨t, h⟩ := exec_mxDrainComplete s c d rest b hd ht hv
    exact ⟨_, h, s.mxDrainDone_spec c t d rest hc⟩

/-! ## A whole line is written (R206, R215, R220) -/

/-- A line that grows by byte e of the new one. -/
def appendByte (new : List Byte) (acc : List Byte × Bool × List Nat) (e : Nat) : List Byte × Bool × List Nat :=
  (acc.1 ++ (new.drop e).take 1, acc.2)

theorem foldl_appendByte (new : List Byte) (k : Nat) (hk : k ≤ new.length) :
    (List.range k).foldl (appendByte new) ([], false, []) = (new.take k, false, []) := by
  induction k with
  | zero => rfl
  | succ k ih =>
    rw [List.range_succ, List.foldl_append, ih (by omega), List.foldl_cons, List.foldl_nil, appendByte,
      List.drop_eq_getElem_cons (by omega), List.take_succ_cons, List.take_zero, List.take_succ_eq_append_getElem (by omega)]

/-- A replacing write under a full mask takes every byte of the new line. -/
theorem lineAfter_whole (old new : List Byte) (hl : new.length = 64) : lineAfter 0 fullMask old new = (new, false, []) := by
  have hmask : ∀ e < 64, maskAll fullMask e 1 = true := by decide
  have hbyte : ∀ b : Byte, leBytes 1 (leNat [b]) = [b] := fun b => by simp [leBytes, leNat]
  have hsteps : lineAfter 0 fullMask old new = (List.range 64).foldl (appendByte new) ([], false, []) := by
    unfold lineAfter
    refine List.foldl_ext _ _ _ fun acc e he => ?_
    have he : e < 64 := List.mem_range.1 he
    simp only [wopSize, wopApply, Nat.mul_one, hmask e he, if_true, Bool.false_eq_true, if_false, appendByte,
      List.drop_eq_getElem_cons (hl ▸ he : e < new.length), List.take_succ_cons, List.take_zero, hbyte]
  rw [hsteps, foldl_appendByte new 64 (by omega), List.take_of_length_le (by omega)]

/-- A whole line that is written: its bytes and its fresh code, and nothing else. -/
theorem State.spWrite_whole (line port : Nat) (w : SpWr) (h0 : w.wop = 0) (hm : w.mask = fullMask) (hl : w.data.length = 64)
    (hp : w.poison = false) (hi : s.flag F.SP_CTRL_INJ_ARM c = false) : s.spWrite c line port w = { s with
      sp := mputs 0 s.sp (s.spByte c (64 * line)) w.data
      spCode := mput 0 s.spCode (s.lineKey c line) 0 } := by
  unfold State.spWrite
  simp only [h0, hm, lineAfter_whole _ _ hl, hp, hi, beq_self_eq_true, Bool.and_self, Bool.not_true, Bool.false_and, Bool.or_self,
    Bool.false_eq_true, if_false, List.foldl_nil]

/-- An access of a line in no tag window passes and leaves the tags (R185). -/
theorem State.tagAccess_untagged (line port : Nat) (wr : Option Nat) (h : Untagged s c line) : s.tagAccess c line port wr = some s := by
  unfold State.tagAccess
  cases hs : s.slotOf c with
  | none => rfl
  | some t => simp only [h t hs]

/-! ## What waiting leaves of the scratchpad's tests -/

theorem RegsKept.tagWindow {s t : State} (h : RegsKept s t [RegId.CLK_SKIMMED.addr 0 0 0]) (i line : Nat) :
    t.tagWindow i line = s.tagWindow i line := by
  have hf : ∀ (f : Fld) (j : Nat), f.reg.defn.blk = .TRACT → t.fget f i j = s.fget f i j := fun f j hb => by
    refine h.fget f i j 0 ?_
    rw [List.mem_singleton, show RegId.CLK_SKIMMED.addr 0 0 0 = 0x100120 from rfl, RegId.addr, hb]
    simp only [Block.place]
    omega
  simp (disch := decide) only [State.tagWindow, hf]

theorem RegsKept.untagged {s t : State} (h : RegsKept s t [RegId.CLK_SKIMMED.addr 0 0 0]) {c line : Nat} (hu : Untagged s c line) :
    Untagged t c line := fun i hi => by
  rw [h.slotOf] at hi
  rw [h.tagWindow, hu i hi]

theorem RegsKept.phys {s t : State} (h : RegsKept s t [RegId.CLK_SKIMMED.addr 0 0 0]) (c : Core) : t.phys c = s.phys c := by
  have hf : ∀ (f : Fld) (j : Nat), f.reg = .MOD_SPARE_SKIP → j < 600 → t.fget f 0 j = s.fget f 0 j := fun f j hr hj => by
    refine h.fget f 0 j 0 ?_
    rw [List.mem_singleton, hr]
    simp only [RegId.addr, RegId.defn, Block.place]
    omega
  have := c.isLt
  have hseg : c.val / 150 * 5 + c.val % 150 / 30 < 600 := by omega
  simp only [State.phys]
  rw [hf F.MOD_SPARE_SKIP_SKIP_A _ rfl hseg, hf F.MOD_SPARE_SKIP_SKIP_B _ rfl hseg]

/-! ## Output rows are served (R105, R546) -/

/-- The scratchpad's record once a port's request has been served in the slot that begins at TB t. -/
def SpCore.servedAt (x : SpCore) (port b t : Nat) (r : SpReq) : SpCore :=
  { x with
    reqs := mupd [] x.reqs port (fun q => q.erase r)
    last := mput (0, 0) x.last port
      (if (mget (0, 0) x.last port).1 = t then (t, (mget (0, 0) x.last port).2 + 1) else (t, 1))
    blocked := merase x.blocked (port * 32 + b) }

/-- A request of a port has left its queue in the slot that begins at TB t. -/
def State.atSlot (s : State) (c port t : Nat) (r : SpReq) : State :=
  (s.atTb t).setSp c ((s.spCore c).servedAt port (r.line % 32) t r)

theorem State.atSlot_regsKept (port t : Nat) (r : SpReq) : RegsKept s (s.atSlot c port t r) [RegId.CLK_SKIMMED.addr 0 0 0] :=
  s.atTb_regsKept t _ (.head _)

theorem State.atSlot_engFrame (port t : Nat) (r : SpReq) : EngFrame c [] s (s.atSlot c port t r) :=
  ((EngFrame.refl s c []).atTb t).setSp _

/-- Where the request waited alone, nothing waits any longer. -/
theorem State.atSlot_reqs (port t : Nat) (r : SpReq) (hr : mget [] (s.spCore c).reqs port = [r]) :
    mget [] ((s.atSlot c port t r).spCore c).reqs port = [] := by
  rw [State.atSlot, State.spCore_setSp_same, SpCore.servedAt, mget_mupd_same, hr]
  simp only [List.erase_cons_head]

/-- A port's only request, an untagged write, is served in its slot. -/
theorem State.serve_write (port t : Nat) (r : SpReq) (w : SpWr) (hr : mget [] (s.spCore c).reqs port = [r]) (hw : r.wr = some w)
    (hrow : (s.spCore c).rowHeld (r.line % 32 / 8) = false) (ht : s.slotFor c port (r.line % 32) (max r.tb s.clk.tb) = some t)
    (hu : Untagged s c r.line) :
    s.serve c port (r.line % 32) = some ⟨(s.atSlot c port t r).spWrite c r.line port w, r, [], false, t⟩ := by
  have hk : RegsKept s (s.atTb t) [RegId.CLK_SKIMMED.addr 0 0 0] := s.atTb_regsKept t _ (.head _)
  have htag := (s.atTb t).tagAccess_untagged c r.line port (some w.wop) (hk.untagged hu)
  unfold State.serve
  simp only [hr, List.find?_cons, beq_self_eq_true, hrow, Bool.false_eq_true, if_false, ht, hw, Option.map_some, htag, s.atTb_spCore]
  rfl

/-- A port at which nothing waits serves nothing. -/
theorem State.serveAll_nil (port n : Nat) (p : SpUse → Bool) (h : mget [] (s.spCore c).reqs port = []) : s.serveAll c port p n = s := by
  cases n with
  | zero => rfl
  | succ n => rw [State.serveAll, h]; rfl

/-- The single line of an output row is served as a line's write. -/
theorem exec_mxOutputRowServed (c : Core) (r : SpReq) (w : SpWr) (t : Nat) (hr : mget [] (s.spCore c).reqs pMX_COLL = [r])
    (huse : r.use = .out 0 0) (hw : r.wr = some w) (hrow : (s.spCore c).rowHeld (r.line % 32 / 8) = false)
    (ht : s.slotFor c pMX_COLL (r.line % 32) (max r.tb s.clk.tb) = some t) (hu : Untagged s c r.line)
    (hnil : mget [] (((s.atSlot c pMX_COLL t r).spWrite c r.line pMX_COLL w).spCore c).reqs pMX_COLL = []) :
    exec (.mxOutputRowServed c) s = .next ((s.atSlot c pMX_COLL t r).spWrite c r.line pMX_COLL w) := by
  have hrows : (s.spCore c).outRows = [0] := by simp [SpCore.outRows, hr, huse]
  show execMxOutputRowServed c s = _
  unfold execMxOutputRowServed State.serveAll
  simp only [hrows, hr, List.find?_cons, huse, beq_self_eq_true, s.serve_write c pMX_COLL t r w hr hw hrow ht hu,
    State.serveAll_nil _ _ _ _ _ hnil]

theorem matrixOutputRowServed : Claim.MatrixOutputRowServed := by
  intro s c r w hr huse hw h0 hl hm hp hu hi hrow hslot
  obtain ⟨t, ht⟩ := Option.isSome_iff_exists.1 hslot
  have hk := s.atSlot_regsKept c pMX_COLL t r
  have hm' := (s.atSlot_engFrame c pMX_COLL t r).memKept
  have hreqs := s.atSlot_reqs c pMX_COLL t r hr
  have hphys : (s.atSlot c pMX_COLL t r).spByte c (64 * r.line) = s.spByte c (64 * r.line) := by
    rw [State.spByte, State.spByte, hk.phys c]
  have hinj : (s.atSlot c pMX_COLL t r).flag F.SP_CTRL_INJ_ARM c = false := by
    rw [State.flag, hk.fget F.SP_CTRL_INJ_ARM c 0 0 (by rw [List.mem_singleton]; exact RegId.addr_ne_skimmed _ _ _ _ rfl)]
    exact hi
  have hwrite := State.spWrite_whole _ c r.line pMX_COLL w h0 hm hl hp hinj
  have hexec := exec_mxOutputRowServed s c r w t hr huse hw hrow ht hu
  rw [hwrite] at hexec
  generalize s.atSlot c pMX_COLL t r = u at *
  refine ⟨_, hexec hreqs, ?_, hreqs, fun a ha => ?_, hm'.2, hk⟩
  · show mgets 0 (mputs 0 u.sp (u.spByte c (64 * r.line)) w.data) (u.spByte c (64 * r.line)) 64 = w.data
    rw [← hl, mgets_mputs]
  · rw [spRange, ← hphys] at ha
    show mget 0 (mputs 0 u.sp (u.spByte c (64 * r.line)) w.data) a = mget 0 s.sp a
    rw [mget_mputs, hl, if_neg ha]
    exact hm'.1.1 a

/-- Settles O10: a vector's verdict, the one line of an output row, and the ends of passes and drains. -/
theorem matrixOutputs : Obligations.MatrixOutputs := ⟨matrixVectorsComplete, matrixOutputRowServed, matrixPassesAndDrainsComplete⟩

end Sys2Proof.Machine
end

section
/-! # The vector engine's bundles (R119, R140, R141, R151, R152) -/

namespace Sys2Proof

/-! ## Fields below an operation code -/

/-- A field depends only on the number's low bits. -/
theorem bits_congr_mod {a b n : Nat} (h : a % 2 ^ n = b % 2 ^ n) (hi lo : Nat) (hn : hi < n) : bits a hi lo = bits b hi lo := by
  apply Nat.eq_of_testBit_eq
  intro i
  rw [bits_testBit, bits_testBit]
  by_cases hi' : i < hi + 1 - lo
  · have := congrArg (Nat.testBit · (lo + i)) h
    simpa [Nat.testBit_mod_two_pow, hi', show lo + i < n by omega] using this
  · simp [hi']

/-- What stands above bit n does not show in a field below it. -/
theorem bits_add_high (k n v hi lo : Nat) (hn : hi < n) : bits (k * 2 ^ n + v) hi lo = bits v hi lo :=
  bits_congr_mod (Nat.mul_add_mod' k (2 ^ n) v) hi lo hn

theorem bit_eq_bits (v n : Nat) : bit v n = (bits v n n == 1) := by
  rw [bit, bits, Nat.add_sub_cancel_left]
  rfl

theorem bit_add_high (k n v i : Nat) (hn : i < n) : bit (k * 2 ^ n + v) i = bit v i := by
  rw [bit_eq_bits, bit_eq_bits, bits_add_high k n v i i hn]

end Sys2Proof

namespace Sys2Proof.Machine

variable (s : State) (c : Nat)

theorem bits_withOp (op : Nat) (p : BitVec 76) (hi lo : Nat) (h : hi < 76) : bits (withOp op p) hi lo = bits p.toNat hi lo :=
  bits_add_high op 76 p.toNat hi lo h

theorem bit_withOp (op : Nat) (p : BitVec 76) (i : Nat) (h : i < 76) : bit (withOp op p) i = bit p.toNat i :=
  bit_add_high op 76 p.toNat i h

/-! ## A released bundle leaves the queue (R167) -/

/-- The first element of its kind is erased as such. -/
theorem erase_of_find? {α : Type} [DecidableEq α] (l : List α) (p : α → Bool) (b : α) (h : l.find? p = some b) :
    l.erase b = l.eraseP p := by
  induction l with
  | nil => rfl
  | cons a l ih =>
    rw [List.find?_cons] at h
    split at h
    next ha =>
      obtain rfl := Option.some.inj h
      rw [List.erase_cons_head, List.eraseP_cons_of_pos ha]
    next ha =>
      have hab : a ≠ b := fun e => by
        rw [e, List.find?_some h] at ha
        cases ha
      rw [List.erase_cons_tail (by simpa using hab), List.eraseP_cons_of_neg (by simp [ha]), ih h]

/-- A bundle has left the vector queue of core c, and no memory differs. -/
def VxTaken (c payload : Nat) (s t : State) : Prop :=
  (t.core c).vq = (s.core c).vq.eraseP (fun b => b.payload == payload) ∧ MemKept s t

/-- A bundle has left the vector queue of core c, and beside it only the time and the release's record differ. -/
def VxPopped (c payload : Nat) (s u : State) : Prop :=
  (u.core c).vq = (s.core c).vq.eraseP (fun b => b.payload == payload)
    ∧ u.mx = s.mx ∧ u.vx = s.vx ∧ u.spc = s.spc ∧ EngFrame c [] s u

theorem State.popBundle_vx (payload : Nat) : VxPopped c payload s (s.popBundle c 1 payload).1 := by
  unfold State.popBundle
  cases h : ((s.core c).queue 1).find? (fun b => b.payload == payload) with
  | none => exact ⟨(List.eraseP_of_forall_not (List.find?_eq_none.1 h)).symm, rfl, rfl, rfl, .refl s c _⟩
  | some b =>
    refine ⟨?_, s.atTb_mx _, s.atTb_vx _, s.atTb_spc _, ((EngFrame.refl s c _).atTb _).setCore _⟩
    simp only [State.core_setCore_same, State.atTb_core]
    exact erase_of_find? _ _ b h

section
variable {s c} {payload : Nat} {u t : State} {regs : List Nat}

theorem VxPopped.fget (h : VxPopped c payload s u) (f : Fld) (hf : f.reg.defn.blk.place.1 = 0x4000000) : u.fget f c = s.fget f c := by
  obtain ⟨-, -, -, -, hr, -⟩ := h
  exact hr.fget f c 0 0 (by rw [List.mem_singleton]; exact f.reg.addr_ne_skimmed c 0 0 hf)

theorem VxPopped.vxc (h : VxPopped c payload s u) (d : Nat) : u.vxc d = s.vxc d := vxc_congr h.2.2.1 d

/-- The engine is as it was before the bundle was released. -/
theorem VxPopped.vxOff (h : VxPopped c payload s u) (hs : s.fget F.VX_STATUS_STATE c = eENABLED) : u.vxOff c = false := by
  rw [State.vxOff, h.fget F.VX_STATUS_STATE rfl, hs]
  rfl

/-- What follows a release within the engine's frame. -/
theorem VxPopped.after (h : VxPopped c payload s u) (hf : EngFrame c regs u t) (he : t.ep = u.ep) (hm : t.mx = u.mx) :
    VxTaken c payload s t ∧ VxFrame c regs s t := by
  obtain ⟨hq, hm', -, -, hf'⟩ := h
  have hfr : EngFrame c regs s t := (hf'.mono fun _ h => nomatch h).trans hf
  exact ⟨⟨(congrArg Epru.vq (core_congr he c)).trans hq, hfr.memKept⟩, hfr.vxFrame (hm.trans hm')⟩

/-- What follows a release in the registers alone. -/
theorem VxPopped.afterRegs (h : VxPopped c payload s u) (hf : EngFrame c regs u t) (ht : SameButRegs u t) :
    VxTaken c payload s t ∧ t.vxc c = s.vxc c ∧ VxFrame c regs s t := by
  have hv : t.vx = u.vx := (congrArg State.vx ht :)
  obtain ⟨hp, hfr⟩ := h.after hf (congrArg State.ep ht :) (congrArg State.mx ht :)
  exact ⟨hp, (vxc_congr hv c).trans (h.vxc c), hfr⟩

end

/-! ## The bundles that set registers (R119, R140, R141) -/

theorem exec_vxNop (c : Core) (p : BitVec 76) (h0 : p.toNat = 0) (hon : (s.popBundle c 1 0).1.vxOff c = false) :
    exec (.vxNop c p) s = .next (s.popBundle c 1 0).1 := by
  have hp : withOp 0 p = 0 := by rw [withOp, h0, Nat.zero_mul]
  show execVxNop c p s = _
  unfold execVxNop
  rw [hp, h0]
  simp only [hon]
  rfl

theorem exec_vsetl (c : Core) (p : BitVec 76) (h0 : bits p.toNat 64 0 = 0)
    (hon : (s.popBundle c 1 (2 ^ 76 + p.toNat)).1.vxOff c = false) :
    exec (.vsetl c p) s = .next ((s.popBundle c 1 (2 ^ 76 + p.toNat)).1.wr .VX_VL (BitVec.ofNat 64
      (min (bits p.toNat 74 65) (vlMax (bits p.toNat 75 75)) + bits p.toNat 75 75 * 2 ^ 16)) c) := by
  have hp : withOp 1 p = 2 ^ 76 + p.toNat := by rw [withOp, Nat.one_mul]
  show execVsetl c p s = _
  unfold execVsetl
  simp (disch := decide) only [bits_withOp, h0]
  rw [hp, hon]
  rfl

theorem exec_posBase (c : Core) (w : BitVec 74) (h0 : bits w.toNat 33 0 = 0)
    (hon : (s.popBundle c 1 (4 * 2 ^ 76 + w.toNat)).1.vxOff c = false) :
    exec (.posBase c false w) s = .next (((s.popBundle c 1 (4 * 2 ^ 76 + w.toNat)).1.fset F.VX_POS_Q_BASE (bits w.toNat 73 54) c).fset
      F.VX_POS_K_BASE (bits w.toNat 53 34) c) := by
  have hp : 4 * 2 ^ 76 + b2n false * 2 ^ 75 + w.toNat = 4 * 2 ^ 76 + w.toNat := by simp [b2n]
  show execPosBase c false w s = _
  unfold execPosBase
  rw [hp]
  simp (disch := decide) only [bits_add_high, h0, hon]
  rfl

theorem exec_posWindow (c : Core) (w : BitVec 74) (h0 : bits w.toNat 49 0 = 0) (h9 : bits w.toNat 53 50 ≤ 9)
    (hon : (s.popBundle c 1 (4 * 2 ^ 76 + 2 ^ 74 + w.toNat)).1.vxOff c = false) :
    exec (.posWindow c false w) s = .next (((s.popBundle c 1 (4 * 2 ^ 76 + 2 ^ 74 + w.toNat)).1.fset F.VX_POS_CFG_WINDOW
      (bits w.toNat 73 54) c).fset F.VX_POS_CFG_RLOG (bits w.toNat 53 50) c) := by
  have hp : 4 * 2 ^ 76 + b2n false * 2 ^ 75 + 2 ^ 74 + w.toNat = 4 * 2 ^ 76 + 2 ^ 74 + w.toNat := by simp [b2n]
  have hf : ∀ hi lo, hi < 74 → bits (4 * 2 ^ 76 + 2 ^ 74 + w.toNat) hi lo = bits w.toNat hi lo := fun hi lo h => by
    rw [show 4 * 2 ^ 76 + 2 ^ 74 = 17 * 2 ^ 74 by norm_num, bits_add_high 17 74 w.toNat hi lo h]
  show execPosWindow c false w s = _
  unfold execPosWindow
  rw [hp]
  simp (disch := decide) only [hf, h0, hon, decide_eq_false (Nat.not_lt.2 h9)]
  rfl

/-- VX_VL after a VSETL holds the element width and the length (R119). -/
theorem State.vxVl_spec (ew avl : Nat) (he : ew < 2) :
    let t := s.wr .VX_VL (BitVec.ofNat 64 (min avl (vlMax ew) + ew * 2 ^ 16)) c
    t.fget F.VX_VL_EW c = ew ∧ t.fget F.VX_VL_VL c = min avl (vlMax ew) := by
  have hm : vlMax ew ≤ 512 := by unfold vlMax; split <;> omega
  have hv : (BitVec.ofNat 64 (min avl (vlMax ew) + ew * 2 ^ 16)).toNat = min avl (vlMax ew) + ew * 2 ^ 16 := by
    rw [BitVec.toNat_ofNat]; omega
  simp only [State.fget, State.rd_wr_same, hv, bits]
  omega

/-! ## Document tables (R152, R153) -/

/-- No DOCLD waits. -/
theorem State.vxDocs_nil (h : (s.vxc c).docWait = []) : s.vxDocs c = s := by
  unfold State.vxDocs
  rw [h]
  rfl

theorem all_lt_of_isChain (l : List Nat) (h : l.IsChain (· < ·)) : ((l.zip (l.drop 1)).all fun p => decide (p.1 < p.2)) = true := by
  induction l with
  | nil => rfl
  | cons a l ih =>
    cases l with
    | nil => rfl
    | cons b l =>
      rw [List.isChain_cons_cons] at h
      simp only [List.drop_succ_cons, List.drop_zero, List.zip_cons_cons, List.all_cons, Bool.and_eq_true, decide_eq_true_eq]
      exact ⟨h.1, ih h.2⟩

/-- The table that a DOCLD reads from its register. -/
def Vx.docEntries (x : Vx) (payload : Nat) : List Nat :=
  (x.regElems (bits payload 75 71) 4 0 (bits payload 70 62)).map (· % 2 ^ 20)

/-- The only DOCLD, with ascending entries and no chain before it, is read. -/
theorem State.vxDocs_one (d : VxDoc) (hd : (s.vxc c).docWait = [d]) (hc : (s.vxc c).chains = [])
    (hasc : ((s.vxc c).docEntries d.payload).IsChain (· < ·)) :
    s.vxDocs c = s.setVx c { s.vxc c with docs := mput [] (s.vxc c).docs d.id ((s.vxc c).docEntries d.payload), docWait := [] } := by
  have hall := all_lt_of_isChain _ hasc
  unfold Vx.docEntries at hall
  unfold State.vxDocs
  simp only [hd, hc, List.foldl_cons, List.foldl_nil, List.any_cons, List.any_nil, beq_self_eq_true, Bool.true_or, Bool.not_true,
    Bool.false_eq_true, if_false, hall, if_true, bne_self_eq_false, List.filter_cons, List.filter_nil]
  rfl

/-- A DOCLD has set its count and waits for its register. -/
def State.vxDocHeld (s : State) (c payload : Nat) : State :=
  (s.setVx c { s.vxc c with
    docId := (s.vxc c).docId + 1
    docWait := (s.vxc c).docWait ++ [⟨(s.vxc c).docId + 1, payload, (s.vxc c).nextId⟩] }).fset F.VX_DOC_COUNT_COUNT (bits payload 70 62) c

theorem exec_docld (c : Core) (p : BitVec 76) (h0 : bits p.toNat 61 0 = 0) (hn : bits p.toNat 70 62 ≤ 256)
    (hon : (s.popBundle c 1 (5 * 2 ^ 76 + p.toNat)).1.vxOff c = false) :
    exec (.docld c p) s = .next (((s.popBundle c 1 (5 * 2 ^ 76 + p.toNat)).1.vxDocHeld c (5 * 2 ^ 76 + p.toNat)).vxDocs c) := by
  have hf : ∀ hi lo, hi < 76 → bits (5 * 2 ^ 76 + p.toNat) hi lo = bits p.toNat hi lo := bits_withOp 5 p
  show execDocld c p s = _
  unfold execDocld withOp State.vxDocHeld
  simp (disch := decide) only [hf, h0, hon, decide_eq_false (Nat.not_lt.2 hn)]
  rfl

theorem State.vxDocHeld_count (payload : Nat) : (s.vxDocHeld c payload).fget F.VX_DOC_COUNT_COUNT c = bits payload 70 62 := by
  rw [State.vxDocHeld, State.fget_fset_same _ _ _ _ _ _ (by decide) (by decide)]
  exact Nat.mod_eq_of_lt (bits_lt payload 70 62)

theorem State.vxDocHeld_engFrame (payload : Nat) : EngFrame c [RegId.VX_DOC_COUNT.addr c 0 0] s (s.vxDocHeld c payload) :=
  ((EngFrame.refl s c _).setVx _).fset F.VX_DOC_COUNT_COUNT _ c 0 0 (.head _)

/-- The only DOCLD is read at once where no chain stands before it. -/
theorem State.vxDocHeld_vxDocs (payload : Nat) (hw : (s.vxc c).docWait = []) (hc : (s.vxc c).chains = [])
    (hasc : ((s.vxc c).docEntries payload).IsChain (· < ·)) :
    (s.vxDocHeld c payload).vxDocs c = (s.vxDocHeld c payload).setVx c { s.vxc c with
      docId := (s.vxc c).docId + 1
      docs := mput [] (s.vxc c).docs ((s.vxc c).docId + 1) ((s.vxc c).docEntries payload), docWait := [] } := by
  have hx : (s.vxDocHeld c payload).vxc c = { s.vxc c with
      docId := (s.vxc c).docId + 1
      docWait := (s.vxc c).docWait ++ [⟨(s.vxc c).docId + 1, payload, (s.vxc c).nextId⟩] } := State.vxc_setVx_same _ _ _
  rw [State.vxDocs_one _ c ⟨(s.vxc c).docId + 1, payload, (s.vxc c).nextId⟩ (by rw [hx, hw]; rfl) (by rw [hx, hc])
    (by rw [hx]; exact hasc), hx]
  rfl

/-! ## Drains (R151) -/

theorem exec_vdrain (c : Core) (p : BitVec 76) (h0 : bits p.toNat 68 0 = 0)
    (hon : (s.popBundle c 1 (6 * 2 ^ 76 + p.toNat)).1.vxOff c = false) :
    ∃ rel, exec (.vdrain c p) s = .next (let u := (s.popBundle c 1 (6 * 2 ^ 76 + p.toNat)).1
      u.setVx c { u.vxc c with
        drains := (u.vxc c).drains ++ [(u.vxc c).drainNow rel (bit p.toNat 75) (bits p.toNat 74 69)] }) := by
  have hf : ∀ hi lo, hi < 76 → bits (6 * 2 ^ 76 + p.toNat) hi lo = bits p.toNat hi lo := bits_withOp 6 p
  have hb : ∀ i, i < 76 → bit (6 * 2 ^ 76 + p.toNat) i = bit p.toNat i := bit_withOp 6 p
  show ∃ rel, execVdrain c p s = _
  unfold execVdrain withOp
  simp (disch := decide) only [hf, hb, h0, hon]
  exact ⟨_, rfl⟩

/-! ## What each bundle leaves -/

section
variable {s c} {payload : Nat} {u : State}

theorem VxPopped.setVl (h : VxPopped c payload s u) (ew avl : Nat) (he : ew < 2) :
    let t := u.wr .VX_VL (BitVec.ofNat 64 (min avl (vlMax ew) + ew * 2 ^ 16)) c
    VxTaken c payload s t ∧ t.fget F.VX_VL_EW c = ew ∧ t.fget F.VX_VL_VL c = min avl (vlMax ew) ∧ t.vxc c = s.vxc c
      ∧ VxFrame c [RegId.VX_VL.addr c 0 0] s t := by
  intro t
  obtain ⟨hq, hv, hfr⟩ := h.afterRegs (t := t) ((EngFrame.refl u c _).wr .VX_VL _ c 0 0 (.head _)) ((SameButRegs.refl u).wr _ _ _ _ _)
  obtain ⟨hew, hvl⟩ := u.vxVl_spec c ew avl he
  exact ⟨hq, hew, hvl, hv, hfr⟩

theorem VxPopped.setPos (h : VxPopped c payload s u) (q k : Nat) (hq : q < 2 ^ 20) (hk : k < 2 ^ 20) :
    let t := (u.fset F.VX_POS_Q_BASE q c).fset F.VX_POS_K_BASE k c
    VxTaken c payload s t ∧ t.fget F.VX_POS_Q_BASE c = q ∧ t.fget F.VX_POS_K_BASE c = k ∧ t.vxc c = s.vxc c
      ∧ VxFrame c [RegId.VX_POS_Q.addr c 0 0, RegId.VX_POS_K.addr c 0 0] s t := by
  intro t
  obtain ⟨ht, hv, hfr⟩ := h.afterRegs (t := t)
    (((EngFrame.refl u c _).fset F.VX_POS_Q_BASE q c 0 0 (.head _)).fset F.VX_POS_K_BASE k c 0 0 (.tail _ (.head _)))
    (((SameButRegs.refl u).fset _ _ _ _ _).fset _ _ _ _ _)
  refine ⟨ht, ?_, ?_, hv, hfr⟩
  · rw [State.fget_fset_reg _ F.VX_POS_K_BASE F.VX_POS_Q_BASE _ c c rfl (by decide), State.fget_fset_same _ _ _ _ _ _ (by decide) (by decide)]
    exact Nat.mod_eq_of_lt hq
  · rw [State.fget_fset_same _ _ _ _ _ _ (by decide) (by decide)]
    exact Nat.mod_eq_of_lt hk

theorem VxPopped.setWindow (h : VxPopped c payload s u) (window rlog : Nat) (hw : window < 2 ^ 20) (hr : rlog < 2 ^ 4) :
    let t := (u.fset F.VX_POS_CFG_WINDOW window c).fset F.VX_POS_CFG_RLOG rlog c
    VxTaken c payload s t ∧ t.fget F.VX_POS_CFG_WINDOW c = window ∧ t.fget F.VX_POS_CFG_RLOG c = rlog ∧ t.vxc c = s.vxc c
      ∧ VxFrame c [RegId.VX_POS_CFG.addr c 0 0] s t := by
  intro t
  obtain ⟨ht, hv, hfr⟩ := h.afterRegs (t := t)
    (((EngFrame.refl u c _).fset F.VX_POS_CFG_WINDOW window c 0 0 (.head _)).fset F.VX_POS_CFG_RLOG rlog c 0 0 (.head _))
    (((SameButRegs.refl u).fset _ _ _ _ _).fset _ _ _ _ _)
  refine ⟨ht, ?_, ?_, hv, hfr⟩
  · rw [State.fget_fset_beside _ F.VX_POS_CFG_RLOG F.VX_POS_CFG_WINDOW _ c rfl (by decide),
      State.fget_fset_same _ _ _ _ _ _ (by decide) (by decide)]
    exact Nat.mod_eq_of_lt hw
  · rw [State.fget_fset_same _ _ _ _ _ _ (by decide) (by decide)]
    exact Nat.mod_eq_of_lt hr

theorem VxPopped.readDocs (h : VxPopped c payload s u) (v : Nat) (hw : (s.vxc c).docWait = []) (hc : (s.vxc c).chains = [])
    (hasc : ((s.vxc c).docEntries v).IsChain (· < ·)) :
    let t := (u.vxDocHeld c v).vxDocs c
    VxTaken c payload s t ∧ t.fget F.VX_DOC_COUNT_COUNT c = bits v 70 62
      ∧ mget [] (t.vxc c).docs (t.vxc c).docId = (s.vxc c).docEntries v ∧ VxFrame c [RegId.VX_DOC_COUNT.addr c 0 0] s t := by
  intro t
  have hx := h.vxc c
  have ht : t = _ := u.vxDocHeld_vxDocs c v (by rw [hx]; exact hw) (by rw [hx]; exact hc) (by rw [hx]; exact hasc)
  rw [ht, hx]
  obtain ⟨hq, hfr⟩ := h.after ((u.vxDocHeld_engFrame c v).setVx _) rfl rfl
  refine ⟨hq, ?_, ?_, hfr⟩
  · exact (State.fget_congr _ _ _ _ _ _ (State.setVx_regs _ _ _)).trans (u.vxDocHeld_count c v)
  · rw [State.vxc_setVx_same]
    exact mget_mput_same _ _ _ _

theorem VxPopped.addDrain (h : VxPopped c payload s u) (rel : Nat) (arrive : Bool) (ctr : Nat) :
    let t := u.setVx c { u.vxc c with drains := (u.vxc c).drains ++ [(u.vxc c).drainNow rel arrive ctr] }
    VxTaken c payload s t ∧ (∃ d, (t.vxc c).drains = (s.vxc c).drains ++ [d] ∧ d.upto = (s.vxc c).nextId ∧ d.arrive = arrive ∧ d.ctr = ctr)
      ∧ VxFrame c [] s t := by
  intro t
  obtain ⟨hq, hfr⟩ := h.after (t := t) ((EngFrame.refl u c []).setVx _) rfl rfl
  refine ⟨hq, ⟨(s.vxc c).drainNow rel arrive ctr, ?_, rfl, rfl, rfl⟩, hfr⟩
  rw [State.vxc_setVx_same, h.vxc c]

end

theorem vectorBundlesTakeEffect : Claim.VectorBundlesTakeEffect := by
  intro s c p w hst v u popped
  have hpop := fun payload => s.popBundle_vx c payload
  have hon := fun payload => (hpop payload).vxOff hst
  refine ⟨fun h0 => ⟨_, exec_vxNop s c p h0 (hon _), ?_⟩, fun h0 => ⟨_, exec_vsetl s c p h0 (hon _), ?_⟩,
    fun h0 => ⟨_, exec_posBase s c w h0 (hon _), ?_⟩, fun h0 h9 => ⟨_, exec_posWindow s c w h0 h9 (hon _), ?_⟩,
    fun h0 hn hw hc => ?_, fun h0 => ?_⟩
  · exact (hpop 0).afterRegs (EngFrame.refl _ c []) (SameButRegs.refl _)
  · exact (hpop (2 ^ 76 + v)).setVl (bits v 75 75) (bits v 74 65) (bits_lt v 75 75)
  · exact (hpop (4 * 2 ^ 76 + u)).setPos _ _ (bits_lt u 73 54) (bits_lt u 53 34)
  · exact (hpop (4 * 2 ^ 76 + 2 ^ 74 + u)).setWindow _ _ (bits_lt u 73 54) (bits_lt u 53 50)
  · intro entries hasc
    have hf : ∀ hi lo, hi < 76 → bits (5 * 2 ^ 76 + v) hi lo = bits v hi lo := bits_withOp 5 p
    have hent : (s.vxc c).docEntries (5 * 2 ^ 76 + v) = entries := by
      simp (disch := decide) only [Vx.docEntries, hf]
      rfl
    obtain ⟨hq, hn', hd, hfr⟩ := (hpop (5 * 2 ^ 76 + v)).readDocs (5 * 2 ^ 76 + v) hw hc (by rw [hent]; exact hasc)
    exact ⟨_, exec_docld s c p h0 hn (hon _), hq, hn'.trans (hf 70 62 (by decide)), hd.trans hent, hfr⟩
  · obtain ⟨rel, h⟩ := exec_vdrain s c p h0 (hon _)
    exact ⟨_, h, (hpop (6 * 2 ^ 76 + v)).addDrain rel (bit v 75) (bits v 74 69)⟩

end Sys2Proof.Machine
end

section
/-! # The vector engine's descriptors (R152) -/

namespace Sys2Proof.Machine

variable (s : State) (c : Nat)

/-! ## Runs of lines are presented -/

/-- The first n lines from a line on are presented at a port as reads. -/
def State.presentRun (s : State) (c port line : Nat) (use : Nat → SpUse) (tb : Nat → Nat) (n : Nat) : State :=
  (List.range n).foldl (fun s i => s.present c port (line + i) (use i) none (tb i)) s

section
variable (port line : Nat) (use : Nat → SpUse) (tb : Nat → Nat) (n : Nat)

theorem State.presentRun_spOnly : SpOnly c s (s.presentRun c port line use tb n) :=
  foldl_keeps (SpOnly c s) _ (fun _ _ h => h.present _ _ _ _ _) _ s (.refl s c)

theorem State.presentRun_reqs : mget [] ((s.presentRun c port line use tb n).spCore c).reqs port
    = mget [] (s.spCore c).reqs port ++ (List.range n).map fun i => ⟨line + i, use i, none, tb i⟩ := by
  unfold State.presentRun
  induction n with
  | zero => simp
  | succ n ih =>
    rw [List.range_succ, List.foldl_append, List.foldl_cons, List.foldl_nil, State.reqs_present_same, ih, List.map_append,
      List.append_assoc]
    rfl

end

/-! ## A CHLOAD begins -/

/-- A CHLOAD under way: it stands among the loads, and its lines are presented on VX_A. -/
def State.chloadBegun (s : State) (c payload rel : Nat) : State :=
  (s.setVx c { s.vxc c with
    nextLoad := (s.vxc c).nextLoad + 1
    loads := (s.vxc c).loads ++ [⟨(s.vxc c).nextLoad, payload, rel⟩] }).presentRun c pVX_A (bits payload 63 47)
      (.chload (s.vxc c).nextLoad) (fun i => rel + 6 + 2 * i) (bits payload 69 64 + 1)

theorem exec_chload (c : Core) (p : BitVec 76) (h0 : bits p.toNat 46 0 = 0) (hc : bits p.toNat 75 70 + bits p.toNat 69 64 < 64)
    (hl : bits p.toNat 63 47 + bits p.toNat 69 64 < 81920) (hon : (s.popBundle c 1 (withOp 3 p)).1.vxOff c = false) :
    ∃ rel, exec (.chload c p) s = .next ((s.popBundle c 1 (withOp 3 p)).1.chloadBegun c (withOp 3 p) rel) := by
  have hc' : ¬ 64 < bits p.toNat 75 70 + (bits p.toNat 69 64 + 1) := by omega
  have hl' : ¬ 81920 < bits p.toNat 63 47 + (bits p.toNat 69 64 + 1) := by omega
  show ∃ rel, execChload c p s = _
  unfold execChload State.chloadBegun
  simp (disch := decide) only [bits_withOp, h0, decide_eq_false hc', decide_eq_false hl', hon]
  exact ⟨_, rfl⟩

section
variable {s c} {payload : Nat} {u : State}

theorem VxPopped.beginLoad (h : VxPopped c payload s u) (v rel : Nat) (hr : mget [] (s.spCore c).reqs pVX_A = []) :
    let t := u.chloadBegun c v rel
    (∃ x, (t.vxc c).loads = (s.vxc c).loads ++ [x] ∧ x.payload = v)
      ∧ (mget [] (t.spCore c).reqs pVX_A).map (·.line) = (List.range (bits v 69 64 + 1)).map (fun i => bits v 63 47 + i)
      ∧ VxFrame c [] s t := by
  intro t
  have hsp := State.presentRun_spOnly (u.setVx c { u.vxc c with
    nextLoad := (u.vxc c).nextLoad + 1, loads := (u.vxc c).loads ++ [⟨(u.vxc c).nextLoad, v, rel⟩] }) c pVX_A (bits v 63 47)
      (.chload (u.vxc c).nextLoad) (fun i => rel + 6 + 2 * i) (bits v 69 64 + 1)
  obtain ⟨-, hfr⟩ := h.after (t := t) (((EngFrame.refl u c []).setVx _).trans (hsp.engFrame [])) hsp.ep hsp.mx
  refine ⟨⟨⟨(u.vxc c).nextLoad, v, rel⟩, ?_, rfl⟩, ?_, hfr⟩
  · rw [show t.vxc c = _ from hsp.vxc c, State.vxc_setVx_same, h.vxc c]
  · obtain ⟨-, -, -, hspc, -⟩ := h
    show (mget [] ((State.presentRun _ _ _ _ _ _ _).spCore c).reqs pVX_A).map _ = _
    rw [State.presentRun_reqs, spCore_congr (State.setVx_spc u c _), spCore_congr hspc, hr, List.nil_append, List.map_map]
    rfl

end

/-! ## A CHLOAD completes -/

/-- Values put one after the other at numbered keys stand there as a run. -/
theorem foldl_mput_run {α β : Type} [DecidableEq α] (d : α) (f : β → α) (m : SMap α) (a k : Nat) (l : List β) :
    (l.zip (List.range' k l.length)).foldl (fun m o => mput d m (a + o.2) (f o.1)) m = mputs d m (a + k) (l.map f) := by
  induction l generalizing m k with
  | nil => rfl
  | cons x l ih =>
    rw [List.length_cons, List.range'_succ, List.zip_cons_cons, List.foldl_cons, ih]
    rfl

/-- The lines of a CHLOAD at the scratchpad's ports. -/
def SpCore.chloadLines (y : SpCore) (l : VxLoad) : List (Option SpRx) :=
  (List.range (bits l.payload 69 64 + 1)).map fun i => y.got (.chload l.id i)

/-- The chain store with the bytes of the lines. -/
def Vx.loadDescs (x : Vx) (l : VxLoad) (got : List (Option SpRx)) : SMap (List Byte) :=
  mputs [] x.desc (bits l.payload 75 70) (got.map fun g => g.elim [] (·.data))

theorem exec_vxChloadComplete (c : Core) (l : VxLoad) (hl : (s.vxc c).loads = [l]) (hc : (s.vxc c).chains = [])
    (hg : ∀ i, i < bits l.payload 69 64 + 1 → ((s.spCore c).got (.chload l.id i)).isSome) :
    ∃ t y, exec (.vxChloadComplete c) s = .next (((s.atTb t).setSp c y).setVx c { s.vxc c with
      loads := [], desc := (s.vxc c).loadDescs l ((s.spCore c).chloadLines l) }) := by
  have hany : ((s.spCore c).chloadLines l).any (·.isNone) = false := by
    rw [List.any_eq_false]
    intro g hm
    obtain ⟨i, hi, rfl⟩ := List.mem_map.1 hm
    rw [Bool.not_eq_true, Option.isNone_eq_false_iff]
    exact hg i (List.mem_range.1 hi)
  have hdesc : (((s.spCore c).chloadLines l).zip (List.range (bits l.payload 69 64 + 1))).foldl
      (fun m g => mput [] m (bits l.payload 75 70 + g.2) (g.1.elim [] (·.data))) (s.vxc c).desc
        = (s.vxc c).loadDescs l ((s.spCore c).chloadLines l) := by
    have := foldl_mput_run [] (fun g : Option SpRx => g.elim [] (·.data)) (s.vxc c).desc (bits l.payload 75 70) 0
      ((s.spCore c).chloadLines l)
    rwa [SpCore.chloadLines, List.length_map, List.length_range, ← List.range_eq_range'] at this
  unfold SpCore.chloadLines at hany hdesc ⊢
  show ∃ t y, execVxChloadComplete c s = _
  unfold execVxChloadComplete
  simp only [hl, hany, Bool.false_eq_true, if_false, State.atTb_vxc, State.atTb_spCore, hc, List.filter_nil, List.foldl_nil, hdesc]
  exact ⟨_, _, rfl⟩

/-- The entries of a CHLOAD hold its lines' bytes, and the others are as before. -/
theorem Vx.loadDescs_get (x : Vx) (l : VxLoad) (y : SpCore)
    (hg : ∀ i, i < bits l.payload 69 64 + 1 → (y.got (.chload l.id i)).isSome) :
    (∀ i, i < bits l.payload 69 64 + 1 → some (mget [] (x.loadDescs l (y.chloadLines l)) (bits l.payload 75 70 + i))
        = (y.got (.chload l.id i)).map (·.data))
      ∧ ∀ k, k < bits l.payload 75 70 ∨ bits l.payload 75 70 + (bits l.payload 69 64 + 1) ≤ k →
        mget [] (x.loadDescs l (y.chloadLines l)) k = mget [] x.desc k := by
  have hlen : ((y.chloadLines l).map fun g => g.elim [] (·.data)).length = bits l.payload 69 64 + 1 := by
    rw [List.length_map, SpCore.chloadLines, List.length_map, List.length_range]
  refine ⟨fun i hi => ?_, fun k hk => ?_⟩
  · obtain ⟨g, e⟩ := Option.isSome_iff_exists.1 (hg i hi)
    rw [Vx.loadDescs, mget_mputs, hlen, if_pos (by omega), Nat.add_sub_cancel_left, e]
    simp [SpCore.chloadLines, hi, e]
  · rw [Vx.loadDescs, mget_mputs, hlen, if_neg (by omega)]

theorem vectorDescriptorsLoad : Claim.VectorDescriptorsLoad := by
  intro s c p l v
  have hpop := s.popBundle_vx c (withOp 3 p)
  refine ⟨fun hst h0 hcid hline hr => ?_, fun hl hc => ?_⟩
  · obtain ⟨rel, h⟩ := exec_chload s c p h0 hcid hline (hpop.vxOff hst)
    obtain ⟨hload, hreq, hfr⟩ := hpop.beginLoad (withOp 3 p) rel hr
    rw [bits_withOp 3 p 69 64 (by decide), bits_withOp 3 p 63 47 (by decide)] at hreq
    exact ⟨_, h, hload, hreq, hfr⟩
  · intro n cid hg
    obtain ⟨t, y, h⟩ := exec_vxChloadComplete s c l hl hc hg
    obtain ⟨hin, hout⟩ := (s.vxc c).loadDescs_get l (s.spCore c) hg
    refine ⟨_, h, ?_⟩
    dsimp only
    rw [State.vxc_setVx_same]
    exact ⟨rfl, hin, hout, (((((EngFrame.refl s c []).atTb t).setSp y).setVx _).vxFrame (s.atTb_mx t))⟩

/-- Settles O11: each bundle is its release with one change of the engine's settings, and a CHLOAD's lines stand as a run in the chain
store. -/
theorem vectorBundles : Obligations.VectorBundles := ⟨vectorBundlesTakeEffect, vectorDescriptorsLoad⟩

end Sys2Proof.Machine
end

section
/-! # The vector engine's chains begin and take their beats in (R149, R152) -/

namespace Sys2Proof.Machine

variable (s : State) (c : Nat)

/-! ## A CHAIN is accepted (R147, R152, R153) -/

/-- The tests of a chain look at its payload alone. -/
theorem chainReason_congr {q r : VxChain} (h : q.payload = r.payload) (d : List Byte) (n : Nat) : chainReason q d n = chainReason r d n := by
  simp only [chainReason, VxChain.opA, VxChain.opB, VxChain.opD, VxChain.cValid, h]

/-- A chain's sources wait at the scratchpad's ports. -/
theorem State.vxPresent_spOnly (q : VxChain) (tb : Nat) : SpOnly c s (s.vxPresent c q tb) := by
  unfold State.vxPresent
  extract_lets go u
  have hgo : ∀ t o port fmt packed, SpOnly c s t → SpOnly c s (go t o port fmt packed) := fun t o port fmt packed h => by
    cases o with
    | line l => exact foldl_keeps (SpOnly c s) _ (fun _ _ h => h.present _ _ _ _ _) _ t h
    | reg _ | none | bad => exact h
  exact hgo _ _ _ _ _ (hgo _ _ _ _ _ (.refl s c))

/-- A chain whose descriptor is there and passes. -/
def VxChain.accepted (q : VxChain) (d : List Byte) (ready seq : Nat) : VxChain :=
  { q with desc := d, n := min q.n (vlMax (dEw d)), ready := ready, waitLoad := none, seq := seq, presented := true }

/-- VX_RNG_SEQ advances for a chain that draws random values (R147). -/
def State.vxDraw (s : State) (c : Nat) (d : List Byte) (dst : VxOpnd) : State :=
  if drawsRandom d dst then s.fset F.VX_RNG_SEQ_VALUE ((s.fget F.VX_RNG_SEQ_VALUE c + 1) % 2 ^ 32) c else s

theorem State.vxDraw_keeps (d : List Byte) (dst : VxOpnd) :
    (s.vxDraw c d dst).vxc c = s.vxc c ∧ EngFrame c [RegId.VX_RNG_SEQ.addr c 0 0] s (s.vxDraw c d dst) := by
  unfold State.vxDraw
  split
  · exact ⟨s.fset_vxc _ _ _ _, (EngFrame.refl s c _).fset F.VX_RNG_SEQ_VALUE _ c 0 0 (.head _)⟩
  · exact ⟨rfl, .refl s c _⟩

/-- The engine's only chain is accepted. -/
theorem State.vxAccept_one (q : VxChain) (d : List Byte) (ready tb : Nat) (hq : (s.vxc c).chains = [q]) :
    ∃ seq, s.vxAccept c q d ready tb = ((s.vxDraw c d q.opD).setVx c { s.vxc c with chains := [q.accepted d ready seq] }).vxPresent c
      (q.accepted d ready seq) tb := by
  obtain ⟨hv, -⟩ := s.vxDraw_keeps c d q.opD
  refine ⟨(s.vxDraw c d q.opD).fget F.VX_RNG_SEQ_VALUE c, ?_⟩
  rw [← hv]
  have hq' : ((s.vxDraw c d q.opD).vxc c).chains = [q] := (congrArg Vx.chains hv).trans hq
  show (State.setVx _ c { (s.vxDraw c d q.opD).vxc c with chains := ((s.vxDraw c d q.opD).vxc c).chains.map _ }).vxPresent c _ tb = _
  rw [hq', List.map_singleton, if_pos rfl]
  rfl

theorem State.vxAccept_spec (q : VxChain) (d : List Byte) (ready tb : Nat) (hq : (s.vxc c).chains = [q]) :
    (∃ seq, ((s.vxAccept c q d ready tb).vxc c).chains = [q.accepted d ready seq])
      ∧ EngFrame c [RegId.VX_RNG_SEQ.addr c 0 0] s (s.vxAccept c q d ready tb) := by
  obtain ⟨seq, h⟩ := s.vxAccept_one c q d ready tb hq
  obtain ⟨-, hf⟩ := s.vxDraw_keeps c d q.opD
  rw [h]
  have hsp := ((s.vxDraw c d q.opD).setVx c { s.vxc c with chains := [q.accepted d ready seq] }).vxPresent_spOnly c
    (q.accepted d ready seq) tb
  refine ⟨⟨seq, ?_⟩, (hf.setVx _).trans (hsp.engFrame _)⟩
  rw [hsp.vxc c, State.vxc_setVx_same]

/-- The record of a CHAIN at its release. -/
def State.newChain (s : State) (c payload rel : Nat) : VxChain where
  id := (s.vxc c).nextId
  payload := payload
  rel := rel
  n := s.fget F.VX_VL_VL c
  posQ := s.fget F.VX_POS_Q_BASE c
  posK := s.fget F.VX_POS_K_BASE c
  window := s.fget F.VX_POS_CFG_WINDOW c
  rlog := s.fget F.VX_POS_CFG_RLOG c
  docId := (s.vxc c).docId

/-- A chain stands last in the engine, and DRAINED has fallen. -/
def State.withChain (s : State) (c : Nat) (q : VxChain) : State :=
  (s.setVx c { s.vxc c with nextId := (s.vxc c).nextId + 1, chains := (s.vxc c).chains ++ [q] }).fset F.VX_STATUS_DRAINED 0 c

theorem exec_chain (c : Core) (p : BitVec 76) (d : List Byte) (h0 : bits p.toNat 2 0 = 0)
    (hon : (s.popBundle c 1 (withOp 2 p)).1.vxOff c = false) (hl : ((s.popBundle c 1 (withOp 2 p)).1.vxc c).loads = [])
    (hd : ∀ q : VxChain, q.payload = withOp 2 p → mget [] ((s.popBundle c 1 (withOp 2 p)).1.vxc c).desc q.cid = d
      ∧ q.opA ≠ .bad ∧ q.opB ≠ .bad ∧ q.opD ≠ .bad
      ∧ chainReason q d (min ((s.popBundle c 1 (withOp 2 p)).1.fget F.VX_VL_VL c) (vlMax (dEw d))) = none) :
    ∃ rel, exec (.chain c p) s = .next (let u := (s.popBundle c 1 (withOp 2 p)).1
      (u.withChain c (u.newChain c (withOp 2 p) rel)).vxAccept c (u.newChain c (withOp 2 p) rel) d 0 (rel + 6)) := by
  have hreasons : lowestReason [(false, 1), (false, 2), ((none : Option Nat) == some 3, 3), ((none : Option Nat) == some 4, 4)] = none := by
    decide
  have hbits := bits_withOp 2 p 2 0 (by decide)
  show ∃ rel, execChain c p s = _
  unfold execChain
  dsimp only
  generalize s.popBundle c 1 (withOp 2 p) = pop at *
  refine ⟨pop.2.1, ?_⟩
  obtain ⟨hdesc, ha, hb, hdst, hreason⟩ := hd (pop.1.newChain c (withOp 2 p) pop.2.1) rfl
  unfold State.newChain at hdesc ha hb hdst hreason
  simp only [hl, List.reverse_nil, List.find?_nil, hbits, h0, beq_eq_false_iff_ne.2 ha, beq_eq_false_iff_ne.2 hb,
    beq_eq_false_iff_ne.2 hdst, hon, hdesc, hreason, bne_self_eq_false, Bool.or_self, Option.isNone_none, Bool.true_and,
    hreasons, Option.map_none, State.withChain, State.newChain]

section
variable {s c} {payload : Nat} {u : State}

theorem VxPopped.beginChain (h : VxPopped c payload s u) (d : List Byte) (rel : Nat) (hc : (s.vxc c).chains = []) :
    let t := (u.withChain c (u.newChain c payload rel)).vxAccept c (u.newChain c payload rel) d 0 (rel + 6)
    t.fget F.VX_STATUS_DRAINED c = 0
      ∧ (∃ r, (t.vxc c).chains = [r] ∧ r.payload = payload ∧ r.desc = d ∧ r.n = min (s.fget F.VX_VL_VL c) (vlMax (dEw d)) ∧ r.ents = []
          ∧ r.wrote = 0 ∧ r.posQ = s.fget F.VX_POS_Q_BASE c ∧ r.posK = s.fget F.VX_POS_K_BASE c)
      ∧ MemKept s t ∧ RegsKept s t [RegId.CLK_SKIMMED.addr 0 0 0, RegId.VX_STATUS.addr c 0 0, RegId.VX_RNG_SEQ.addr c 0 0] := by
  intro t
  have hq : ((u.withChain c (u.newChain c payload rel)).vxc c).chains = [u.newChain c payload rel] := by
    rw [State.withChain, State.fset_vxc, State.vxc_setVx_same, h.vxc c, hc, List.nil_append]
  obtain ⟨⟨seq, hr⟩, hf⟩ := State.vxAccept_spec _ c (u.newChain c payload rel) d 0 (rel + 6) hq
  have hw : EngFrame c [RegId.VX_STATUS.addr c 0 0] u (u.withChain c (u.newChain c payload rel)) :=
    ((EngFrame.refl u c _).setVx _).fset F.VX_STATUS_DRAINED 0 c 0 0 (.head _)
  have hdr : (u.withChain c (u.newChain c payload rel)).fget F.VX_STATUS_DRAINED c = 0 :=
    State.fget_fset_same _ F.VX_STATUS_DRAINED 0 c 0 0 (by decide) (by decide)
  have hne : RegId.VX_STATUS.addr c 0 0 ≠ RegId.VX_RNG_SEQ.addr c 0 0 := RegId.addr_ne _ _ _ _ rfl (.inl (by decide))
  obtain ⟨-, -, -, -, hu⟩ := id h
  have hall : EngFrame c [RegId.VX_STATUS.addr c 0 0, RegId.VX_RNG_SEQ.addr c 0 0] s t :=
    ((hu.mono fun _ h => nomatch h).trans (hw.mono (by simp))).trans (hf.mono (by simp))
  refine ⟨?_, ⟨_, hr, rfl, rfl, ?_, rfl, rfl, ?_, ?_⟩, hall.memKept, hall.1⟩
  · rw [hf.1.fget F.VX_STATUS_DRAINED c 0 0 (by
      simp only [List.mem_cons, List.not_mem_nil, or_false, not_or]
      exact ⟨RegId.addr_ne_skimmed _ _ _ _ rfl, hne⟩)]
    exact hdr
  · rw [← h.fget F.VX_VL_VL rfl]; rfl
  · rw [← h.fget F.VX_POS_Q_BASE rfl]; rfl
  · rw [← h.fget F.VX_POS_K_BASE rfl]; rfl

end

/-! ## A beat enters (R149) -/

/-- The chain once a beat with its source values has entered in ACLK t. -/
def VxChain.enterBeat (q : VxChain) (t : Nat) (av bv : List Nat) : VxChain :=
  { q with ents := t :: q.ents, nextEntry := t + 1, a := q.a ++ av, b := q.b ++ bv, c := q.c ++ [], idx := [] }

/-- Time passes until a beat enters, and its stall is counted. -/
def State.vxWait (s : State) (c nat t : Nat) : State :=
  if t = nat then s.atTb t else (s.atTb t).count .VX_STALL_ACLK (t - nat) c

theorem State.vxWait_keeps (nat t : Nat) : (s.vxWait c nat t).mx = s.mx
    ∧ EngFrame c [RegId.VX_STALL_ACLK.addr c 0 0] s (s.vxWait c nat t) := by
  have hf := (EngFrame.refl s c [RegId.VX_STALL_ACLK.addr c 0 0]).atTb t
  unfold State.vxWait
  split
  · exact ⟨s.atTb_mx t, hf⟩
  · exact ⟨(State.count_keeps _ _ _ _).1.trans (s.atTb_mx t), hf.count .VX_STALL_ACLK (t - nat) c 0 0 rfl (.head _)⟩

/-- The next beat of the only chain enters when its sources are complete. -/
theorem exec_vxBeatEntry (c : Core) (q : VxChain) (hq : (s.vxc c).chains = [q]) (hd : q.desc ≠ []) (he : q.entered = false)
    (hc : q.cValid = false) (hi : q.idxReg = none) (hw : (s.vxc c).docWait = []) (hb : (s.spCore c).vxBeats.length < 32)
    {av bv : List Nat} {ta tb : Nat}
    (ha : s.srcBeat c q q.opA pVX_A (dAfmt q.desc) (dAscale q.desc) q.ents.length = some (av, ta))
    (hbv : s.srcBeat c q q.opB pVX_B (dBfmt q.desc) (dBscale q.desc) q.ents.length = some (bv, tb)) :
    ∃ nat t lastBeat macroEnd, exec (.vxBeatEntry c) s = .next ((s.vxWait c nat t).setVx c { s.vxc c with
      chains := [q.enterBeat t av bv], lastBeat := lastBeat, macroEnd := macroEnd }) := by
  have hb' : ¬ 32 ≤ (s.spCore c).vxBeats.length := by omega
  have hdocs : (s.vxc c).docsReady q = true := by simp [Vx.docsReady, hw]
  show ∃ nat t lastBeat macroEnd, execVxBeatEntry c s = _
  unfold execVxBeatEntry
  simp only [hq, List.find?_cons, he, Bool.not_false, if_neg hd, hc, hi, ha, hbv, Bool.false_eq_true, if_false, hdocs, Bool.not_true,
    Bool.false_or, Bool.or_false, decide_eq_false hb', List.map_singleton, if_true]
  cases q.opD <;> exact ⟨_, _, _, _, rfl⟩

theorem vectorChainsBegin : Claim.VectorChainsBegin := by
  intro s c p q v
  have hpop := s.popBundle_vx c (withOp 2 p)
  refine ⟨fun hst h0 hl hc hp ha hb hd => ?_, fun hq hd he hc hi hw hn av ta bv tb ha hb => ?_⟩
  · intro d n hr
    have hq : ∀ r : VxChain, r.payload = withOp 2 p → r.cid = q.cid ∧ r.opA = q.opA ∧ r.opB = q.opB ∧ r.opD = q.opD
        ∧ chainReason r d n = chainReason q d n := fun r hr => by
      have h : r.payload = q.payload := hr.trans hp.symm
      exact ⟨congrArg (bits · 75 70) h, congrArg (fun v => vxOpnd (bits v 69 52)) h, congrArg (fun v => vxOpnd (bits v 51 34)) h,
        congrArg (fun v => vxOpnd (bits v 33 16)) h, chainReason_congr h d n⟩
    obtain ⟨rel, h⟩ := exec_chain s c p d h0 (hpop.vxOff hst) (by rw [hpop.vxc c, hl]) fun r hr' => by
      obtain ⟨ecid, ea, eb, ed, er⟩ := hq r hr'
      rw [hpop.vxc c, hpop.fget F.VX_VL_VL rfl, ecid, ea, eb, ed]
      exact ⟨rfl, ha, hb, hd, er.trans hr⟩
    rw [hp]
    exact ⟨_, h, hpop.beginChain d rel hc⟩
  · obtain ⟨nat, t, lastBeat, macroEnd, h⟩ := exec_vxBeatEntry s c q hq hd he hc hi hw hn ha hb
    obtain ⟨hm, hf⟩ := s.vxWait_keeps c nat t
    refine ⟨_, h, ?_⟩
    dsimp only
    rw [State.vxc_setVx_same]
    exact ⟨⟨q.enterBeat t av bv, rfl, rfl, rfl, rfl, rfl, rfl⟩, rfl, (hf.setVx _).vxFrame hm⟩

end Sys2Proof.Machine
end

section
/-! # The vector engine's beats are written (R120, R148) -/

namespace Sys2Proof.Machine

variable (s : State) (c : Nat)

/-! ## What counting and raising leave -/

/-- The vector engines, the Eprus and the memories are as before. -/
def VxKept (s t : State) : Prop := t.vx = s.vx ∧ t.ep = s.ep ∧ MemKept s t

section
variable {s} {t u : State}

theorem VxKept.refl (s : State) : VxKept s s := ⟨rfl, rfl, MemKept.refl s⟩

theorem VxKept.trans (h : VxKept s t) (h' : VxKept t u) : VxKept s u :=
  ⟨h'.1.trans h.1, h'.2.1.trans h.2.1, h.2.2.trans h'.2.2⟩

theorem VxKept.atTb (h : VxKept s t) (n : Nat) : VxKept s (t.atTb n) :=
  h.trans ⟨t.atTb_vx n, t.atTb_ep n, ((EngFrame.refl t 0 []).atTb n).memKept⟩

theorem VxKept.wr (h : VxKept s t) (r : RegId) (v : Word64) (i j : Nat) : VxKept s (t.wr r v i j) :=
  ⟨h.1, h.2.1, h.2.2⟩

theorem VxKept.fset (h : VxKept s t) (f : Fld) (v i : Nat) : VxKept s (t.fset f v i) := h.wr f.reg _ i 0

theorem VxKept.count (h : VxKept s t) (r : RegId) (n i : Nat) : VxKept s (t.count r n i) := by
  obtain ⟨l, e⟩ := t.count_eq r n i 0 0
  obtain ⟨-, he, hm⟩ := t.count_keeps r n i
  exact h.trans ⟨by rw [e], he, hm⟩

theorem VxKept.raiseLim (h : VxKept s t) (code kind idx detail : Nat) : VxKept s (t.raiseLim code kind idx detail) := by
  obtain ⟨m, g, y, p, seen, e, -⟩ := t.raiseLim_eq code kind idx detail
  obtain ⟨-, he, -, hm⟩ := t.raiseLim_keeps code kind idx detail
  exact h.trans ⟨by rw [e], he, hm⟩

theorem VxKept.ite {p : Prop} [Decidable p] (h : VxKept s t) (h' : VxKept s u) : VxKept s (if p then t else u) := by
  split
  · exact h
  · exact h'

theorem VxKept.vxSaturated (h : VxKept s t) (c n : Nat) : VxKept s (t.vxSaturated c n) :=
  .ite h (.ite ((h.count _ _ _).raiseLim _ _ _ _) (h.count _ _ _))

theorem VxKept.setRed (h : VxKept s t) (x : Red) : VxKept s { t with red := x } :=
  ⟨h.1, h.2.1, h.2.2⟩

theorem VxKept.recSaturated (h : VxKept s t) (rec n : Nat) : VxKept s (t.recSaturated rec n) :=
  .ite h ((h.setRed _).count _ _ _)

theorem VxKept.setVx (h : VxKept s t) (c : Nat) (x : Vx) : VxKept (s.setVx c x) (t.setVx c x) :=
  ⟨congrArg (fun m => mput (α := Vx) {} m c x) h.1, h.2.1, h.2.2⟩

/-- What an element of a chain does beside its value stays outside the engine's record. -/
theorem VxKept.vxEff (h : VxKept s t) (c : Nat) (p : Nat × Eff) : VxKept s (t.vxEff c p) := by
  obtain ⟨i, e⟩ := p
  cases e with
  | sat => exact h.vxSaturated c 1
  | satRec r => exact h.recSaturated r 1
  | permRange j => exact .ite ((h.fset F.VX_STATUS_PERM_RANGE 1 c).raiseLim _ _ _ _) (h.fset F.VX_STATUS_PERM_RANGE 1 c)
  | posRange pos => exact .ite ((h.fset F.VX_STATUS_POS_RANGE 1 c).raiseLim _ _ _ _) (h.fset F.VX_STATUS_POS_RANGE 1 c)
  | nanRow | infRow | emptyRow => exact h.count _ _ _
  | lost fmt => exact h.raiseLim _ _ _ _

end

theorem State.setVx_memKept (x : Vx) : MemKept s (s.setVx c x) := ((EngFrame.refl s c []).setVx x).memKept

/-! ## Runs of elements in a register -/

/-- Blocks of one width put at numbered places: what stands at each place, and what stays. -/
theorem foldl_mputs_numbered {α β : Type} [DecidableEq α] (d : α) (w b : Nat) (f : β → List α) (l : List β)
    (hf : ∀ x ∈ l, (f x).length = w) (m : SMap α) (k : Nat) :
    (∀ j (h : j < l.length), mgets d ((l.zip (List.range' k l.length)).foldl (fun m p => mputs d m (b + p.2 * w) (f p.1)) m)
        (b + (k + j) * w) w = f l[j])
      ∧ ∀ a, a < b + k * w ∨ b + (k + l.length) * w ≤ a →
        mget d ((l.zip (List.range' k l.length)).foldl (fun m p => mputs d m (b + p.2 * w) (f p.1)) m) a = mget d m a := by
  induction l generalizing m k with
  | nil => exact ⟨fun j h => absurd h (Nat.not_lt_zero j), fun _ _ => rfl⟩
  | cons x l ih =>
    have hx : (f x).length = w := hf x (.head _)
    obtain ⟨hin, hout⟩ := ih (fun y hy => hf y (.tail _ hy)) (mputs d m (b + k * w) (f x)) (k + 1)
    simp only [List.length_cons, List.range'_succ, List.zip_cons_cons, List.foldl_cons]
    have hk : (k + 1) * w = k * w + w := Nat.succ_mul k w
    refine ⟨fun j hj => ?_, fun a ha => ?_⟩
    · cases j with
      | zero =>
        show mgets d _ (b + k * w) w = f x
        rw [mgets_congr d _ _ _ _ fun a _ h => hout a (.inl (by omega)), ← hx, mgets_mputs]
      | succ j =>
        rw [List.getElem_cons_succ, show k + (j + 1) = k + 1 + j by omega]
        exact hin j (by simpa using hj)
    · have hl : k + 1 + l.length = k + (l.length + 1) := by omega
      have hl' : (k + (l.length + 1)) * w = k * w + (l.length * w + w) := by rw [Nat.add_mul, Nat.succ_mul]
      rw [hout a (by rw [hl]; omega), mget_mputs, hx, if_neg (by omega)]

/-! ## The beat that is written next -/

/-- The next beat's elements of a chain's result. -/
def VxChain.beatEls (q : VxChain) (res : ChainRes) : List El :=
  let len := beatLen (dEw q.desc)
  ((res.outs.getLastD []).drop (q.wrote * len)).take (min q.n (q.wrote * len + len) - q.wrote * len)

/-- Those elements converted to the destination's format, without a scale record. -/
def VxChain.beatConvs (q : VxChain) (env : ChainEnv) : List Conv :=
  let els := q.beatEls (chainEval env)
  (els.zip (List.range els.length)).map fun p =>
    cvtVal (dDfmt q.desc) (dDrnd q.desc) none p.1.v (env.hash 8 (q.wrote * beatLen (dEw q.desc) + p.2) % 65536)

/-- The register file once the beat stands in register r. -/
def VxChain.beatBytes (q : VxChain) (v : SMap Byte) (r : Nat) (cs : List Conv) : SMap Byte :=
  (cs.zip (List.range cs.length)).foldl (fun m p =>
    mputs 0 m (r * 1024 + q.wrote * beatLen (dEw q.desc) * q.elemBytes + p.2 * q.elemBytes) (leBytes q.elemBytes p.1.code)) v

theorem VxChain.beatConvs_length (q : VxChain) (env : ChainEnv) : (q.beatConvs env).length = (q.beatEls (chainEval env)).length := by
  simp [VxChain.beatConvs]

/-- The beat's elements in the register file, and the bytes beside them (R120, R148). -/
theorem VxChain.beatBytes_get (q : VxChain) (v : SMap Byte) (r : Nat) (env : ChainEnv) :
    let at_ := r * 1024 + q.wrote * beatLen (dEw q.desc) * q.elemBytes
    let els := q.beatEls (chainEval env)
    (∀ j, j < els.length → leNat (mgets 0 (q.beatBytes v r (q.beatConvs env)) (at_ + j * q.elemBytes) q.elemBytes)
        = (cvtVal (dDfmt q.desc) (dDrnd q.desc) none ((els.map El.v).getD j 0)
            (env.hash 8 (q.wrote * beatLen (dEw q.desc) + j) % 65536)).code % 256 ^ q.elemBytes)
      ∧ ∀ a, a < at_ ∨ at_ + els.length * q.elemBytes ≤ a → mget 0 (q.beatBytes v r (q.beatConvs env)) a = mget 0 v a := by
  intro at_ els
  have hlen := q.beatConvs_length env
  obtain ⟨hin, hout⟩ := foldl_mputs_numbered (0 : Byte) q.elemBytes at_ (fun y : Conv => leBytes q.elemBytes y.code) (q.beatConvs env)
    (fun _ _ => leBytes_length _ _) v 0
  rw [← List.range_eq_range'] at hin hout
  simp only [Nat.zero_add, Nat.zero_mul, Nat.add_zero, hlen] at hin hout
  refine ⟨fun j hj => ?_, fun a ha => by rw [VxChain.beatBytes, hlen, hout a ha]⟩
  rw [VxChain.beatBytes, hlen, hin j hj, leNat_leBytes]
  simp [VxChain.beatConvs, els, hj]

/-- With no mask every element is written. -/
theorem beatBytes_of_kept (q : VxChain) (v : SMap Byte) (r : Nat) (cs : List Conv) (keep : List Bool) (hl : keep.length = cs.length)
    (hk : ∀ b ∈ keep, b = true) :
    ((cs.zip keep).zip (List.range cs.length)).foldl (fun m p =>
        if p.1.2 then mputs 0 m (r * 1024 + (q.wrote * beatLen (dEw q.desc) + p.2) * q.elemBytes) (leBytes q.elemBytes p.1.1.code) else m) v
      = q.beatBytes v r cs := by
  have hz : cs.zip (List.range cs.length) = ((cs.zip keep).zip (List.range cs.length)).map (Prod.map Prod.fst id) := by
    rw [← List.zip_map, List.map_id, List.map_fst_zip (by omega)]
  rw [VxChain.beatBytes, hz, List.foldl_map]
  refine List.foldl_ext _ _ _ fun m p hp => ?_
  rw [if_pos (hk _ (List.of_mem_zip (List.of_mem_zip hp).1).2), Nat.add_mul, ← Nat.add_assoc]
  rfl

/-- Waiting changes nothing that a chain without a scale record reads. -/
theorem State.vxEnv_atTb (q : VxChain) (n : Nat) (h : dDscale q.desc = 0xFFF) : (s.atTb n).vxEnv c q = s.vxEnv c q := by
  simp only [State.vxEnv, State.atTb_vxc, s.fget_atTb n F.VX_RNG_KEY_VALUE c 0 0 rfl, h, if_true]

theorem Vx.nextWriter_one (x : Vx) (q : VxChain) (t : Nat) (hx : x.chains = [q]) (hw : q.nextWrite = some t) :
    x.nextWriter = some (q, t) := by
  simp [Vx.nextWriter, hx, hw]

/-- The engine's record holds the chains l. -/
def State.setChains (s : State) (c : Nat) (l : List VxChain) : State := s.setVx c { s.vxc c with chains := l }

/-- A beat of the only chain is written to register r: what its elements do besides, the count, and then the bytes. -/
theorem exec_vxBeatWritten (c : Core) (q : VxChain) (r t : Nat) (hq : (s.vxc c).chains = [q]) (hw : q.nextWrite = some t)
    (hd : q.opD = .reg r) (hdoc : (s.vxc c).docWait = []) (hmask : dDmask q.desc = false) (hscale : dDscale q.desc = 0xFFF)
    (hlse : (chainEval (s.vxEnv c q)).lse = none) :
    ∃ u, VxKept (s.setChains c [{ q with wrote := q.wrote + 1 }]) u
      ∧ exec (.vxBeatWritten c) s = .next (u.setVx c { u.vxc c with
        v := q.beatBytes (u.vxc c).v r (q.beatConvs (s.vxEnv c q)) }) := by
  have hdexp : (s.vxEnv c q).dexp = none := by simp only [State.vxEnv, hscale, if_true]
  have hkeep := fun v => beatBytes_of_kept q v r (q.beatConvs (s.vxEnv c q)) ((q.beatEls (chainEval (s.vxEnv c q))).map fun e => !false || e.live)
    (by rw [List.length_map, VxChain.beatConvs_length]) (by simp)
  show ∃ u, _ ∧ execVxBeatWritten c s = _
  unfold execVxBeatWritten
  rw [(s.vxc c).nextWriter_one q t hq hw]
  simp only [s.vxEnv_atTb c q t hscale, hlse, hdexp, hd, hmask]
  generalize List.filter _ _ = effs
  have heffs : VxKept s (effs.foldl (fun s e => s.vxEff c e) (s.atTb t)) :=
    foldl_keeps (VxKept s) _ (fun _ p h => h.vxEff c p) effs _ ((VxKept.refl s).atTb t)
  generalize effs.foldl (fun s e => s.vxEff c e) (s.atTb t) = u at heffs ⊢
  simp only [vxc_congr heffs.1 c, hq, List.map_singleton, if_true]
  generalize (List.filter (fun p : Conv × Bool => p.1.counted && p.2) _).length = sat
  have hsat := (heffs.setVx c { s.vxc c with chains := [{ q with wrote := q.wrote + 1 }] }).trans ((VxKept.refl _).vxSaturated c sat)
  refine ⟨_, hsat, ?_⟩
  generalize State.vxSaturated _ c sat = t' at hsat ⊢
  have hdocs : ∀ v, (t'.setVx c { t'.vxc c with v := v }).vxDocs c = t'.setVx c { t'.vxc c with v := v } := fun v =>
    State.vxDocs_nil _ c (by rw [State.vxc_setVx_same, vxc_congr hsat.1, State.vxc_setVx_same]; exact hdoc)
  rw [← hkeep]
  cases (chainEval (s.vxEnv c q)).packed <;> exact congrArg Host.Outcome.next (hdocs _)

theorem vectorBeatsWritten : Claim.VectorBeatsWritten := by
  intro s c q r t hq hw hd hdoc hmask hscale res hlse len els w at_
  obtain ⟨u, ⟨hv, he, hm⟩, h⟩ := exec_vxBeatWritten s c q r t hq hw hd hdoc hmask hscale hlse
  obtain ⟨hin, hout⟩ := q.beatBytes_get (s.vxc c).v r (s.vxEnv c q)
  refine ⟨_, h, ?_⟩
  dsimp only
  rw [State.vxc_setVx_same, vxc_congr hv, State.setChains, State.vxc_setVx_same]
  exact ⟨hin, hout, rfl, ((s.setVx_memKept c _).trans hm).trans (u.setVx_memKept c _), core_congr he c⟩

end Sys2Proof.Machine
end

section
/-! # The vector engine's chains and drains complete (R135, R136, R150, R151) -/

namespace Sys2Proof.Machine

variable (s : State) (c : Nat)

/-! ## Summaries (R135, R136) -/

/-- The registers that the summaries of a chain may write. -/
def sumRegs (c : Nat) : List Nat :=
  [RegId.CLK_SKIMMED.addr 0 0 0, RegId.MOD_EVT_WR.addr 0 0 0, RegId.MOD_EVT_LOST.addr 0 0 0, RegId.VX_SUM_KIND.addr c 0 0]
    ++ (List.range 4).map fun n => RegId.VX_SUM.addr c n 0

theorem vxSum_mem_sumRegs (slot : Nat) (h : slot < 4) : RegId.VX_SUM.addr c slot 0 ∈ sumRegs c :=
  List.mem_append_right _ (List.mem_map.2 ⟨slot, List.mem_range.2 h, rfl⟩)

theorem vxChains_not_sumRegs : RegId.VX_CHAINS.addr c 0 0 ∉ sumRegs c := by
  simp only [sumRegs, RegId.addr, RegId.defn, Block.place, List.mem_append, List.mem_cons, List.not_mem_nil, or_false, List.mem_map,
    List.mem_range]
  omega

theorem epArrive_not_sumRegs (n : Nat) (h : n < 64) : RegId.EP_ARRIVE.addr c n 0 ∉ sumRegs c := by
  simp only [sumRegs, RegId.addr, RegId.defn, Block.place, List.mem_append, List.mem_cons, List.not_mem_nil, or_false, List.mem_map,
    List.mem_range]
  omega

/-- A stage adds at most one summary, of one of the four slots. -/
theorem chainStage_sums (env : ChainEnv) (res : ChainRes) (i : Nat) :
    (chainStage env res i).sums = res.sums ∨ ∃ x, (chainStage env res i).sums = res.sums ++ [x] ∧ x.2.1 < 4 := by
  unfold chainStage
  extract_lets st prev ix pairs
  split
  · exact .inl rfl
  · exact .inl rfl
  · exact .inl rfl
  · by_cases h : bit st.imm 4 = true
    · exact .inr ⟨_, if_pos h, bits_lt st.imm 3 2⟩
    · exact .inl (if_neg h)
  · split
    · exact .inr ⟨_, rfl, bits_lt st.imm 1 0⟩
    · exact .inl rfl

theorem chainEval_sums_slot (env : ChainEnv) : ∀ x ∈ (chainEval env).sums, x.2.1 < 4 :=
  foldl_keeps (fun res : ChainRes => ∀ x ∈ res.sums, x.2.1 < 4) _ (fun res i h x hx => by
    obtain e | ⟨y, e, hy⟩ := chainStage_sums env res i
    · exact h x (e ▸ hx)
    · rw [e, List.mem_append, List.mem_singleton] at hx
      obtain hx | rfl := hx
      · exact h x hx
      · exact hy) _ {} fun _ h => nomatch h

/-- The vector engines, the Eprus and the memories are as before, and of the registers at most those of the summaries differ. -/
def SumKept (c : Nat) (s t : State) : Prop := VxKept s t ∧ RegsKept s t (sumRegs c)

theorem State.vxSum_keeps (slot kind : Nat) (acc : Bool) (v : Nat) (ovf : Bool) (h : slot < 4) :
    SumKept c s (s.vxSum c slot kind acc v ovf) := by
  unfold State.vxSum
  extract_lets kinds old r u t
  have hu : SumKept c s u := ⟨(VxKept.refl s).wr _ _ _ _, s.wr_regsKept .VX_SUM_KIND _ c 0 0 _ (by simp [sumRegs])⟩
  have ht : SumKept c s t := ⟨hu.1.wr _ _ _ _, hu.2.trans (u.wr_regsKept .VX_SUM _ c slot 0 _ (vxSum_mem_sumRegs c slot h))⟩
  split
  · exact ⟨ht.1.raiseLim _ _ _ _, ht.2.trans (t.raiseLim_regsKept _ _ _ _ _ (by simp [sumRegs]) (by simp [sumRegs]))⟩
  · exact ht

/-- The chain's record once its summaries have been written. -/
theorem State.vxSums_keeps (q : VxChain) (hq : (s.vxc c).chains = [q]) :
    MemKept s (s.vxSums c q) ∧ RegsKept s (s.vxSums c q) (sumRegs c)
      ∧ (s.vxSums c q).vxc c = { s.vxc c with chains := [{ q with sumsDone := true }] } := by
  unfold State.vxSums
  extract_lets u x
  have hu : SumKept c s u := List.foldlRecOn _ _ ⟨VxKept.refl s, RegsKept.refl s _⟩ fun b hb y hy =>
    have hy := b.vxSum_keeps c _ y.2.2.1 y.2.2.2.1 y.2.2.2.2.1 y.2.2.2.2.2 (chainEval_sums_slot _ y hy)
    ⟨hb.1.trans hy.1, hb.2.trans hy.2⟩
  have hx : x = s.vxc c := vxc_congr hu.1.1 c
  refine ⟨hu.1.2.2.trans (u.setVx_memKept c _), hu.2, ?_⟩
  rw [State.vxc_setVx_same, hx, hq, List.map_singleton, if_pos rfl]

/-- The summaries of the only chain, all of whose beats have entered, are written by its end. -/
theorem State.vxSettle_one (q : VxChain) (hq : (s.vxc c).chains = [q]) (he : q.entered = true) :
    s.vxSettle c (q.id + 1) = if q.sumsDone then s else s.vxSums c q := by
  unfold State.vxSettle
  simp only [hq, List.foldl_cons, List.foldl_nil, Bool.false_eq_true, if_false, he, Nat.lt_succ_self, decide_true, Bool.true_or,
    Bool.true_and, if_true]
  split <;> rfl

theorem State.vxSettle_one_keeps (q : VxChain) (hq : (s.vxc c).chains = [q]) (he : q.entered = true) :
    MemKept s (s.vxSettle c (q.id + 1)) ∧ RegsKept s (s.vxSettle c (q.id + 1)) (sumRegs c)
      ∧ ∃ y, y.id = q.id ∧ (s.vxSettle c (q.id + 1)).vxc c = { s.vxc c with chains := [y] } := by
  rw [s.vxSettle_one c q hq he]
  split
  · exact ⟨MemKept.refl s, RegsKept.refl s _, q, rfl, by rw [← hq]⟩
  · obtain ⟨hm, hr, hx⟩ := s.vxSums_keeps c q hq
    exact ⟨hm, hr, { q with sumsDone := true }, rfl, hx⟩

/-! ## A chain completes (R150) -/

/-- A chain that has completed at TB t leaves the engine: the drains learn of it, and its lines go. -/
def State.vxDropChain (s : State) (c : Nat) (q : VxChain) (t : Nat) : State :=
  let x := s.vxc c
  let v := s.setVx c { x with
    chains := x.chains.filter (fun y => y.id != q.id)
    lastDone := some (max t (x.lastDone.getD 0))
    drains := x.drains.map (·.passDone q.id t)
    stopping := x.stopping.map (·.passDone q.id t) }
  let y := v.spCore c
  let mine := fun u : SpUse =>
    match u with
    | .vxSrc id _ _ => id == q.id
    | _ => false
  v.setSp c { y with rx := y.rx.filter (fun r => !mine r.use) }

/-- Its summaries written, the only chain leaves the engine and is counted. -/
def State.vxChainLeft (s : State) (c : Nat) (q : VxChain) (t : Nat) : State :=
  (((s.atTb t).vxSettle c (q.id + 1)).vxDropChain c q t).count .VX_CHAINS 1 c

theorem State.vxDropChain_spec (q y : VxChain) (t : Nat) (hs : (s.vxc c).chains = [y]) (hy : y.id = q.id) :
    ((s.vxDropChain c q t).vxc c).chains = [] ∧ ((s.vxDropChain c q t).vxc c).docWait = (s.vxc c).docWait
      ∧ ((s.vxDropChain c q t).vxc c).v = (s.vxc c).v ∧ (s.vxDropChain c q t).regs = s.regs ∧ MemKept s (s.vxDropChain c q t) := by
  have hx : (s.vxDropChain c q t).vxc c = _ := State.vxc_setVx_same _ _ _
  refine ⟨?_, by rw [hx], by rw [hx], rfl, (((EngFrame.refl s c []).setVx _).setSp _).memKept⟩
  rw [hx]
  simp [hs, hy]

/-- The chain's amax report, if it makes one (R79). -/
def State.vxReport (s : State) (c : Nat) (q : VxChain) (p : Packet) (k : Nat) : State :=
  if dAmxrec q.desc = 0xFFF ∨ q.n = 0 ∨ q.opD = .none then s else s.coreSend c p k

/-- The chain's arrival at its counter, if it asks for one. -/
def State.vxArrive (s : State) (c : Nat) (q : VxChain) : State := if bit q.payload 9 then s.arrive c (bits q.payload 8 3) else s

theorem exec_vxChainComplete (c : Core) (q : VxChain) (hq : (s.vxc c).chains = [q]) (he : q.entered = true) (hb : q.beats ≤ q.wrote) :
    ∃ t p k, exec (.vxChainComplete c) s = .next ((((s.vxChainLeft c q t).vxReport c q p k).vxArrive c q).vxDocs c) := by
  show ∃ t p k, execVxChainComplete c s = _
  unfold execVxChainComplete
  simp only [hq, List.filter_cons, he, decide_eq_true hb, Bool.and_self, if_true, List.filter_nil, List.foldl_cons, List.foldl_nil]
  exact ⟨_, _, _, rfl⟩

/-- The only chain is gone and counted; the counter n of the core, the vector registers and the memories are as before. -/
def ChainGone (c n : Nat) (s t : State) : Prop :=
  (t.vxc c).chains = [] ∧ (t.vxc c).docWait = (s.vxc c).docWait ∧ (t.vxc c).v = (s.vxc c).v
    ∧ (t.rd .VX_CHAINS c).toNat = min ((s.rd .VX_CHAINS c).toNat + 1) (2 ^ 64 - 1)
    ∧ t.fget F.EP_ARRIVE_COUNT c n = s.fget F.EP_ARRIVE_COUNT c n ∧ MemKept s t

theorem epArrive_ne_vxChains (n : Nat) (h : n < 64) : RegId.EP_ARRIVE.addr c n 0 ≠ RegId.VX_CHAINS.addr c 0 0 := by
  simp only [RegId.addr, RegId.defn, Block.place]
  omega

theorem State.vxChainLeft_gone (q : VxChain) (t n : Nat) (hn : n < 64) (hq : (s.vxc c).chains = [q]) (he : q.entered = true) :
    ChainGone c n s (s.vxChainLeft c q t) := by
  obtain ⟨hm, hr, y, hy, hx⟩ := (s.atTb t).vxSettle_one_keeps c q (by rw [s.atTb_vxc, hq]) he
  have hm' := ((EngFrame.refl s c []).atTb t).memKept.trans hm
  have hr' := (s.atTb_regsKept t _ (by simp [sumRegs])).trans hr
  rw [s.atTb_vxc] at hx
  unfold State.vxChainLeft
  generalize (s.atTb t).vxSettle c (q.id + 1) = u at *
  obtain ⟨hc, hd, hv, hwr, hwm⟩ := u.vxDropChain_spec c q y t (by rw [hx]) hy
  rw [hx] at hd hv
  generalize u.vxDropChain c q t = w at *
  obtain ⟨-, -, hk⟩ := w.count_keeps .VX_CHAINS 1 c
  have hwx := vxc_congr ((VxKept.refl w).count .VX_CHAINS 1 c).1 c
  refine ⟨by rw [hwx, hc], by rw [hwx, hd], by rw [hwx, hv], ?_, ?_, (hm'.trans hwm).trans hk⟩
  · rw [State.rd_count_same, State.rd_congr _ _ _ _ _ _ hwr, hr'.rd .VX_CHAINS c 0 0 (vxChains_not_sumRegs c)]
  · rw [State.fget, State.rd_count_ne _ .VX_CHAINS .EP_ARRIVE 1 c 0 0 c n 0 (epArrive_ne_vxChains c n hn)]
    exact (State.fget_congr _ _ F.EP_ARRIVE_COUNT c n 0 hwr).trans (hr'.fget F.EP_ARRIVE_COUNT c n 0 (epArrive_not_sumRegs c n hn))

/-! ## The chain's report and arrival (R79, R150) -/

theorem State.inject_vx (p : Packet) (t : Nat) : (s.inject c p t).vx = s.vx := ((VxKept.refl s).count .FB_INJECTED 1 c).1

/-- A packet that a core sends leaves the vector engines. -/
theorem State.coreSend_vx (p : Packet) (t : Nat) : (s.coreSend c p t).vx = s.vx := by
  unfold State.coreSend
  extract_lets x u y
  have hu : u.vx = s.vx := by
    rw [show u.vx = _ from apply_ite State.vx _ _ _, State.setFb_vx, ite_self]
  split
  · exact (State.inject_vx _ c p t).trans hu
  · exact hu

variable {s c} in
theorem ChainGone.report {n : Nat} {t : State} (h : ChainGone c n s t) (hn : n < 64) (q : VxChain) (p : Packet) (k : Nat) :
    ChainGone c n s (t.vxReport c q p k) := by
  unfold State.vxReport
  split
  · exact h
  · obtain ⟨hc, hd, hv, hcount, harr, hm⟩ := h
    obtain ⟨-, hk, hr⟩ := t.coreSend_keeps c p k
    have hx := vxc_congr (t.coreSend_vx c p k) c
    refine ⟨by rw [hx, hc], by rw [hx, hd], by rw [hx, hv], ?_, ?_, hm.trans hk⟩
    · rw [hr.rd .VX_CHAINS c 0 0 (by simp only [RegId.addr, RegId.defn, Block.place, List.mem_cons, List.not_mem_nil, or_false]; omega)]
      exact hcount
    · rw [hr.fget F.EP_ARRIVE_COUNT c n 0 (by
        simp only [RegId.addr, RegId.defn, Block.place, List.mem_cons, List.not_mem_nil, or_false]; omega)]
      exact harr

variable {s c} in
theorem ChainGone.arrive {t : State} (q : VxChain) (h : ChainGone c (bits q.payload 8 3) s t) :
    ((t.vxArrive c q).vxc c).docWait = (s.vxc c).docWait ∧ ((t.vxArrive c q).vxc c).chains = []
      ∧ ((t.vxArrive c q).rd .VX_CHAINS c).toNat = min ((s.rd .VX_CHAINS c).toNat + 1) (2 ^ 64 - 1)
      ∧ (t.vxArrive c q).fget F.EP_ARRIVE_COUNT c (bits q.payload 8 3)
        = (if bit q.payload 9 then (s.fget F.EP_ARRIVE_COUNT c (bits q.payload 8 3) + 1) % 2 ^ 32
            else s.fget F.EP_ARRIVE_COUNT c (bits q.payload 8 3))
      ∧ ((t.vxArrive c q).vxc c).v = (s.vxc c).v ∧ MemKept s (t.vxArrive c q) := by
  obtain ⟨hc, hd, hv, hcount, harr, hm⟩ := h
  have hn : bits q.payload 8 3 < 64 := bits_lt q.payload 8 3
  unfold State.vxArrive
  generalize bits q.payload 8 3 = n at *
  split
  · obtain ⟨-, hx, v, -, hr⟩ := t.arrive_keeps c n
    have hk := ((EngFrame.refl t c [RegId.EP_ARRIVE.addr c n 0]).arrive n (.head _)).memKept
    have hx' := vxc_congr hx c
    refine ⟨by rw [hx', hd], by rw [hx', hc], ?_, ?_, by rw [hx', hv], hm.trans hk⟩
    · rw [State.rd_congr _ _ _ _ _ _ hr, State.rd_fset_ne _ F.EP_ARRIVE_COUNT .VX_CHAINS _ _ _ _ _ _ _ (epArrive_ne_vxChains c n hn).symm]
      exact hcount
    · rw [State.fget_arrive_same, harr]
  · exact ⟨hd, hc, hcount, harr, hv, hm⟩

/-! ## Drains complete (R151) -/

/-- The oldest VDRAIN has completed: DRAINED is set. -/
def State.vxDrained (s : State) (c t : Nat) (rest : List Drain) : State :=
  ((s.atTb t).setVx c { s.vxc c with drains := rest }).fset F.VX_STATUS_DRAINED 1 c

/-- A VDRAIN that has completed, and with ARRIVE its counter's increase. -/
def State.vxDrainDone (s : State) (c t : Nat) (d : Drain) (rest : List Drain) : State :=
  if d.arrive then (s.vxDrained c t rest).arrive c d.ctr else s.vxDrained c t rest

theorem exec_vxVdrainComplete (c : Core) (d : Drain) (rest : List Drain) (b : Nat) (hd : (s.vxc c).drains = d :: rest) (ht : d.t = some b) :
    exec (.vxVdrainComplete c) s = .next (s.vxDrainDone c (max (d.d + 8) b) d rest) := by
  show execVxVdrainComplete c s = _
  unfold execVxVdrainComplete
  simp only [hd, ht, State.atTb_vxc]
  rfl

theorem State.vxDrained_spec (t : Nat) (rest : List Drain) : ((s.vxDrained c t rest).vxc c).drains = rest
    ∧ (s.vxDrained c t rest).fget F.VX_STATUS_DRAINED c = 1 ∧ (s.vxDrained c t rest).mx = s.mx
    ∧ EngFrame c [RegId.VX_STATUS.addr c 0 0] s (s.vxDrained c t rest) :=
  ⟨congrArg Vx.drains (State.vxc_setVx_same _ _ _), State.fget_fset_same _ F.VX_STATUS_DRAINED 1 c 0 0 (by decide) (by decide),
    s.atTb_mx t, (((EngFrame.refl s c _).atTb t).setVx _).fset F.VX_STATUS_DRAINED 1 c 0 0 (.head _)⟩

theorem vxStatus_ne_epArrive (n : Nat) (h : n < 64) : RegId.VX_STATUS.addr c 0 0 ≠ RegId.EP_ARRIVE.addr c n 0 := by
  simp only [RegId.addr, RegId.defn, Block.place]
  omega

theorem State.vxDrainDone_spec (t : Nat) (d : Drain) (rest : List Drain) (hc : d.ctr < 64) :
    ((s.vxDrainDone c t d rest).vxc c).drains = rest ∧ (s.vxDrainDone c t d rest).fget F.VX_STATUS_DRAINED c = 1
      ∧ (s.vxDrainDone c t d rest).fget F.EP_ARRIVE_COUNT c d.ctr
        = (if d.arrive then (s.fget F.EP_ARRIVE_COUNT c d.ctr + 1) % 2 ^ 32 else s.fget F.EP_ARRIVE_COUNT c d.ctr)
      ∧ VxFrame c [RegId.VX_STATUS.addr c 0 0, RegId.EP_ARRIVE.addr c d.ctr 0] s (s.vxDrainDone c t d rest) := by
  obtain ⟨hds, hst, hmx, hf⟩ := s.vxDrained_spec c t rest
  have hne := vxStatus_ne_epArrive c d.ctr hc
  have hctr : (s.vxDrained c t rest).fget F.EP_ARRIVE_COUNT c d.ctr = s.fget F.EP_ARRIVE_COUNT c d.ctr := by
    refine hf.1.fget F.EP_ARRIVE_COUNT c d.ctr 0 ?_
    simp only [List.mem_cons, List.not_mem_nil, or_false, not_or]
    exact ⟨RegId.addr_ne_skimmed _ _ _ _ rfl, hne.symm⟩
  have hf' := hf.mono (l := [RegId.VX_STATUS.addr c 0 0, RegId.EP_ARRIVE.addr c d.ctr 0]) (by simp)
  unfold State.vxDrainDone
  split
  · obtain ⟨hm, hv, v, -, hr⟩ := (s.vxDrained c t rest).arrive_keeps c d.ctr
    refine ⟨(congrArg Vx.drains (vxc_congr hv c)).trans hds, ?_, ?_, (hf'.arrive d.ctr (.tail _ (.head _))).vxFrame (hm.trans hmx)⟩
    · rw [State.fget_congr _ _ _ _ _ _ hr, State.fget_fset_ne _ F.EP_ARRIVE_COUNT F.VX_STATUS_DRAINED _ _ _ _ _ _ _ hne]
      exact hst
    · rw [State.fget_arrive_same, hctr]
  · exact ⟨hds, hst, hctr, hf'.vxFrame hmx⟩

theorem vectorChainsAndDrainsComplete : Claim.VectorChainsAndDrainsComplete := by
  intro s c
  refine ⟨fun q hq he hb hdoc => ?_, fun d rest b hd ht hc => ⟨_, exec_vxVdrainComplete s c d rest b hd ht, s.vxDrainDone_spec c _ d rest hc⟩⟩
  obtain ⟨t, p, k, h⟩ := exec_vxChainComplete s c q hq he hb
  have hn : bits q.payload 8 3 < 64 := bits_lt q.payload 8 3
  obtain ⟨hd, hdone⟩ := ((s.vxChainLeft_gone c q t _ hn hq he).report hn q p k).arrive q
  rw [State.vxDocs_nil _ c (hd.trans hdoc)] at h
  exact ⟨_, h, hdone⟩

/-- Settles O12: a chain's record at its release and at each entry, a beat as one run of numbered blocks in the register file, and a
chain's end, whose summaries stand in four registers of their own. -/
theorem vectorChains : Obligations.VectorChains := ⟨vectorChainsBegin, vectorBeatsWritten, vectorChainsAndDrainsComplete⟩

end Sys2Proof.Machine
end

section
/-! # What leaves the memories alone (R203)

The memories that scratchpads and stacks hold stand in six fields of the state. Each operation of the model that writes none of them
leaves the six as they were: one lemma for each, in the order of the model, so that the lemma about an operation is a consequence of
those about the operations that it uses. -/

namespace Sys2Proof.Machine
open Sys2Proof

/-- What scratchpads and stacks hold: bytes, codes, tags, poison bits and error symbols. -/
structure Memories where
  sp : Memory
  spCode : SMap Nat
  spTag : SMap Nat
  hbm : Memory
  hbmPoison : SMap Nat
  hbmErr : SMap (List (Nat × Nat))

/-- The memories of a state. -/
def State.memories (s : State) : Memories := ⟨s.sp, s.spCode, s.spTag, s.hbm, s.hbmPoison, s.hbmErr⟩

/-- States with equal memories hold what each other hold. -/
theorem MemKept.of_memories {s t : State} (h : t.memories = s.memories) : MemKept s t := by
  obtain ⟨h1, h2, h3, h4, h5, h6⟩ := Memories.mk.inj h
  exact MemKept.of_eq h1 h2 h3 h4 h5 h6

/-- An update of the other fields. -/
@[simp] theorem memories_mk (s : State) (a0 a1 a2 a3 a4 a5 a6 a7 a11 a12 a13 a14 a15 a16 a17 a18 a19 a20 a21 a22 a26 a27 a28 a29 a30
    a31 a32 a33 a34 a35 a36 a37 a38) :
    State.memories ⟨a0, a1, a2, a3, a4, a5, a6, a7, s.sp, s.spCode, s.spTag, a11, a12, a13, a14, a15, a16, a17, a18, a19, a20, a21, a22,
      s.hbm, s.hbmPoison, s.hbmErr, a26, a27, a28, a29, a30, a31, a32, a33, a34, a35, a36, a37, a38⟩ = s.memories := by
  cases s
  rfl

@[simp] theorem memories_ite (p : Prop) [Decidable p] (s t : State) :
    (if p then s else t).memories = if p then s.memories else t.memories := by
  split <;> rfl

/-- A step over a list leaves the memories alone when each of its steps does. -/
@[simp] theorem memories_foldl {α : Type} (f : State → α → State) (l : List α) (s : State) (h : ∀ s a, (f s a).memories = s.memories) :
    (l.foldl f s).memories = s.memories :=
  foldl_keeps (fun t => t.memories = s.memories) f (fun t a e => (h t a).trans e) l s rfl

@[simp] theorem memories_foldl_fst {α β : Type} (f : State × β → α → State × β) (l : List α) (p : State × β)
    (h : ∀ p a, (f p a).1.memories = p.1.memories) : (l.foldl f p).1.memories = p.1.memories :=
  foldl_keeps (fun q => q.1.memories = p.1.memories) f (fun q a e => (h q a).trans e) l p rfl

/-- What a command answers, if it is a state, has the memories of the state before. -/
def LeavesMemories (s : State) (o : Out) : Prop := ∀ t, o = .next t → t.memories = s.memories

@[simp] theorem leavesMemories_next (s t : State) : LeavesMemories s (.next t) ↔ t.memories = s.memories :=
  ⟨fun h => h t rfl, fun h _ e => by cases e; exact h⟩

@[simp] theorem leavesMemories_ite (p : Prop) [Decidable p] (s : State) (t u : Out) :
    LeavesMemories s (if p then t else u) ↔ if p then LeavesMemories s t else LeavesMemories s u := by
  split <;> rfl

/-! ## Shared operations -/

@[simp] theorem State.wr_memories (s : State) (r : RegId) (v : Word64) (i j k : Nat) :
    (s.wr r v i j k).memories = s.memories := by
  simp [State.wr]

@[simp] theorem State.fset_memories (s : State) (f : Fld) (v i j k : Nat) :
    (s.fset f v i j k).memories = s.memories := by
  simp [State.fset]

@[simp] theorem State.life_memories (s : State) (k n : Nat) :
    (s.life k n).memories = s.memories := by
  simp [State.life]

@[simp] theorem State.count_memories (s : State) (r : RegId) (n i j k : Nat) :
    (s.count r n i j k).memories = s.memories := by
  simp only [State.count]
  split <;> simp

@[simp] theorem State.adv_memories (s : State) (n : Nat) :
    (s.adv n).memories = s.memories := by
  simp [State.adv]

@[simp] theorem State.atTb_memories (s : State) (t : Nat) :
    (s.atTb t).memories = s.memories := by
  simp [State.atTb]

@[simp] theorem State.atWt_memories (s : State) (w : Nat) :
    (s.atWt w).memories = s.memories := by
  simp [State.atWt]

@[simp] theorem State.atCyc_memories (s : State) (c : Nat) :
    (s.atCyc c).memories = s.memories := by
  simp [State.atCyc]

@[simp] theorem State.free_memories (s : State) : s.free.2.memories = s.memories := by
  simp [State.free]

@[simp] theorem State.setCore_memories (s : State) (c : Nat) (e : Epru) :
    (s.setCore c e).memories = s.memories := by
  simp [State.setCore]

@[simp] theorem State.setSp_memories (s : State) (c : Nat) (x : SpCore) :
    (s.setSp c x).memories = s.memories := by
  simp [State.setSp]

@[simp] theorem State.setFb_memories (s : State) (c : Nat) (x : FbCore) :
    (s.setFb c x).memories = s.memories := by
  simp [State.setFb]

@[simp] theorem State.setMx_memories (s : State) (c : Nat) (x : Mx) :
    (s.setMx c x).memories = s.memories := by
  simp [State.setMx]

@[simp] theorem State.setVx_memories (s : State) (c : Nat) (x : Vx) :
    (s.setVx c x).memories = s.memories := by
  simp [State.setVx]

@[simp] theorem State.setStp_memories (s : State) (c : Nat) (x : Stp) :
    (s.setStp c x).memories = s.memories := by
  simp [State.setStp]

@[simp] theorem State.setChan_memories (s : State) (c : Nat) (x : HChan) :
    (s.setChan c x).memories = s.memories := by
  simp [State.setChan]

@[simp] theorem State.setStack_memories (s : State) (t : Nat) (x : HStack) :
    (s.setStack t x).memories = s.memories := by
  simp [State.setStack]

@[simp] theorem State.setGrist_memories (s : State) (i : Nat) (x : Grist) :
    (s.setGrist i x).memories = s.memories := by
  simp [State.setGrist]

@[simp] theorem State.setTract_memories (s : State) (t : Nat) (x : Tract) :
    (s.setTract t x).memories = s.memories := by
  simp [State.setTract]

@[simp] theorem State.msix_memories (s : State) (v : Nat) :
    (s.msix v).memories = s.memories := by
  simp [State.msix]

@[simp] theorem State.critMet_memories (s : State) (pos crit : Nat) :
    (s.critMet pos crit).memories = s.memories := by
  simp [State.critMet]

@[simp] theorem State.strike_memories (s : State) (code kind idx : Nat) :
    (s.strike code kind idx).memories = s.memories := by
  simp [State.strike]

@[simp] theorem State.nonfinite_memories (s : State) (n : Nat) :
    (s.nonfinite n).memories = s.memories := by
  simp [State.nonfinite]

@[simp] theorem State.raise_memories (s : State) (code kind idx detail : Nat) :
    (s.raise code kind idx detail).memories = s.memories := by
  simp [State.raise]

@[simp] theorem State.raiseLim_memories (s : State) (code kind idx detail : Nat) :
    (s.raiseLim code kind idx detail).memories = s.memories := by
  simp [State.raiseLim]

@[simp] theorem State.newSegment_memories (s : State) (kind idx : Nat) :
    (s.newSegment kind idx).memories = s.memories := by
  simp [State.newSegment]

@[simp] theorem State.monClear_memories (s : State) (m : Nat) :
    (s.monClear m).memories = s.memories := by
  simp [State.monClear]

@[simp] theorem State.monSample_memories (s : State) (src unit all v : Nat) :
    (s.monSample src unit all v).memories = s.memories := by
  simp [State.monSample]

@[simp] theorem State.latchRerun_memories (s : State) (c causeBit : Nat) :
    (s.latchRerun c causeBit).memories = s.memories := by
  simp [State.latchRerun]

@[simp] theorem State.ctrSatisfies_memories (s : State) (c n : Nat) :
    (s.ctrSatisfies c n).memories = s.memories := by
  simp only [State.ctrSatisfies]
  split <;> simp

@[simp] theorem State.arrive_memories (s : State) (c n by_ : Nat) (external : Bool) :
    (s.arrive c n by_ external).memories = s.memories := by
  simp [State.arrive]

@[simp] theorem State.setArrive_memories (s : State) (c n v : Nat) :
    (s.setArrive c n v).memories = s.memories := by
  simp [State.setArrive]

@[simp] theorem State.send_memories (s : State) (p : Packet) (l : Loc) (tb via : Nat) :
    (s.send p l tb via).memories = s.memories := by
  simp [State.send]

@[simp] theorem State.takeF_memories (s : State) (p : Packet) (l : Loc) :
    (s.takeF p l).1.memories = s.memories := by
  simp only [State.takeF]
  split <;> simp

@[simp] theorem State.take_memories (s : State) (p : Packet) (l : Loc) :
    (s.take p l).memories = s.memories := by
  simp [State.take]

/-! ## Operations of the scratchpads -/

@[simp] theorem State.spDetect_memories (s : State) (c line port : Nat) :
    (s.spDetect c line port).memories = s.memories := by
  simp [State.spDetect]

@[simp] theorem State.spBadAccess_memories (s : State) (c reason : Nat) :
    (s.spBadAccess c reason).memories = s.memories := by
  simp [State.spBadAccess]

@[simp] theorem State.spRead_memories (s : State) (c line port : Nat) :
    (s.spRead c line port).1.memories = s.memories := by
  simp only [State.spRead]
  split <;> simp

@[simp] theorem State.present_memories (s : State) (c port line : Nat) (use : SpUse) (wr : Option SpWr) (tb : Nat) :
    (s.present c port line use wr tb).memories = s.memories := by
  simp [State.present]

@[simp] theorem State.planTake_memories (s : State) (c : Nat) :
    (s.planTake c).memories = s.memories := by
  simp [State.planTake]

@[simp] theorem State.rowDetect_memories (s : State) (c row line agent : Nat) :
    (s.rowDetect c row line agent).memories = s.memories := by
  simp [State.rowDetect]

/-! ## Operations of the tracts -/

@[simp] theorem State.popBundle_memories (s : State) (c q payload : Nat) :
    (s.popBundle c q payload).1.memories = s.memories := by
  simp only [State.popBundle]
  split <;> simp

@[simp] theorem State.mxClear_memories (s : State) (c : Nat) :
    (s.mxClear c).memories = s.memories := by
  simp [State.mxClear]

@[simp] theorem State.vxClear_memories (s : State) (c : Nat) :
    (s.vxClear c).memories = s.memories := by
  simp [State.vxClear]

@[simp] theorem State.spEngineClear_memories (s : State) (c : Nat) :
    (s.spEngineClear c).memories = s.memories := by
  simp [State.spEngineClear]

@[simp] theorem State.stpFault_memories (s : State) (c : Nat) :
    (s.stpFault c).memories = s.memories := by
  simp [State.stpFault]

@[simp] theorem State.coreStop_memories (s : State) (c : Nat) :
    (s.coreStop c).memories = s.memories := by
  simp [State.coreStop]

@[simp] theorem State.slotStop_memories (s : State) (t st : Nat) :
    (s.slotStop t st).memories = s.memories := by
  simp [State.slotStop]

@[simp] theorem State.slotFault_memories (s : State) (t c cause code : Nat) :
    (s.slotFault t c cause code).memories = s.memories := by
  simp [State.slotFault]

@[simp] theorem State.tractFault_memories (s : State) (c cause code : Nat) :
    (s.tractFault c cause code).memories = s.memories := by
  simp only [State.tractFault]
  split <;> simp

@[simp] theorem State.rejectBundle_memories (s : State) (c event op reason : Nat) :
    (s.rejectBundle c event op reason).memories = s.memories := by
  simp [State.rejectBundle]

@[simp] theorem State.nonfiniteLost_memories (s : State) (c fmt : Nat) :
    (s.nonfiniteLost c fmt).memories = s.memories := by
  simp [State.nonfiniteLost]

@[simp] theorem State.accOverflow_memories (s : State) (c : Nat) :
    (s.accOverflow c).memories = s.memories := by
  simp [State.accOverflow]

@[simp] theorem State.inject_memories (s : State) (c : Nat) (p : Packet) (t : Nat) :
    (s.inject c p t).memories = s.memories := by
  simp [State.inject]

@[simp] theorem State.coreSend_memories (s : State) (c : Nat) (p : Packet) (t : Nat) :
    (s.coreSend c p t).memories = s.memories := by
  simp [State.coreSend]

@[simp] theorem State.coreAnswered_memories (s : State) (c : Nat) (write : Bool) :
    (s.coreAnswered c write).memories = s.memories := by
  simp only [State.coreAnswered]
  split <;> simp

/-! ## Operations of the matrix engine -/

@[simp] theorem State.mxFeed_memories (s : State) (c : Nat) :
    (s.mxFeed c).memories = s.memories := by
  simp only [State.mxFeed]
  split <;> simp

@[simp] theorem State.mxPassWritten_memories (s : State) (c payload : Nat) :
    (s.mxPassWritten c payload).memories = s.memories := by
  simp [State.mxPassWritten]

@[simp] theorem State.mxEnter_memories (s : State) (c : Nat) (p : MxPass) (t stall : Nat) :
    (s.mxEnter c p t stall).memories = s.memories := by
  simp only [State.mxEnter]
  repeat' split
  all_goals simp

@[simp] theorem State.mxEnable_memories (s : State) (c : Nat) (v : Bool) :
    (s.mxEnable c v).memories = s.memories := by
  simp [State.mxEnable]

@[simp] theorem State.mxReject_memories (s : State) (c op reason : Nat) :
    (s.mxReject c op reason).memories = s.memories := by
  simp [State.mxReject]

@[simp] theorem State.mxSaturated_memories (s : State) (c n : Nat) :
    (s.mxSaturated c n).memories = s.memories := by
  simp [State.mxSaturated]

@[simp] theorem State.recSaturated_memories (s : State) (rec n : Nat) :
    (s.recSaturated rec n).memories = s.memories := by
  simp [State.recSaturated]

/-! ## Operations of the vector engine -/

@[simp] theorem State.vxReject_memories (s : State) (c op reason : Nat) :
    (s.vxReject c op reason).memories = s.memories := by
  simp [State.vxReject]

@[simp] theorem State.vxPresent_memories (s : State) (c : Nat) (q : VxChain) (tb : Nat) :
    (s.vxPresent c q tb).memories = s.memories := by
  simp only [State.vxPresent]
  repeat' split
  all_goals simp

@[simp] theorem State.vxSaturated_memories (s : State) (c n : Nat) :
    (s.vxSaturated c n).memories = s.memories := by
  simp [State.vxSaturated]

@[simp] theorem State.vxEff_memories (s : State) (c : Nat) (p : Nat × Eff) :
    (s.vxEff c p).memories = s.memories := by
  simp only [State.vxEff]
  split <;> simp

@[simp] theorem State.vxSum_memories (s : State) (c slot kind : Nat) (acc : Bool) (v : Nat) (ovf : Bool) :
    (s.vxSum c slot kind acc v ovf).memories = s.memories := by
  simp [State.vxSum]

@[simp] theorem State.vxSums_memories (s : State) (c : Nat) (q : VxChain) :
    (s.vxSums c q).memories = s.memories := by
  simp [State.vxSums]

@[simp] theorem State.vxSettle_memories (s : State) (c upto : Nat) :
    (s.vxSettle c upto).memories = s.memories := by
  simp only [State.vxSettle]
  rw [memories_foldl_fst]
  intro p q
  split
  · rfl
  · split
    · rfl
    · split <;> simp

@[simp] theorem State.vxDocs_memories (s : State) (c : Nat) :
    (s.vxDocs c).memories = s.memories := by
  simp [State.vxDocs]

@[simp] theorem State.vxAccept_memories (s : State) (c : Nat) (q : VxChain) (d : List Byte) (ready tb : Nat) :
    (s.vxAccept c q d ready tb).memories = s.memories := by
  simp [State.vxAccept]

@[simp] theorem State.vxEnable_memories (s : State) (c : Nat) (v : Bool) :
    (s.vxEnable c v).memories = s.memories := by
  simp [State.vxEnable]

/-! ## Operations of the Epru -/

@[simp] theorem State.setEpState_memories (s : State) (c st : Nat) :
    (s.setEpState c st).memories = s.memories := by
  simp [State.setEpState]

@[simp] theorem State.setG_memories (s : State) (c r v t : Nat) :
    (s.setG c r v t).memories = s.memories := by
  simp [State.setG]

@[simp] theorem State.epException_memories (s : State) (c : Nat) :
    (s.epException c).memories = s.memories := by
  simp [State.epException]

theorem State.epBegin_memories {s t : State} {c : Nat} {srcs : List Nat} (h : s.epBegin c srcs = some t) :
    t.memories = s.memories := by
  unfold State.epBegin at h
  split at h
  · cases h
  · cases h; simp

@[simp] theorem State.epGoto_memories (s : State) (c : Nat) (pc : Int) (n : Nat) :
    (s.epGoto c pc n).memories = s.memories := by
  simp [State.epGoto]

@[simp] theorem State.epDone_memories (s : State) (c n : Nat) :
    (s.epDone c n).memories = s.memories := by
  simp [State.epDone]

@[simp] theorem State.epAlu_memories (s : State) (c rd : Nat) (srcs : List Nat) (lat : Nat) (v : State → Nat) :
    (s.epAlu c rd srcs lat v).memories = s.memories := by
  simp only [State.epAlu]
  split
  · rfl
  next h => simp [State.epBegin_memories h]

/-! ## Operations of the fabric -/

@[simp] theorem State.rimSend_memories (s : State) (p : Packet) (t : Nat) :
    (s.rimSend p t).memories = s.memories := by
  simp [State.rimSend]

@[simp] theorem State.present1_memories (s : State) (p : Packet) (t : Nat) :
    (s.present1 p t).memories = s.memories := by
  simp [State.present1]

@[simp] theorem State.discard_memories (s : State) (c : Nat) (p : Packet) (reason : Nat) :
    (s.discard c p reason).memories = s.memories := by
  simp only [State.discard]
  repeat' split
  all_goals simp

@[simp] theorem State.forward_memories (s : State) (c : Nat) (p : Packet) (t : Nat) :
    (s.forward c p t).memories = s.memories := by
  simp [State.forward]

@[simp] theorem State.atPort_memories (s : State) (c : Nat) (p : Packet) :
    (s.atPort c p).1.memories = s.memories := by
  simp only [State.atPort]
  split <;> simp

@[simp] theorem State.fabRead_memories (s : State) (c : Nat) (p : Packet) (b n t : Nat) :
    (s.fabRead c p b n t).memories = s.memories := by
  simp [State.fabRead]

@[simp] theorem State.fabWrite_memories (s : State) (c : Nat) (p : Packet) (b wop : Nat) (data : List Byte) (poison : Bool) :
    (s.fabWrite c p b wop data poison).memories = s.memories := by
  simp [State.fabWrite]

@[simp] theorem State.fabOpDone_memories (s : State) (c id : Nat) :
    (s.fabOpDone c id).memories = s.memories := by
  simp [State.fabOpDone]

@[simp] theorem State.fabWhole_memories (s : State) (c : Nat) (p : Packet) (t : Nat) :
    (s.fabWhole c p t).memories = s.memories := by
  simp only [State.fabWhole]
  repeat' split
  all_goals simp

@[simp] theorem State.fabTxDone_memories (s : State) (c : Nat) (x : FabTx) (t : Nat) :
    (s.fabTxDone c x t).memories = s.memories := by
  simp [State.fabTxDone]

@[simp] theorem State.fabTxLine_memories (s : State) (c id k : Nat) (data : List Byte) (bad : Bool) (t : Nat) :
    (s.fabTxLine c id k data bad t).memories = s.memories := by
  simp only [State.fabTxLine]
  split <;> simp

@[simp] theorem State.fabRxLine_memories (s : State) (c id t : Nat) :
    (s.fabRxLine c id t).memories = s.memories := by
  simp only [State.fabRxLine]
  split <;> simp

@[simp] theorem State.mxCapture_memories (s : State) (c rel k : Nat) (data : List Byte) (t : Nat) :
    (s.mxCapture c rel k data t).memories = s.memories := by
  simp only [State.mxCapture]
  split <;> simp

@[simp] theorem State.bowCheck_memories (s : State) (c id t : Nat) :
    (s.bowCheck c id t).memories = s.memories := by
  simp only [State.bowCheck]
  split <;> simp

@[simp] theorem State.bowServed_memories (s : State) (c id t : Nat) :
    (s.bowServed c id t).memories = s.memories := by
  simp [State.bowServed]

@[simp] theorem State.bowDrop_memories (s : State) (c line : Nat) (unavailable : Bool) :
    (s.bowDrop c line unavailable).memories = s.memories := by
  simp [State.bowDrop]

@[simp] theorem State.popFab_memories (s : State) (c q payload : Nat) :
    (s.popFab c q payload).1.memories = s.memories := by
  simp [State.popFab]

@[simp] theorem State.fabReject_memories (s : State) (c op reason : Nat) :
    (s.fabReject c op reason).memories = s.memories := by
  simp [State.fabReject]

@[simp] theorem State.unbackedCore_memories (s : State) (c g : Nat) :
    (s.unbackedCore c g).memories = s.memories := by
  simp [State.unbackedCore]

@[simp] theorem State.fabBundle_memories (s : State) (c q payload : Nat) :
    (s.fabBundle c q payload).memories = s.memories := by
  simp only [State.fabBundle]
  split
  · simp
  · rw [memories_foldl]
    · simp
    · intro s ck
      split <;> simp

/-! ## Matrix commands -/

@[simp] theorem execMxNop_memories (core : Core) (payload : BitVec 76) (s : State) :
    LeavesMemories s (execMxNop core payload s) := by
  simp only [execMxNop]
  split <;> simp

@[simp] theorem execMxLoad_memories (core : Core) (payload : BitVec 76) (s : State) :
    LeavesMemories s (execMxLoad core payload s) := by
  simp only [execMxLoad]
  split <;> simp

@[simp] theorem execMxLoadBegin_memories (core : Core) (s : State) :
    LeavesMemories s (execMxLoadBegin core s) := by
  simp only [execMxLoadBegin]
  split <;> simp

@[simp] theorem execMxLoadComplete_memories (core : Core) (s : State) :
    LeavesMemories s (execMxLoadComplete core s) := by
  simp only [execMxLoadComplete]
  split <;> simp

@[simp] theorem execMxPass_memories (core : Core) (payload : BitVec 76) (s : State) :
    LeavesMemories s (execMxPass core payload s) := by
  simp only [execMxPass]
  repeat' split
  all_goals simp

@[simp] theorem execMxPassFirstEntry_memories (core : Core) (s : State) :
    LeavesMemories s (execMxPassFirstEntry core s) := by
  delta execMxPassFirstEntry
  extract_lets x
  split
  · exact (leavesMemories_next _ _).2 rfl
  · split
    · exact (leavesMemories_next _ _).2 rfl
    · split
      · exact (leavesMemories_next _ _).2 rfl
      · extract_lets sub nat t s1 x1 src tile epi ofmt past reasons full s2 s3 s4 seq sr s5 os p'
        split
        · exact (leavesMemories_next _ _).2 rfl
        · have h1 : s1.memories = s.memories := by simp only [s1, State.atTb_memories]
          have h5 : s5.memories = s.memories := by
            simp only [s5, s4, s3, s2, apply_ite State.memories, State.fset_memories, State.setMx_memories,
              State.latchRerun_memories, State.raise_memories, h1, ite_self]
          clear_value s5 reasons
          split
          · rw [leavesMemories_next, State.mxReject_memories, State.setMx_memories, h1]
          · rw [leavesMemories_next, State.mxEnter_memories, h5]

@[simp] theorem execMxVectorEntry_memories (core : Core) (s : State) :
    LeavesMemories s (execMxVectorEntry core s) := by
  simp only [execMxVectorEntry]
  repeat' split
  all_goals simp

@[simp] theorem execMxVectorComplete_memories (core : Core) (s : State) :
    LeavesMemories s (execMxVectorComplete core s) := by
  unfold execMxVectorComplete
  split
  · exact (leavesMemories_next _ _).2 rfl
  · extract_lets s1 x s2 passNo s3 s4 s5 s6
    have h2 : s2.memories = s.memories := by simp [s2, s1]
    have h6 : s6.memories = s.memories := by simp [s6, s5, s4, s3, h2]
    clear_value s2 s6
    split
    · simpa using h2
    · split
      · simpa using h6
      · extract_lets epi ofmt fuse fb fbyte flines s7 fdata f ys key cs sat s8 amax nf n data x9 s9 wop lines
        have h7 : s7.memories = s.memories := (memories_foldl _ _ _ fun s l => by simp).trans h6
        have h8 : s8.memories = s.memories := by
          simp only [s8]
          split <;> simp [h7]
        rw [leavesMemories_next, memories_foldl _ _ _ fun s l => by simp]
        simpa [s9] using h8

@[simp] theorem execMxPassComplete_memories (core : Core) (s : State) :
    LeavesMemories s (execMxPassComplete core s) := by
  simp only [execMxPassComplete]
  split <;> simp

@[simp] theorem execMxEpi_memories (core : Core) (payload : BitVec 76) (s : State) :
    LeavesMemories s (execMxEpi core payload s) := by
  simp only [execMxEpi]
  split <;> simp

@[simp] theorem execMxDrain_memories (core : Core) (payload : BitVec 76) (s : State) :
    LeavesMemories s (execMxDrain core payload s) := by
  simp only [execMxDrain]
  split <;> simp

@[simp] theorem execMxDrainComplete_memories (core : Core) (s : State) :
    LeavesMemories s (execMxDrainComplete core s) := by
  simp only [execMxDrainComplete]
  repeat' split
  all_goals simp

@[simp] theorem execMxEnableWrite_memories (core : Core) (value : Bool) (s : State) :
    LeavesMemories s (execMxEnableWrite core value s) := by
  simp [execMxEnableWrite]

@[simp] theorem execMxStoppingEnd_memories (core : Core) (s : State) :
    LeavesMemories s (execMxStoppingEnd core s) := by
  simp only [execMxStoppingEnd]
  repeat' split
  all_goals simp

@[simp] theorem execMxEnablingEnd_memories (core : Core) (s : State) :
    LeavesMemories s (execMxEnablingEnd core s) := by
  simp only [execMxEnablingEnd]
  split <;> simp

/-! ## Fabric commands -/

@[simp] theorem execRouterHop_memories (core : Core) (packet : Packet) (s : State) :
    LeavesMemories s (execRouterHop core packet s) := by
  simp [execRouterHop]

@[simp] theorem execMergeStageEntry_memories (core : Core) (packet : Packet) (s : State) :
    LeavesMemories s (execMergeStageEntry core packet s) := by
  simp only [execMergeStageEntry]
  repeat' split
  all_goals simp

@[simp] theorem execMergeStageExit_memories (core : Core) (s : State) :
    LeavesMemories s (execMergeStageExit core s) := by
  simp only [execMergeStageExit]
  split <;> simp

@[simp] theorem execRimRingHop_memories (stop : Fin 16) (packet : Packet) (s : State) :
    LeavesMemories s (execRimRingHop stop packet s) := by
  simp only [execRimRingHop]
  repeat' split
  all_goals simp

@[simp] theorem execFbWrDeliver_memories (core : Core) (packet : Packet) (s : State) :
    LeavesMemories s (execFbWrDeliver core packet s) := by
  simp [execFbWrDeliver]

@[simp] theorem execFbRdDeliver_memories (core : Core) (packet : Packet) (s : State) :
    LeavesMemories s (execFbRdDeliver core packet s) := by
  simp [execFbRdDeliver]

@[simp] theorem execFbRedDeliver_memories (core : Core) (packet : Packet) (s : State) :
    LeavesMemories s (execFbRedDeliver core packet s) := by
  simp [execFbRedDeliver]

@[simp] theorem execFwr_memories (core : Core) (payload : BitVec 76) (s : State) :
    LeavesMemories s (execFwr core payload s) := by
  simp [execFwr]

@[simp] theorem execFrd_memories (core : Core) (payload : BitVec 76) (s : State) :
    LeavesMemories s (execFrd core payload s) := by
  simp [execFrd]

@[simp] theorem execFred_memories (core : Core) (payload : BitVec 76) (s : State) :
    LeavesMemories s (execFred core payload s) := by
  simp [execFred]

@[simp] theorem State.srNop_memories (s : State) (c q payload : Nat) :
    (s.srNop c q payload).memories = s.memories := by
  simp [State.srNop]

@[simp] theorem State.larrive_memories (s : State) (c q payload : Nat) :
    (s.larrive c q payload).memories = s.memories := by
  simp [State.larrive]

@[simp] theorem execSrNop_memories (core : Core) (payload : BitVec 76) (s : State) :
    LeavesMemories s (execSrNop core payload s) := by
  simp [execSrNop]

@[simp] theorem execLarrive_memories (core : Core) (payload : BitVec 76) (s : State) :
    LeavesMemories s (execLarrive core payload s) := by
  simp [execLarrive]

@[simp] theorem execLinkFlitError_memories (link : LinkId) (s : State) :
    LeavesMemories s (execLinkFlitError link s) := by
  simp only [execLinkFlitError]
  split <;> simp

@[simp] theorem execHeartbeatSend_memories (link : LinkId) (s : State) :
    LeavesMemories s (execHeartbeatSend link s) := by
  simp only [execHeartbeatSend]
  split <;> simp

@[simp] theorem execLinkHeartbeatLapse_memories (link : LinkId) (s : State) :
    LeavesMemories s (execLinkHeartbeatLapse link s) := by
  simp only [execLinkHeartbeatLapse]
  split
  · simp
  · rw [leavesMemories_next, memories_foldl]
    · simp
    · intro s f
      split <;> simp

@[simp] theorem execBowLineAtTap_memories (core : Core) (s : State) :
    LeavesMemories s (execBowLineAtTap core s) := by
  unfold execBowLineAtTap
  split
  · exact (leavesMemories_next _ _).2 rfl
  · extract_lets t s1 row s2 x r others r1 line data s3 drop bytes s4
    have h2 : s2.memories = s.memories := by simp [s2, s1]
    have h3 : s3.memories = s.memories := by
      simp only [s3]
      split
      · split <;> simp [h2]
      · exact h2
    clear_value s2 s3
    have hdrop : ∀ un (u : State), u.memories = s.memories → (drop un u).memories = s.memories := fun un u h => by
      simp [drop, h]
    split
    · simpa using hdrop _ _ h3
    · split
      · simpa using h3
      · split
        · split
          · simpa using hdrop _ _ (by simpa using h3)
          · split
            · simpa using hdrop _ _ h3
            · split <;> simp [h3]
        · split
          · simpa using hdrop _ _ h3
          · simp [s4, h3]

/-! ## Operations of the memory stacks -/

@[simp] theorem State.hbmErrInfo_memories (s : State) (ch a kind src sym : Nat) :
    (s.hbmErrInfo ch a kind src sym).memories = s.memories := by
  simp [State.hbmErrInfo]

@[simp] theorem State.stackMapOut_memories (s : State) (st reason ch : Nat) :
    (s.stackMapOut st reason ch).memories = s.memories := by
  simp [State.stackMapOut]

@[simp] theorem State.hbmUe_memories (s : State) (ch a src : Nat) :
    (s.hbmUe ch a src).memories = s.memories := by
  simp [State.hbmUe]

@[simp] theorem State.hbmCe_memories (s : State) (ch a src syms : Nat) :
    (s.hbmCe ch a src syms).memories = s.memories := by
  simp [State.hbmCe]

@[simp] theorem State.freeBytes_memories (s : State) (n : Nat) : (s.freeBytes n).1.memories = s.memories := by
  induction n generalizing s with
  | zero => rfl
  | succ n ih => simp [State.freeBytes, ih]

@[simp] theorem State.hbmDecode_memories (s : State) (ch : Nat) (h : HAcc) (src : Nat) :
    (s.hbmDecode ch h src).1.memories = s.memories := by
  simp only [State.hbmDecode]
  split
  · rfl
  · split
    · simp
    · split
      · simp
      · split <;> simp

@[simp] theorem State.coalCheck_memories (s : State) (ch : Nat) (accs : List Nat) (ups : List Upset) :
    (s.coalCheck ch accs ups).memories = s.memories := by
  simp only [State.coalCheck]
  rw [memories_foldl]
  intro s u
  split <;> simp

@[simp] theorem State.hbmQueue_memories (s : State) (ch kind op : Nat) (p : Packet) (caddr : Nat) :
    (s.hbmQueue ch kind op p caddr).memories = s.memories := by
  simp [State.hbmQueue]

@[simp] theorem State.hbmRefuse_memories (s : State) (ch : Nat) (p : Packet) (reason : Nat) :
    (s.hbmRefuse ch p reason).memories = s.memories := by
  simp only [State.hbmRefuse]
  split <;> simp

/-! ## Operations of the streams -/

@[simp] theorem State.setGsState_memories (s : State) (i st : Nat) :
    (s.setGsState i st).memories = s.memories := by
  simp [State.setGsState]

@[simp] theorem State.gsFault_memories (s : State) (i reason addr : Nat) :
    (s.gsFault i reason addr).memories = s.memories := by
  simp [State.gsFault]

@[simp] theorem State.gsStart_memories (s : State) (i : Nat) :
    (s.gsStart i).memories = s.memories := by
  simp [State.gsStart]

@[simp] theorem State.gsStop_memories (s : State) (i : Nat) :
    (s.gsStop i).memories = s.memories := by
  simp [State.gsStop]

@[simp] theorem State.gsEnable_memories (s : State) (i : Nat) (v : Bool) :
    (s.gsEnable i v).memories = s.memories := by
  simp [State.gsEnable]

@[simp] theorem State.gsTractFree_memories (s : State) (t : Nat) :
    (s.gsTractFree t).memories = s.memories := by
  simp [State.gsTractFree]

@[simp] theorem State.gsSettle_memories (s : State) (i : Nat) :
    (s.gsSettle i).memories = s.memories := by
  simp [State.gsSettle]

@[simp] theorem State.gsSequence_memories (s : State) (i : Nat) :
    (s.gsSequence i).memories = s.memories := by
  simp [State.gsSequence]

@[simp] theorem State.gsRelease_memories (s : State) (t : Nat) :
    (s.gsRelease t).memories = s.memories := by
  simp [State.gsRelease]

@[simp] theorem State.gsReads_memories (s : State) (i : Nat) (w : GsWrite) :
    (s.gsReads i w).memories = s.memories := by
  simp only [State.gsReads]
  rw [memories_foldl]
  intro s u
  split <;> simp

@[simp] theorem State.stpReject_memories (s : State) (c op reason : Nat) :
    (s.stpReject c op reason).memories = s.memories := by
  simp [State.stpReject]

@[simp] theorem State.gneed_memories (s : State) (c q payload : Nat) :
    (s.gneed c q payload).memories = s.memories := by
  obtain ⟨f, hf⟩ : ∃ f, f = State.needTest := ⟨_, rfl⟩
  rw [State.gneed, ← hf]
  split
  · simp
  · dsimp only
    split <;> simp

@[simp] theorem State.grel_memories (s : State) (c q payload : Nat) :
    (s.grel c q payload).memories = s.memories := by
  simp only [State.grel]
  split <;> simp

@[simp] theorem State.aneed_memories (s : State) (c q payload : Nat) :
    (s.aneed c q payload).memories = s.memories := by
  obtain ⟨f, hf⟩ : ∃ f, f = State.needTest := ⟨_, rfl⟩
  rw [State.aneed, ← hf]
  split
  · simp
  · dsimp only
    split <;> simp

@[simp] theorem State.arel_memories (s : State) (c q payload : Nat) :
    (s.arel c q payload).memories = s.memories := by
  simp only [State.arel]
  repeat' split
  all_goals simp

@[simp] theorem State.pfstart_memories (s : State) (c q payload : Nat) :
    (s.pfstart c q payload).memories = s.memories := by
  simp only [State.pfstart]
  split <;> simp

@[simp] theorem State.save_memories (s : State) (c q payload : Nat) :
    (s.save c q payload).memories = s.memories := by
  simp only [State.save]
  split <;> simp

@[simp] theorem State.saveDone_memories (s : State) (c : Nat) (v : StpSave) :
    (s.saveDone c v).memories = s.memories := by
  simp [State.saveDone]

@[simp] theorem State.savePlace_memories (s : State) (c : Nat) (v : StpSave) :
    (s.savePlace c v).memories = s.memories := by
  simp only [State.savePlace]
  generalize h1 : (if (saveRecord v).2 = 0 then s else s.nonfiniteLost c 5) = s1
  have hs1 : s1.memories = s.memories := by
    subst h1
    split <;> simp
  have fold : ∀ (f : State × Nat → Nat × Nat → State × Nat) (l : List (Nat × Nat)) (s' : State) n, s'.memories = s.memories →
      (∀ p a, (f p a).1.memories = p.1.memories) → (l.foldl f (s', n)).1.memories = s.memories := by
    intro f l s' n h hf
    rw [memories_foldl_fst f l _ hf, h]
  split
  · simpa using hs1
  · split
    · apply fold
      · simpa using hs1
      · intro p a
        split <;> simp
    · rw [State.setStp_memories]
      apply fold
      · simpa using hs1
      · intro p a
        split <;> simp

@[simp] theorem State.savesPlace_memories (s : State) (c : Nat) :
    (s.savesPlace c).memories = s.memories := by
  simp [State.savesPlace]

@[simp] theorem State.strTxLine_memories (s : State) (c id k : Nat) (data : List Byte) (bad : Bool) :
    (s.strTxLine c id k data bad).memories = s.memories := by
  simp [State.strTxLine]

@[simp] theorem State.setRec_memories (s : State) (c : Nat) (r : StpRec) :
    (s.setRec c r).memories = s.memories := by
  simp [State.setRec]

@[simp] theorem State.pfRead_memories (s : State) (c : Nat) (r : StpRec) (a n : Nat) :
    (s.pfRead c r a n).memories = s.memories := by
  simp only [State.pfRead]
  rw [memories_foldl]
  · simp
  · intro s k
    split
    · split <;> simp
    · simp

@[simp] theorem State.pfFail_memories (s : State) (c : Nat) (r : StpRec) (reason : Nat) :
    (s.pfFail c r reason).memories = s.memories := by
  simp [State.pfFail]

@[simp] theorem State.pfGot_memories (s : State) (c : Nat) (r : StpRec) :
    (s.pfGot c r).memories = s.memories := by
  simp [State.pfGot]

@[simp] theorem State.pfAnswer_memories (s : State) (c : Nat) (p : Packet) :
    (s.pfAnswer c p).memories = s.memories := by
  simp only [State.pfAnswer]
  split <;> simp

@[simp] theorem State.strRxLine_memories (s : State) (c k : Nat) :
    (s.strRxLine c k).memories = s.memories := by
  simp only [State.strRxLine]
  split <;> simp

@[simp] theorem State.rkSend_memories (s : State) (host : Bool) (g e : Nat) (data : List Byte) (poison : Bool) :
    (s.rkSend host g e data poison).memories = s.memories := by
  simp [State.rkSend]

@[simp] theorem State.rkEndTest_memories (s : State) :
    s.rkEndTest.memories = s.memories := by
  simp [State.rkEndTest]

@[simp] theorem State.rkFail_memories (s : State) (host : Bool) (reason : Nat) :
    (s.rkFail host reason).memories = s.memories := by
  simp [State.rkFail]

@[simp] theorem State.rkSealTest_memories (s : State) :
    s.rkSealTest.memories = s.memories := by
  simp [State.rkSealTest]

@[simp] theorem State.rackBoundary_memories (s : State) :
    s.rackBoundary.memories = s.memories := by
  simp only [State.rackBoundary, memories_ite, memories_mk, State.rkSend_memories, State.fset_memories, State.wr_memories,
    State.raise_memories, State.count_memories, State.rkSealTest_memories, ite_self]

/-! ## Operations of reduction -/

@[simp] theorem State.setWin_memories (s : State) (w : Nat) (x : RedWin) :
    (s.setWin w x).memories = s.memories := by
  simp [State.setWin]

@[simp] theorem State.setWinState_memories (s : State) (w st : Nat) :
    (s.setWinState w st).memories = s.memories := by
  simp [State.setWinState]

@[simp] theorem State.winStart_memories (s : State) (w : Nat) :
    (s.winStart w).memories = s.memories := by
  simp only [State.winStart]
  split <;> simp

@[simp] theorem State.winStop_memories (s : State) (w kind : Nat) :
    (s.winStop w kind).memories = s.memories := by
  simp [State.winStop]

@[simp] theorem State.winEnable_memories (s : State) (w : Nat) (v : Bool) :
    (s.winEnable w v).memories = s.memories := by
  simp [State.winEnable]

@[simp] theorem State.winStopped_memories (s : State) (w : Nat) :
    (s.winStopped w).memories = s.memories := by
  simp [State.winStopped]

@[simp] theorem State.contribPut_memories (s : State) (w a : Nat) (data : List Byte) (p : Packet) :
    (s.contribPut w a data p).memories = s.memories := by
  simp [State.contribPut]

@[simp] theorem State.contribApply_memories (s : State) (x : Contrib) (p : Packet) :
    (s.contribApply x p).memories = s.memories := by
  simp only [State.contribApply]
  rw [memories_ite, State.count_memories, ite_self, memories_foldl]
  intro s c
  split
  · split <;> simp
  · simp

@[simp] theorem State.contribDrop_memories (s : State) (x : Contrib) (status : Nat) :
    (s.contribDrop x status).memories = s.memories := by
  simp [State.contribDrop]

@[simp] theorem State.localRed_memories (s : State) (p : Packet) :
    (s.localRed p).memories = s.memories := by
  simp [State.localRed]

@[simp] theorem State.closeNotify_memories (s : State) (w : Nat) (r : CloseRec) :
    (s.closeNotify w r).memories = s.memories := by
  simp [State.closeNotify]

@[simp] theorem State.setHist_memories (s : State) (rec n h : Nat) :
    (s.setHist rec n h).memories = s.memories := by
  simp [State.setHist]

@[simp] theorem State.scaleUpdate_memories (s : State) (rec : Nat) :
    (s.scaleUpdate rec).memories = s.memories := by
  simp [State.scaleUpdate]

@[simp] theorem State.scaleUpdateAll_memories (s : State) :
    s.scaleUpdateAll.memories = s.memories := by
  simp [State.scaleUpdateAll]

/-! ## Operations of management -/

@[simp] theorem State.logStamp_memories (s : State) :
    s.logStamp.memories = s.memories := by
  simp [State.logStamp]

@[simp] theorem State.logShow_memories (s : State) :
    s.logShow.memories = s.memories := by
  simp [State.logShow]

@[simp] theorem State.logCommit_memories (s : State) :
    s.logCommit.memories = s.memories := by
  simp [State.logCommit]

@[simp] theorem State.logRecord_memories (s : State) (kind data detail : Nat) :
    (s.logRecord kind data detail).memories = s.memories := by
  simp [State.logRecord]

@[simp] theorem State.setDegraded_memories (s : State) :
    s.setDegraded.memories = s.memories := by
  simp [State.setDegraded]

@[simp] theorem State.groupLost_memories (s : State) (st : Nat) :
    (s.groupLost st).memories = s.memories := by
  simp [State.groupLost]

/-! ## Reduction commands -/

@[simp] theorem State.amaxApply_memories (s : State) (p : Packet) :
    (s.amaxApply p).memories = s.memories := by
  rw [State.amaxApply, State.rimSend_memories, State.nonfinite_memories]
  simp only [memories_mk, State.fset_memories, memories_ite, ite_self, State.take_memories]

@[simp] theorem execRedWinEnableWrite_memories (win : Win) (value : Bool) (s : State) :
    LeavesMemories s (execRedWinEnableWrite win value s) := by
  simp [execRedWinEnableWrite]

@[simp] theorem execWindowDeadline_memories (win : Win) (s : State) :
    LeavesMemories s (execWindowDeadline win s) := by
  simp [execWindowDeadline]

@[simp] theorem State.syncBegin_memories (s : State) :
    s.syncBegin.memories = s.memories := by
  simp [State.syncBegin]

@[simp] theorem State.syncApply_memories (s : State) (n : Nat) (d : Int) :
    (s.syncApply n d).memories = s.memories := by
  simp [State.syncApply]

@[simp] theorem execStepSyncEdge_memories (s : State) :
    LeavesMemories s (execStepSyncEdge s) := by
  simp only [execStepSyncEdge]
  split
  · simp
  · simp only [leavesMemories_next, leavesMemories_ite, State.raise_memories, State.count_memories, memories_ite, memories_mk,
      State.syncApply_memories, State.fset_memories, State.wr_memories, ite_self]

@[simp] theorem execSyncWindowEnd_memories (s : State) :
    LeavesMemories s (execSyncWindowEnd s) := by
  simp only [execSyncWindowEnd]
  split <;> simp

@[simp] theorem execStepOutEnd_memories (s : State) :
    LeavesMemories s (execStepOutEnd s) := by
  simp [execStepOutEnd]

/-! ## Operations of the bridge -/

@[simp] theorem State.setBp_memories (s : State) (p : Nat) (x : BrimPort) :
    (s.setBp p x).memories = s.memories := by
  simp [State.setBp]

@[simp] theorem State.setBState_memories (s : State) (p st : Nat) :
    (s.setBState p st).memories = s.memories := by
  simp [State.setBState]

@[simp] theorem State.bTrain_memories (s : State) (p : Nat) :
    (s.bTrain p).memories = s.memories := by
  simp [State.bTrain]

@[simp] theorem State.bDown_memories (s : State) (p reason : Nat) :
    (s.bDown p reason).memories = s.memories := by
  simp [State.bDown]

@[simp] theorem State.bRetrain_memories (s : State) (p reason : Nat) :
    (s.bRetrain p reason).memories = s.memories := by
  simp [State.bRetrain]

@[simp] theorem State.bTrained_memories (s : State) (p groups : Nat) :
    (s.bTrained p groups).memories = s.memories := by
  simp only [State.bTrained]
  split <;> simp

@[simp] theorem State.bLower_memories (s : State) (p : Nat) :
    (s.bLower p).memories = s.memories := by
  simp [State.bLower]

@[simp] theorem State.bEnable_memories (s : State) (p : Nat) (v : Bool) :
    (s.bEnable p v).memories = s.memories := by
  simp [State.bEnable]

@[simp] theorem State.bFrameDrop_memories (s : State) (p : Nat) :
    (s.bFrameDrop p).memories = s.memories := by
  simp [State.bFrameDrop]

@[simp] theorem State.bResend_memories (s : State) (p : Nat) :
    (s.bResend p).memories = s.memories := by
  simp [State.bResend]

@[simp] theorem State.bNoRoute_memories (s : State) (p : Nat) (b : BrimPkt) (hop : Bool) :
    (s.bNoRoute p b hop).memories = s.memories := by
  simp [State.bNoRoute]

@[simp] theorem State.bQueue_memories (s : State) (q : Nat) (b : BrimPkt) (own : Bool) :
    (s.bQueue q b own).memories = s.memories := by
  simp [State.bQueue]

@[simp] theorem State.bForward_memories (s : State) (p : Nat) (b : BrimPkt) (own : Bool) :
    (s.bForward p b own).memories = s.memories := by
  simp only [State.bForward]
  split <;> simp

@[simp] theorem State.bDeliver_memories (s : State) (r : BrimReq) (status : Nat) (data : List Byte) (poison : Bool) :
    (s.bDeliver r status data poison).memories = s.memories := by
  simp only [State.bDeliver]
  split <;> simp

@[simp] theorem State.bAck_memories (s : State) (r : BrimReq) :
    (s.bAck r).memories = s.memories := by
  simp only [State.bAck]
  split <;> simp

theorem State.freeTag_memories {s t : State} {n : Nat} (h : s.freeTag = some (n, t)) : t.memories = s.memories := by
  simp only [State.freeTag] at h
  split at h
  · cases h; simp
  · split at h
    · cases h
    · cases h; simp

@[simp] theorem State.bRequest_memories (s : State) (r : BrimReq) :
    (s.bRequest r).memories = s.memories := by
  simp only [State.bRequest]
  split
  · simp
  · split
    · simp
    · split
      · simp
      next h => simp [State.freeTag_memories h]

@[simp] theorem State.bFreeTag_memories (s : State) (r : BrimReq) :
    (s.bFreeTag r).memories = s.memories := by
  simp [State.bFreeTag]

@[simp] theorem State.bTimeout_memories (s : State) (r : BrimReq) :
    (s.bTimeout r).memories = s.memories := by
  simp [State.bTimeout]

@[simp] theorem State.bRespond_memories (s : State) (p : Nat) (b : BrimPkt) (typ status : Nat) (data : List Byte) (poison : Bool) :
    (s.bRespond p b typ status data poison).memories = s.memories := by
  simp [State.bRespond]

@[simp] theorem State.bDeny_memories (s : State) (p : Nat) (b : BrimPkt) (status : Nat) :
    (s.bDeny p b status).memories = s.memories := by
  simp [State.bDeny]

@[simp] theorem State.bIssue_memories (s : State) (p : Nat) (b : BrimPkt) (q : Packet) :
    (s.bIssue p b q).memories = s.memories := by
  simp [State.bIssue]

@[simp] theorem State.bServe_memories (s : State) (p : Nat) (b : BrimPkt) :
    (s.bServe p b).memories = s.memories := by
  simp only [State.bServe]
  split <;> simp

@[simp] theorem State.bServeRacc_memories (s : State) (p : Nat) (b : BrimPkt) :
    (s.bServeRacc p b).memories = s.memories := by
  simp only [State.bServeRacc]
  split <;> simp

@[simp] theorem State.bServed_memories (s : State) (p : Nat) (a : Packet) :
    (s.bServed p a).memories = s.memories := by
  simp only [State.bServed]
  split <;> simp

@[simp] theorem State.bArrive_memories (s : State) (p : Nat) (b : BrimPkt) :
    (s.bArrive p b).memories = s.memories := by
  simp [State.bArrive]

@[simp] theorem State.bAccept_memories (s : State) (p : Nat) (b : BrimPkt) :
    (s.bAccept p b).memories = s.memories := by
  simp [State.bAccept]

@[simp] theorem State.bFlitHeader_memories (s : State) (p : Nat) (f : BrimFlit) :
    (s.bFlitHeader p f).memories = s.memories := by
  simp [State.bFlitHeader]

@[simp] theorem State.bFlit_memories (s : State) (p : Nat) (f : BrimFlit) (body : Bool) :
    (s.bFlit p f body).memories = s.memories := by
  simp [State.bFlit]

@[simp] theorem State.bTake_memories (s : State) (p : Nat) (b : BrimPkt) :
    (s.bTake p b).memories = s.memories := by
  simp [State.bTake]

@[simp] theorem State.bReceive_memories (s : State) (p : Nat) (b : BrimPkt) (serve : State → State)
    (h : ∀ s, (serve s).memories = s.memories) : (s.bReceive p b serve).memories = s.memories := by
  simp [State.bReceive, h]

@[simp] theorem State.bResponse_memories (s : State) (p : Nat) (b : BrimPkt) :
    (s.bResponse p b).memories = s.memories := by
  rw [State.bResponse]
  apply State.bReceive_memories
  intro s
  split
  · simp
  · split <;> simp

@[simp] theorem State.bSentCount_memories (s : State) (p : Nat) (t : BrimTx) :
    (s.bSentCount p t).memories = s.memories := by
  simp [State.bSentCount]

@[simp] theorem State.bSend_memories (s : State) (p : Nat) (t : BrimTx) :
    (s.bSend p t).memories = s.memories := by
  simp [State.bSend]

@[simp] theorem State.bTransmit_memories (s : State) (p : Nat) :
    (s.bTransmit p).memories = s.memories := by
  simp only [State.bTransmit]
  repeat' split
  all_goals simp

@[simp] theorem State.bFlowWrite_memories (s : State) (p k : Nat) (en : Bool) (rate burst : Nat) :
    (s.bFlowWrite p k en rate burst).memories = s.memories := by
  simp [State.bFlowWrite]

@[simp] theorem State.setTime_memories (s : State) (x : BrimTime) :
    (s.setTime x).memories = s.memories := by
  simp [State.setTime]

@[simp] theorem State.newRate_memories (s : State) :
    s.newRate.memories = s.memories := by
  simp [State.newRate]

@[simp] theorem State.timeDone_memories (s : State) (ofs2 : Int) :
    (s.timeDone ofs2).memories = s.memories := by
  simp only [State.timeDone, memories_ite, memories_mk, State.newRate_memories, State.fset_memories, State.setTime_memories,
    State.raise_memories, ite_self]

@[simp] theorem State.timeTest_memories (s : State) :
    s.timeTest.memories = s.memories := by
  simp only [State.timeTest]
  split <;> simp

@[simp] theorem State.timeRoot_memories (s : State) (was : Bool) :
    (s.timeRoot was).memories = s.memories := by
  simp [State.timeRoot]

/-! ## Instructions of the Epru -/

@[simp] theorem execAdd_memories (core : Core) (rd ra rb : RegNo) (s : State) :
    LeavesMemories s (execAdd core rd ra rb s) := by
  simp [execAdd]

@[simp] theorem execSub_memories (core : Core) (rd ra rb : RegNo) (s : State) :
    LeavesMemories s (execSub core rd ra rb s) := by
  simp [execSub]

@[simp] theorem execAnd_memories (core : Core) (rd ra rb : RegNo) (s : State) :
    LeavesMemories s (execAnd core rd ra rb s) := by
  simp [execAnd]

@[simp] theorem execOr_memories (core : Core) (rd ra rb : RegNo) (s : State) :
    LeavesMemories s (execOr core rd ra rb s) := by
  simp [execOr]

@[simp] theorem execXor_memories (core : Core) (rd ra rb : RegNo) (s : State) :
    LeavesMemories s (execXor core rd ra rb s) := by
  simp [execXor]

@[simp] theorem execSll_memories (core : Core) (rd ra rb : RegNo) (s : State) :
    LeavesMemories s (execSll core rd ra rb s) := by
  simp [execSll]

@[simp] theorem execSrl_memories (core : Core) (rd ra rb : RegNo) (s : State) :
    LeavesMemories s (execSrl core rd ra rb s) := by
  simp [execSrl]

@[simp] theorem execSra_memories (core : Core) (rd ra rb : RegNo) (s : State) :
    LeavesMemories s (execSra core rd ra rb s) := by
  simp [execSra]

@[simp] theorem execMul_memories (core : Core) (rd ra rb : RegNo) (s : State) :
    LeavesMemories s (execMul core rd ra rb s) := by
  simp [execMul]

@[simp] theorem execMulhu_memories (core : Core) (rd ra rb : RegNo) (s : State) :
    LeavesMemories s (execMulhu core rd ra rb s) := by
  simp [execMulhu]

@[simp] theorem execSlt_memories (core : Core) (rd ra rb : RegNo) (s : State) :
    LeavesMemories s (execSlt core rd ra rb s) := by
  simp [execSlt]

@[simp] theorem execSltu_memories (core : Core) (rd ra rb : RegNo) (s : State) :
    LeavesMemories s (execSltu core rd ra rb s) := by
  simp [execSltu]

@[simp] theorem execSeq_memories (core : Core) (rd ra rb : RegNo) (s : State) :
    LeavesMemories s (execSeq core rd ra rb s) := by
  simp [execSeq]

@[simp] theorem execFlt_memories (core : Core) (rd ra rb : RegNo) (s : State) :
    LeavesMemories s (execFlt core rd ra rb s) := by
  simp [execFlt]

@[simp] theorem execFle_memories (core : Core) (rd ra rb : RegNo) (s : State) :
    LeavesMemories s (execFle core rd ra rb s) := by
  simp [execFle]

@[simp] theorem execFeq_memories (core : Core) (rd ra rb : RegNo) (s : State) :
    LeavesMemories s (execFeq core rd ra rb s) := by
  simp [execFeq]

@[simp] theorem execAddi_memories (core : Core) (rd ra : RegNo) (imm : BitVec 16) (s : State) :
    LeavesMemories s (execAddi core rd ra imm s) := by
  simp [execAddi]

@[simp] theorem execAndi_memories (core : Core) (rd ra : RegNo) (imm : BitVec 16) (s : State) :
    LeavesMemories s (execAndi core rd ra imm s) := by
  simp [execAndi]

@[simp] theorem execOri_memories (core : Core) (rd ra : RegNo) (imm : BitVec 16) (s : State) :
    LeavesMemories s (execOri core rd ra imm s) := by
  simp [execOri]

@[simp] theorem execXori_memories (core : Core) (rd ra : RegNo) (imm : BitVec 16) (s : State) :
    LeavesMemories s (execXori core rd ra imm s) := by
  simp [execXori]

@[simp] theorem execShiSll_memories (core : Core) (rd ra : RegNo) (amount : BitVec 6) (s : State) :
    LeavesMemories s (execShiSll core rd ra amount s) := by
  simp [execShiSll]

@[simp] theorem execShiSrl_memories (core : Core) (rd ra : RegNo) (amount : BitVec 6) (s : State) :
    LeavesMemories s (execShiSrl core rd ra amount s) := by
  simp [execShiSrl]

@[simp] theorem execShiSra_memories (core : Core) (rd ra : RegNo) (amount : BitVec 6) (s : State) :
    LeavesMemories s (execShiSra core rd ra amount s) := by
  simp [execShiSra]

@[simp] theorem execLui_memories (core : Core) (rd : RegNo) (imm : BitVec 16) (s : State) :
    LeavesMemories s (execLui core rd imm s) := by
  simp [execLui]

@[simp] theorem State.tagBlock_memories (s : State) (c port line : Nat) :
    (s.tagBlock c port line).memories = s.memories := by
  simp [State.tagBlock]

@[simp] theorem State.tagUnblock_memories (s : State) (c port line : Nat) :
    (s.tagUnblock c port line).memories = s.memories := by
  simp [State.tagUnblock]

@[simp] theorem State.epReg_memories (s : State) (core rd ra imm : Nat) (write : Bool) :
    (s.epReg core rd ra imm write).memories = s.memories := by
  simp only [State.epReg]
  split
  · simp
  next h => simp [State.epBegin_memories h]

@[simp] theorem execRld_memories (core : Core) (rd ra : RegNo) (imm : BitVec 16) (s : State) :
    LeavesMemories s (execRld core rd ra imm s) := by
  simp [execRld]

@[simp] theorem execRst_memories (core : Core) (rd ra : RegNo) (imm : BitVec 16) (s : State) :
    LeavesMemories s (execRst core rd ra imm s) := by
  simp [execRst]

@[simp] theorem State.epBranch_memories (s : State) (core ra rb off : Nat) (p : Nat → Nat → Bool) :
    (s.epBranch core ra rb off p).memories = s.memories := by
  simp only [State.epBranch]
  split
  · simp
  next h => simp [State.epBegin_memories h]

@[simp] theorem execBeq_memories (core : Core) (ra rb : RegNo) (off : BitVec 16) (s : State) :
    LeavesMemories s (execBeq core ra rb off s) := by
  simp [execBeq]

@[simp] theorem execBne_memories (core : Core) (ra rb : RegNo) (off : BitVec 16) (s : State) :
    LeavesMemories s (execBne core ra rb off s) := by
  simp [execBne]

@[simp] theorem execBlt_memories (core : Core) (ra rb : RegNo) (off : BitVec 16) (s : State) :
    LeavesMemories s (execBlt core ra rb off s) := by
  simp [execBlt]

@[simp] theorem execBge_memories (core : Core) (ra rb : RegNo) (off : BitVec 16) (s : State) :
    LeavesMemories s (execBge core ra rb off s) := by
  simp [execBge]

@[simp] theorem execBltu_memories (core : Core) (ra rb : RegNo) (off : BitVec 16) (s : State) :
    LeavesMemories s (execBltu core ra rb off s) := by
  simp [execBltu]

@[simp] theorem execBgeu_memories (core : Core) (ra rb : RegNo) (off : BitVec 16) (s : State) :
    LeavesMemories s (execBgeu core ra rb off s) := by
  simp [execBgeu]

@[simp] theorem State.epJump_memories (s : State) (core rd : Nat) (pc : Int) :
    (s.epJump core rd pc).memories = s.memories := by
  simp [State.epJump]

@[simp] theorem execJal_memories (core : Core) (rd : RegNo) (off : BitVec 21) (s : State) :
    LeavesMemories s (execJal core rd off s) := by
  simp only [execJal]
  split
  · simp
  next h => simp [State.epBegin_memories h]

@[simp] theorem execJr_memories (core : Core) (rd ra : RegNo) (imm : BitVec 16) (s : State) :
    LeavesMemories s (execJr core rd ra imm s) := by
  simp only [execJr]
  split
  · simp
  next h => simp [State.epBegin_memories h]

@[simp] theorem execRdtTb_memories (core : Core) (rd : RegNo) (s : State) :
    LeavesMemories s (execRdtTb core rd s) := by
  simp [execRdtTb]

@[simp] theorem execRdtWt_memories (core : Core) (rd : RegNo) (s : State) :
    LeavesMemories s (execRdtWt core rd s) := by
  simp [execRdtWt]

@[simp] theorem execRdtSegBase_memories (core : Core) (rd : RegNo) (s : State) :
    LeavesMemories s (execRdtSegBase core rd s) := by
  simp [execRdtSegBase]

@[simp] theorem execRdtCoreIndex_memories (core : Core) (rd : RegNo) (s : State) :
    LeavesMemories s (execRdtCoreIndex core rd s) := by
  simp [execRdtCoreIndex]

@[simp] theorem execRdtTractSlot_memories (core : Core) (rd : RegNo) (s : State) :
    LeavesMemories s (execRdtTractSlot core rd s) := by
  simp [execRdtTractSlot]

@[simp] theorem execRdtSegmentNumber_memories (core : Core) (rd : RegNo) (s : State) :
    LeavesMemories s (execRdtSegmentNumber core rd s) := by
  simp [execRdtSegmentNumber]

@[simp] theorem execRdtRerunCount_memories (core : Core) (rd : RegNo) (s : State) :
    LeavesMemories s (execRdtRerunCount core rd s) := by
  simp [execRdtRerunCount]

/-- What writing a bundle leaves, whether or not it was written, has the memories of s. -/
def WrRes.LeavesMemories (s : State) : WrRes → Prop
  | .done t => t.memories = s.memories
  | .full => True
  | .fault t => t.memories = s.memories

theorem State.epWrite_memories (s : State) (c b add t : Nat) : (s.epWrite c b add t).LeavesMemories s := by
  simp only [State.epWrite]
  repeat' split
  all_goals simp [WrRes.LeavesMemories]

@[simp] theorem State.epWriteAll_memories (s : State) (c add t : Nat) (l : List Nat) :
    (s.epWriteAll c add t l).memories = s.memories := by
  induction l generalizing s t with
  | nil => simp [State.epWriteAll]
  | cons b rest ih =>
    have h := s.epWrite_memories c b add t
    simp only [State.epWriteAll]
    cases e : s.epWrite c b add t with
    | done u => rw [e] at h; exact (ih u (t + 4)).trans h
    | full => simp
    | fault u => rw [e] at h; exact h

@[simp] theorem execIssue_memories (core : Core) (rd ra rb : RegNo) (s : State) :
    LeavesMemories s (execIssue core rd ra rb s) := by
  simp only [execIssue]
  split
  · simp
  next h => simp [State.epBegin_memories h]

@[simp] theorem execBiss_memories (core : Core) (rd ra rb : RegNo) (s : State) :
    LeavesMemories s (execBiss core rd ra rb s) := by
  simp only [execBiss]
  split
  · simp
  next h => simp [State.epBegin_memories h]

@[simp] theorem execIssueQueueWaitEnd_memories (core : Core) (s : State) :
    LeavesMemories s (execIssueQueueWaitEnd core s) := by
  simp only [execIssueQueueWaitEnd]
  split <;> simp

@[simp] theorem execWaitc_memories (core : Core) (ra : RegNo) (imm : BitVec 16) (s : State) :
    LeavesMemories s (execWaitc core ra imm s) := by
  simp only [execWaitc]
  split
  · simp
  next h => simp [State.epBegin_memories h]

@[simp] theorem execWaitcSatisfied_memories (core : Core) (s : State) :
    LeavesMemories s (execWaitcSatisfied core s) := by
  simp only [execWaitcSatisfied]
  split <;> simp

@[simp] theorem execSetc_memories (core : Core) (ra : RegNo) (imm : BitVec 16) (s : State) :
    LeavesMemories s (execSetc core ra imm s) := by
  simp only [execSetc]
  split
  · simp
  next h => simp [State.epBegin_memories h]

@[simp] theorem execRdc_memories (core : Core) (rd : RegNo) (imm : BitVec 16) (s : State) :
    LeavesMemories s (execRdc core rd imm s) := by
  simp only [execRdc]
  split
  · simp
  next h => simp [State.epBegin_memories h]

@[simp] theorem State.ifill_memories (s : State) (c line lines byte : Nat) :
    (s.ifill c line lines byte).memories = s.memories := by
  simp [State.ifill]

@[simp] theorem execIfill_memories (core : Core) (ra rb : RegNo) (fn : BitVec 10) (s : State) :
    LeavesMemories s (execIfill core ra rb fn s) := by
  simp only [execIfill]
  split
  · simp
  next h => simp [State.epBegin_memories h]

@[simp] theorem State.epBar_memories (s : State) (core kind : Nat) :
    (s.epBar core kind).memories = s.memories := by
  simp only [State.epBar]
  split
  · simp
  next h => simp [State.epBegin_memories h]

@[simp] theorem execBarSeg_memories (core : Core) (s : State) :
    LeavesMemories s (execBarSeg core s) := by
  simp [execBarSeg]

@[simp] theorem execBarStep_memories (core : Core) (s : State) :
    LeavesMemories s (execBarStep core s) := by
  simp [execBarStep]

@[simp] theorem execReqr_memories (core : Core) (cause : BitVec 8) (s : State) :
    LeavesMemories s (execReqr core cause s) := by
  simp only [execReqr]
  split
  · simp
  next h => simp [State.epBegin_memories h]

@[simp] theorem execTfault_memories (core : Core) (code : BitVec 8) (s : State) :
    LeavesMemories s (execTfault core code s) := by
  simp only [execTfault]
  split
  · simp
  next h => simp [State.epBegin_memories h]

@[simp] theorem execEpruReservedInstruction_memories (core : Core) (s : State) :
    LeavesMemories s (execEpruReservedInstruction core s) := by
  simp [execEpruReservedInstruction]

/-! ## Health -/

@[simp] theorem State.lossWrite_memories (s : State) (x : Nat) :
    (s.lossWrite x).memories = s.memories := by
  simp [State.lossWrite]

@[simp] theorem State.lossClear_memories (s : State) :
    s.lossClear.memories = s.memories := by
  simp [State.lossClear]

@[simp] theorem execHlthLossWrite_memories (loss : BitVec 32) (s : State) :
    LeavesMemories s (execHlthLossWrite loss s) := by
  simp [execHlthLossWrite]

@[simp] theorem execHlthLossClear_memories (s : State) :
    LeavesMemories s (execHlthLossClear s) := by
  simp [execHlthLossClear]

@[simp] theorem execHlthNfAddWrite_memories (count : BitVec 32) (s : State) :
    LeavesMemories s (execHlthNfAddWrite count s) := by
  simp [execHlthNfAddWrite]

@[simp] theorem State.hydReq_memories (s : State) :
    s.hydReq.memories = s.memories := by
  simp [State.hydReq]

@[simp] theorem State.hydTest_memories (s : State) (risk thr : Nat) :
    (s.hydTest risk thr).memories = s.memories := by
  simp [State.hydTest]

@[simp] theorem execHydrometerUpdate_memories (s : State) :
    LeavesMemories s (execHydrometerUpdate s) := by
  simp [execHydrometerUpdate]

@[simp] theorem State.markFailed_memories (s : State) (seg p : Nat) :
    (s.markFailed seg p).memories = s.memories := by
  simp [State.markFailed]

@[simp] theorem State.spareGen_memories (s : State) :
    s.spareGen.memories = s.memories := by
  simp [State.spareGen]

@[simp] theorem State.spareFailed_memories (s : State) (seg p : Nat) :
    (s.spareFailed seg p).memories = s.memories := by
  simp [State.spareFailed]

@[simp] theorem State.coreFailed_memories (s : State) (pos crit : Nat) :
    (s.coreFailed pos crit).memories = s.memories := by
  simp [State.coreFailed]

@[simp] theorem State.slotHalt_memories (s : State) (t : Nat) :
    (s.slotHalt t).memories = s.memories := by
  simp [State.slotHalt]

@[simp] theorem State.recovery_memories (s : State) :
    s.recovery.memories = s.memories := by
  simp [State.recovery]

@[simp] theorem State.declare_memories (s : State) (pos crit : Nat) :
    (s.declare pos crit).memories = s.memories := by
  simp [State.declare]

@[simp] theorem execCorePulseLapse_memories (pos : Pos) (s : State) :
    LeavesMemories s (execCorePulseLapse pos s) := by
  simp [execCorePulseLapse]

@[simp] theorem State.coreFailWrite_memories (s : State) (phys : Bool) (index : Nat) :
    (s.coreFailWrite phys index).memories = s.memories := by
  simp [State.coreFailWrite]

@[simp] theorem execHlthCoreFailWrite_memories (phys : Bool) (index : Fin 32768) (s : State) :
    LeavesMemories s (execHlthCoreFailWrite phys index s) := by
  simp [execHlthCoreFailWrite]

@[simp] theorem execCoreFailureDeclaration_memories (s : State) :
    LeavesMemories s (execCoreFailureDeclaration s) := by
  simp only [execCoreFailureDeclaration]
  split <;> simp

@[simp] theorem execMonClearWrite_memories (mon : Mon) (s : State) :
    LeavesMemories s (execMonClearWrite mon s) := by
  simp [execMonClearWrite]

@[simp] theorem State.monSelect_memories (s : State) (m src sel : Nat) :
    (s.monSelect m src sel).memories = s.memories := by
  simp [State.monSelect]

@[simp] theorem execMonSourceChange_memories (mon : Mon) (src : Fin 7) (sel : Fin 1024) (s : State) :
    LeavesMemories s (execMonSourceChange mon src sel s) := by
  simp [execMonSourceChange]

/-! ## Operations of resets -/

@[simp] theorem State.resetRegs_memories (s : State) (cold : Bool) (p : RegRef → Bool) :
    (s.resetRegs cold p).memories = s.memories := by
  simp [State.resetRegs]

@[simp] theorem State.levelRequest_memories (s : State) :
    s.levelRequest.memories = s.memories := by
  simp [State.levelRequest]

@[simp] theorem State.pinsResume_memories (s : State) :
    s.pinsResume.memories = s.memories := by
  simp [State.pinsResume]

@[simp] theorem State.coreClear_memories (s : State) (c : Nat) :
    (s.coreClear c).memories = s.memories := by
  simp [State.coreClear]

@[simp] theorem State.coreReset_memories (s : State) (c : Nat) :
    (s.coreReset c).memories = s.memories := by
  simp [State.coreReset]

@[simp] theorem State.setCause_memories (s : State) (cls src : Nat) :
    (s.setCause cls src).memories = s.memories := by
  simp [State.setCause]

@[simp] theorem State.tractReset_memories (s : State) (t : Nat) :
    (s.tractReset t).memories = s.memories := by
  simp [State.tractReset]

@[simp] theorem State.pinsHold_memories (s : State) :
    s.pinsHold.memories = s.memories := by
  simp [State.pinsHold]

@[simp] theorem State.mapRevert_memories (s : State) :
    s.mapRevert.memories = s.memories := by
  simp [State.mapRevert]

@[simp] theorem State.stacksReset_memories (s was : State) :
    (s.stacksReset was).memories = s.memories := by
  simp [State.stacksReset]

@[simp] theorem State.restrictedKept_memories (s was : State) :
    (s.restrictedKept was).memories = s.memories := by
  simp [State.restrictedKept]

@[simp] theorem State.toBoil_memories (s : State) :
    s.toBoil.memories = s.memories := by
  simp [State.toBoil]

/-! ## Operations of the start-up -/

@[simp] theorem State.bootImage_memories (s : State) (dev slot : Nat) :
    (s.bootImage dev slot).memories = s.memories := by
  simp [State.bootImage]

@[simp] theorem State.setStage_memories (s : State) (n : Nat) :
    (s.setStage n).memories = s.memories := by
  simp [State.setStage]

@[simp] theorem State.bootStop_memories (s : State) (why : Nat) :
    (s.bootStop why).memories = s.memories := by
  simp [State.bootStop]

@[simp] theorem State.phaseImage_memories (s : State) (deadA deadB : Bool) :
    (s.phaseImage deadA deadB).memories = s.memories := by
  simp only [State.phaseImage]
  repeat' split
  all_goals simp

@[simp] theorem State.trimCommit_memories (s : State) (safe : Bool) :
    (s.trimCommit safe).memories = s.memories := by
  simp [State.trimCommit]

@[simp] theorem State.trimLoad_memories (s : State) (oks : List Bool) (n : Nat) : (s.trimLoad oks n).memories = s.memories := by
  induction n generalizing s oks with
  | zero => rfl
  | succ n ih => simp [State.trimLoad, ih]

@[simp] theorem State.phaseTrims_memories (s : State) (oks : List Bool) :
    (s.phaseTrims oks).memories = s.memories := by
  simp [State.phaseTrims]

@[simp] theorem State.rampStart_memories (s : State) :
    s.rampStart.memories = s.memories := by
  simp [State.rampStart]

@[simp] theorem State.phaseSync_memories (s : State) :
    s.phaseSync.memories = s.memories := by
  simp [State.phaseSync]

@[simp] theorem State.stackTrained_memories (s : State) (st fails : Nat) :
    (s.stackTrained st fails).memories = s.memories := by
  simp [State.stackTrained]

@[simp] theorem State.karFail_memories (s : State) (pos code crit : Nat) :
    (s.karFail pos code crit).memories = s.memories := by
  simp [State.karFail]

@[simp] theorem State.spareSwap_memories (s : State) (seg p q : Nat) :
    (s.spareSwap seg p q).memories = s.memories := by
  simp [State.spareSwap]

@[simp] theorem State.bootMark_memories (s : State) :
    s.bootMark.memories = s.memories := by
  simp [State.bootMark]

@[simp] theorem State.bootReplace_memories (s : State) (pos : Nat) :
    (s.bootReplace pos).memories = s.memories := by
  simp only [State.bootReplace]
  repeat' split
  all_goals simp

@[simp] theorem State.bootMap_memories (s : State) :
    s.bootMap.memories = s.memories := by
  simp [State.bootMap]

@[simp] theorem State.rstReject_memories (s : State) (reason src : Nat) :
    (s.rstReject reason src).memories = s.memories := by
  simp [State.rstReject]

@[simp] theorem State.domainEdges_memories (s : State) (domain : Nat) :
    (s.domainEdges domain).memories = s.memories := by
  simp [State.domainEdges]

/-! ## Reset and start-up commands -/

@[simp] theorem State.coldRelease_memories (s : State) :
    s.coldRelease.memories = s.memories := by
  simp [State.coldRelease]

@[simp] theorem execPwrOkRelease_memories (s : State) :
    LeavesMemories s (execPwrOkRelease s) := by
  simp [execPwrOkRelease]

@[simp] theorem execBusbarUvloRise_memories (s : State) :
    LeavesMemories s (execBusbarUvloRise s) := by
  simp [execBusbarUvloRise]

@[simp] theorem execPerstNDeassert_memories (s : State) :
    LeavesMemories s (execPerstNDeassert s) := by
  simp [execPerstNDeassert]

@[simp] theorem execModRstNHigh_memories (s : State) :
    LeavesMemories s (execModRstNHigh s) := by
  simp [execModRstNHigh]

@[simp] theorem State.wdogKick_memories (s : State) :
    s.wdogKick.memories = s.memories := by
  simp [State.wdogKick]

@[simp] theorem execWdogKickWrite_memories (s : State) :
    LeavesMemories s (execWdogKickWrite s) := by
  simp [execWdogKickWrite]

@[simp] theorem execPllLock_memories (field : FieldId) (s : State) :
    LeavesMemories s (execPllLock field s) := by
  simp [execPllLock]

@[simp] theorem execClockGood_memories (field : FieldId) (s : State) :
    LeavesMemories s (execClockGood field s) := by
  simp [execClockGood]

@[simp] theorem execDomainRelease_memories (domain : Fin 6) (field : FieldId) (s : State) :
    LeavesMemories s (execDomainRelease domain field s) := by
  simp [execDomainRelease]

@[simp] theorem execKarReport_memories (pos : Pos) (part : Fin 3) (signature : BitVec 64) (s : State) :
    LeavesMemories s (execKarReport pos part signature s) := by
  simp [execKarReport]

@[simp] theorem execKarDeadline_memories (pos : Pos) (s : State) :
    LeavesMemories s (execKarDeadline pos s) := by
  simp [execKarDeadline]

@[simp] theorem execStartUpMapCommit_memories (s : State) :
    LeavesMemories s (execStartUpMapCommit s) := by
  simp [execStartUpMapCommit]

@[simp] theorem execTrimRetryWrite_memories (s : State) :
    LeavesMemories s (execTrimRetryWrite s) := by
  simp [execTrimRetryWrite]

/-! ## Bridge commands -/

@[simp] theorem execBrimEnableWrite_memories (port : Port) (value : Bool) (s : State) :
    LeavesMemories s (execBrimEnableWrite port value s) := by
  simp [execBrimEnableWrite]

@[simp] theorem execBrimRetrainWrite_memories (port : Port) (s : State) :
    LeavesMemories s (execBrimRetrainWrite port s) := by
  simp [execBrimRetrainWrite]

@[simp] theorem execBlockLockLoss_memories (port : Port) (group : Bool) (s : State) :
    LeavesMemories s (execBlockLockLoss port group s) := by
  simp [execBlockLockLoss]

@[simp] theorem execBrimTrainingAttemptEnd_memories (port : Port) (lockA lockB : Bool) (s : State) :
    LeavesMemories s (execBrimTrainingAttemptEnd port lockA lockB s) := by
  simp [execBrimTrainingAttemptEnd]

@[simp] theorem execBrimGroupRetry_memories (port : Port) (locks : Bool) (s : State) :
    LeavesMemories s (execBrimGroupRetry port locks s) := by
  simp [execBrimGroupRetry]

@[simp] theorem execBrimStoppingEnd_memories (port : Port) (s : State) :
    LeavesMemories s (execBrimStoppingEnd port s) := by
  simp [execBrimStoppingEnd]

@[simp] theorem execBrimDataFlit_memories (port : Port) (flit : BrimFlit) (s : State) :
    LeavesMemories s (execBrimDataFlit port flit s) := by
  simp [execBrimDataFlit]

@[simp] theorem execBrimIdleFlit_memories (port : Port) (flit : BrimFlit) (s : State) :
    LeavesMemories s (execBrimIdleFlit port flit s) := by
  simp [execBrimIdleFlit]

@[simp] theorem execBrimPeerFlit_memories (port : Port) (msg : PeerMsg) (s : State) :
    LeavesMemories s (execBrimPeerFlit port msg s) := by
  simp [execBrimPeerFlit]

@[simp] theorem execBrimReplayTimeout_memories (port : Port) (s : State) :
    LeavesMemories s (execBrimReplayTimeout port s) := by
  simp [execBrimReplayTimeout]

@[simp] theorem execBrimFrameReceive_memories (port : Port) (good : Bool) (corr uncorr : Nat) (etype : BitVec 16)
    (packet : BrimPkt) (s : State) :
    LeavesMemories s (execBrimFrameReceive port good corr uncorr etype packet s) := by
  simp [execBrimFrameReceive]

@[simp] theorem execPfcPauseFrame_memories (port : Port) (iface : Bool) (enables : BitVec 8) (times : List (BitVec 16)) (s : State) :
    LeavesMemories s (execPfcPauseFrame port iface enables times s) := by
  simp [execPfcPauseFrame]

@[simp] theorem execBrimPacketTransmit_memories (port : Port) (s : State) :
    LeavesMemories s (execBrimPacketTransmit port s) := by
  simp [execBrimPacketTransmit]

@[simp] theorem execBrimRequestQueue_memories (port : Port) (packet : Packet) (s : State) :
    LeavesMemories s (execBrimRequestQueue port packet s) := by
  simp [execBrimRequestQueue]

@[simp] theorem execRemoteTagTimeout_memories (tag : Fin 16384) (s : State) :
    LeavesMemories s (execRemoteTagTimeout tag s) := by
  simp only [execRemoteTagTimeout]
  split <;> simp

@[simp] theorem execTagCoolEnd_memories (tag : Fin 16384) (s : State) :
    LeavesMemories s (execTagCoolEnd tag s) := by
  simp only [execTagCoolEnd]
  repeat' split
  all_goals simp

@[simp] theorem execRedToRacc_memories (port : Port) (packet : Packet) (s : State) :
    LeavesMemories s (execRedToRacc port packet s) := by
  simp only [execRedToRacc]
  repeat' split
  all_goals simp

@[simp] theorem execBrimWr_memories (port : Port) (packet : BrimPkt) (s : State) :
    LeavesMemories s (execBrimWr port packet s) := by
  simp [execBrimWr]

@[simp] theorem execBrimRd_memories (port : Port) (packet : BrimPkt) (s : State) :
    LeavesMemories s (execBrimRd port packet s) := by
  simp [execBrimRd]

@[simp] theorem execBrimRegrd_memories (port : Port) (packet : BrimPkt) (s : State) :
    LeavesMemories s (execBrimRegrd port packet s) := by
  simp [execBrimRegrd]

@[simp] theorem execBrimRegwr_memories (port : Port) (packet : BrimPkt) (s : State) :
    LeavesMemories s (execBrimRegwr port packet s) := by
  simp [execBrimRegwr]

@[simp] theorem execBrimRacc_memories (port : Port) (packet : BrimPkt) (s : State) :
    LeavesMemories s (execBrimRacc port packet s) := by
  simp [execBrimRacc]

@[simp] theorem execBrimRdr_memories (port : Port) (packet : BrimPkt) (s : State) :
    LeavesMemories s (execBrimRdr port packet s) := by
  simp [execBrimRdr]

@[simp] theorem execBrimWack_memories (port : Port) (packet : BrimPkt) (s : State) :
    LeavesMemories s (execBrimWack port packet s) := by
  simp [execBrimWack]

@[simp] theorem execBrimRegr_memories (port : Port) (packet : BrimPkt) (s : State) :
    LeavesMemories s (execBrimRegr port packet s) := by
  simp [execBrimRegr]

@[simp] theorem execBrimFlowWrite_memories (port : Port) (flow : Fin 256) (value : BitVec 32) (s : State) :
    LeavesMemories s (execBrimFlowWrite port flow value s) := by
  simp [execBrimFlowWrite]

@[simp] theorem execTimeExchangeStart_memories (s : State) :
    LeavesMemories s (execTimeExchangeStart s) := by
  simp [execTimeExchangeStart]

@[simp] theorem execBrimTimeFlit_memories (port : Port) (reply : Bool) (t1 t2 t3 : Nat) (s : State) :
    LeavesMemories s (execBrimTimeFlit port reply t1 t2 t3 s) := by
  simp [execBrimTimeFlit]

@[simp] theorem execPtpMessage_memories (port : Port) (msg : PtpMsg) (s : State) :
    LeavesMemories s (execPtpMessage port msg s) := by
  simp only [execPtpMessage]
  repeat' split
  all_goals simp

/-! ## Tract commands -/

@[simp] theorem State.tractLoad_memories (s : State) (t : Nat) :
    (s.tractLoad t).memories = s.memories := by
  simp only [State.tractLoad]
  repeat' split
  all_goals simp

@[simp] theorem State.slotDefaults_memories (s : State) (t : Nat) :
    (s.slotDefaults t).memories = s.memories := by
  simp [State.slotDefaults]

@[simp] theorem State.scheduleRel_memories (s : State) (t : Nat) (rerun first : Bool) :
    (s.scheduleRel t rerun first).memories = s.memories := by
  simp [State.scheduleRel]

@[simp] theorem State.tractResume_memories (s : State) (t : Nat) :
    (s.tractResume t).memories = s.memories := by
  simp [State.tractResume]

@[simp] theorem State.tractOn_memories (s : State) (t : Nat) :
    (s.tractOn t).memories = s.memories := by
  simp [State.tractOn]

@[simp] theorem State.tractOff_memories (s : State) (t : Nat) :
    (s.tractOff t).memories = s.memories := by
  simp only [State.tractOff]
  repeat' split
  all_goals simp

@[simp] theorem execTractLoad_memories (slot : Slot) (s : State) :
    LeavesMemories s (execTractLoad slot s) := by
  simp [execTractLoad]

@[simp] theorem execTractDisable_memories (slot : Slot) (s : State) :
    LeavesMemories s (execTractDisable slot s) := by
  simp [execTractDisable]

@[simp] theorem execTractCodeFillComplete_memories (slot : Slot) (s : State) :
    LeavesMemories s (execTractCodeFillComplete slot s) := by
  simp [execTractCodeFillComplete]

@[simp] theorem execBarrierArrival_memories (core : Core) (s : State) :
    LeavesMemories s (execBarrierArrival core s) := by
  simp only [execBarrierArrival]
  split <;> simp

@[simp] theorem State.rootComplete_memories (s : State) (t root : Nat) (b : BarRec) :
    (s.rootComplete t root b).memories = s.memories := by
  simp [State.rootComplete]

@[simp] theorem execBarPacketForward_memories (core : Core) (s : State) :
    LeavesMemories s (execBarPacketForward core s) := by
  simp only [execBarPacketForward]
  repeat' split
  all_goals simp

@[simp] theorem execBrelReceive_memories (core : Core) (s : State) :
    LeavesMemories s (execBrelReceive core s) := by
  simp only [execBrelReceive]
  repeat' split
  all_goals simp

@[simp] theorem execBarrierTimeout_memories (slot : Slot) (s : State) :
    LeavesMemories s (execBarrierTimeout slot s) := by
  simp [execBarrierTimeout]

@[simp] theorem execTagBlockTimeout_memories (core : Core) (port : Fin 16) (bank : Fin 32) (s : State) :
    LeavesMemories s (execTagBlockTimeout core port bank s) := by
  simp only [execTagBlockTimeout]
  split <;> simp

@[simp] theorem State.stpCommit_memories (s : State) (c : Nat) (step : Bool) :
    (s.stpCommit c step).memories = s.memories := by
  simp only [State.stpCommit]
  repeat' split
  all_goals simp

@[simp] theorem State.coreRestore_memories (s : State) (c : Nat) :
    (s.coreRestore c).memories = s.memories := by
  simp [State.coreRestore]

@[simp] theorem State.coreBegin_memories (s : State) (c tb : Nat) :
    (s.coreBegin c tb).memories = s.memories := by
  simp [State.coreBegin]

/-! ## Operations of power -/

@[simp] theorem State.descend_memories (s : State) :
    s.descend.memories = s.memories := by
  simp [State.descend]

@[simp] theorem State.moveBegin_memories (s : State) (exit_ : Bool) :
    (s.moveBegin exit_).memories = s.memories := by
  simp [State.moveBegin]

@[simp] theorem State.wake_memories (s : State) :
    s.wake.memories = s.memories := by
  simp only [State.wake]
  split <;> simp

@[simp] theorem State.powerTarget_memories (s : State) (t : Nat) :
    (s.powerTarget t).memories = s.memories := by
  simp [State.powerTarget]

@[simp] theorem State.tractEnable_memories (s : State) (t : Nat) :
    (s.tractEnable t).memories = s.memories := by
  simp [State.tractEnable]

@[simp] theorem State.coresRestore_memories (s : State) (p : Nat → Bool) :
    (s.coresRestore p).memories = s.memories := by
  simp [State.coresRestore]

@[simp] theorem State.cellarEnter_memories (s : State) :
    s.cellarEnter.memories = s.memories := by
  simp [State.cellarEnter]

@[simp] theorem State.cellarUp_memories (s : State) :
    s.cellarUp.memories = s.memories := by
  simp [State.cellarUp]

@[simp] theorem State.cellarTrain_memories (s : State) :
    s.cellarTrain.memories = s.memories := by
  simp [State.cellarTrain]

@[simp] theorem State.slotPark_memories (s : State) (t : Nat) :
    (s.slotPark t).memories = s.memories := by
  simp [State.slotPark]

@[simp] theorem State.parkStart_memories (s : State) (f : Nat) :
    (s.parkStart f).memories = s.memories := by
  simp [State.parkStart]

@[simp] theorem State.parkChange_memories (s : State) (f : Nat) (was : Bool) :
    (s.parkChange f was).memories = s.memories := by
  simp only [State.parkChange]
  split <;> simp

@[simp] theorem State.slotUnpark_memories (s : State) (t : Nat) :
    (s.slotUnpark t).memories = s.memories := by
  simp [State.slotUnpark]

@[simp] theorem State.slotsUnpark_memories (s : State) (ts : List Nat) :
    (s.slotsUnpark ts).memories = s.memories := by
  simp [State.slotsUnpark]

@[simp] theorem State.warnTest_memories (s : State) (f : Nat) (x : Int) :
    (s.warnTest f x).memories = s.memories := by
  simp [State.warnTest]

@[simp] theorem State.heatTest_memories (s : State) (f : Nat) (x : Int) :
    (s.heatTest f x).memories = s.memories := by
  simp [State.heatTest]

@[simp] theorem State.supplyTest_memories (s : State) (mv : Nat) :
    (s.supplyTest mv).memories = s.memories := by
  simp [State.supplyTest]

@[simp] theorem State.capTest_memories (s : State) (sample penv req : Nat) :
    (s.capTest sample penv req).memories = s.memories := by
  simp [State.capTest]

/-! ## Power commands -/

@[simp] theorem execSkimLevelChange_memories (s : State) :
    LeavesMemories s (execSkimLevelChange s) := by
  simp only [execSkimLevelChange]
  split <;> simp

@[simp] theorem execRampStep_memories (s : State) :
    LeavesMemories s (execRampStep s) := by
  simp only [execRampStep]
  split <;> simp

@[simp] theorem execPwrTargetWrite_memories (target : Fin 4) (s : State) :
    LeavesMemories s (execPwrTargetWrite target s) := by
  simp [execPwrTargetWrite]

@[simp] theorem execPowerRungEnter_memories (s : State) :
    LeavesMemories s (execPowerRungEnter s) := by
  simp [execPowerRungEnter]

@[simp] theorem execPowerExitComplete_memories (s : State) :
    LeavesMemories s (execPowerExitComplete s) := by
  simp only [execPowerExitComplete]
  split <;> simp

@[simp] theorem execAutoSimmerIdle_memories (s : State) :
    LeavesMemories s (execAutoSimmerIdle s) := by
  simp [execAutoSimmerIdle]

@[simp] theorem execPowerSample_memories (watts millivolts : BitVec 32) (s : State) :
    LeavesMemories s (execPowerSample watts millivolts s) := by
  simp [execPowerSample]

@[simp] theorem State.maxClear_memories (s : State) (f : Nat) :
    (s.maxClear f).memories = s.memories := by
  simp [State.maxClear]

@[simp] theorem execFldMaxClrWrite_memories (field : FieldId) (s : State) :
    LeavesMemories s (execFldMaxClrWrite field s) := by
  simp [execFldMaxClrWrite]

@[simp] theorem State.parkWrite_memories (s : State) (f : Nat) (v : Bool) :
    (s.parkWrite f v).memories = s.memories := by
  simp [State.parkWrite]

@[simp] theorem execFldParkWrite_memories (field : FieldId) (value : Bool) (s : State) :
    LeavesMemories s (execFldParkWrite field value s) := by
  simp [execFldParkWrite]

@[simp] theorem execFieldParkComplete_memories (field : FieldId) (s : State) :
    LeavesMemories s (execFieldParkComplete field s) := by
  simp [execFieldParkComplete]

@[simp] theorem execFieldUnparkComplete_memories (field : FieldId) (s : State) :
    LeavesMemories s (execFieldUnparkComplete field s) := by
  simp [execFieldUnparkComplete]

@[simp] theorem execTractEnable_memories (slot : Slot) (s : State) :
    LeavesMemories s (execTractEnable slot s) := by
  simp [execTractEnable]

@[simp] theorem State.tractFree_memories (s : State) (t : Nat) :
    (s.tractFree t).memories = s.memories := by
  simp [State.tractFree]

@[simp] theorem execTractFree_memories (slot : Slot) (s : State) :
    LeavesMemories s (execTractFree slot s) := by
  simp [execTractFree]

/-! ## Scratchpad commands -/

@[simp] theorem State.portServed_memories (s : State) (c : Nat) (v : SpServed) :
    (s.portServed c v).memories = s.memories := by
  simp only [State.portServed]
  split <;> simp

@[simp] theorem State.hostDetect_memories (s : State) (op : Nat) :
    (s.hostDetect op).memories = s.memories := by
  simp [State.hostDetect]

@[simp] theorem execSpInjArmWrite_memories (core : Core) (s : State) :
    LeavesMemories s (execSpInjArmWrite core s) := by
  simp [execSpInjArmWrite]

@[simp] theorem State.bistStart_memories (s : State) (c : Nat) :
    (s.bistStart c).memories = s.memories := by
  simp [State.bistStart]

@[simp] theorem execSpBistStart_memories (core : Core) (s : State) :
    LeavesMemories s (execSpBistStart core s) := by
  simp [execSpBistStart]

@[simp] theorem execReferenceNclk_memories (core : Core) (s : State) :
    LeavesMemories s (execReferenceNclk core s) := by
  simp [execReferenceNclk]

/-! ## Operations of the host port -/

@[simp] theorem State.unbackedModule_memories (s : State) (a : Nat) :
    (s.unbackedModule a).memories = s.memories := by
  simp [State.unbackedModule]

@[simp] theorem State.setReq_memories (s : State) (r : HostReq) :
    (s.setReq r).memories = s.memories := by
  simp [State.setReq]

@[simp] theorem State.hostDone_memories (s : State) (tag status : Nat) (data : List Byte) (poison : Bool) :
    (s.hostDone tag status data poison).memories = s.memories := by
  simp [State.hostDone]

@[simp] theorem State.hostIssue_memories (s : State) :
    s.hostIssue.memories = s.memories := by
  simp [State.hostIssue]

@[simp] theorem State.hostRequest_memories (s : State) (tag n : Nat) (bar4 write : Bool) (ps : List Packet) :
    (s.hostRequest tag n bar4 write ps).memories = s.memories := by
  simp [State.hostRequest]

@[simp] theorem State.hostAnswer_memories (s : State) (p : Packet) :
    (s.hostAnswer p).memories = s.memories := by
  simp only [State.hostAnswer]
  split <;> simp

@[simp] theorem State.hostWrite_memories (s : State) (addr : Nat) (data : List Byte) (poison : Bool) :
    (s.hostWrite addr data poison).memories = s.memories := by
  simp [State.hostWrite]

@[simp] theorem State.dmaError_memories (s : State) (code off : Nat) :
    (s.dmaError code off).memories = s.memories := by
  simp [State.dmaError]

@[simp] theorem State.dmaRead_memories (s : State) (r : DmaReq) :
    (s.dmaRead r).memories = s.memories := by
  simp [State.dmaRead]

@[simp] theorem State.setFetch_memories (s : State) (f : Fetch) :
    (s.setFetch f).memories = s.memories := by
  simp [State.setFetch]

@[simp] theorem State.fetchPut_memories (s : State) (f : Fetch) (bytes : List Byte) (status : Nat) :
    (s.fetchPut f bytes status).memories = s.memories := by
  simp only [State.fetchPut]
  rw [State.setFetch_memories, memories_foldl_fst]
  intro p a
  split <;> simp

@[simp] theorem State.fetchSettled_memories (s : State) (f : Fetch) :
    (s.fetchSettled f).memories = s.memories := by
  simp [State.fetchSettled]

@[simp] theorem State.fetchGot_memories (s : State) (ring k part : Nat) (data : List Byte) (poison refused : Bool) :
    (s.fetchGot ring k part data poison refused).memories = s.memories := by
  simp only [State.fetchGot]
  split <;> simp

@[simp] theorem State.fetchRead_memories (s : State) (f : Fetch) (part off n : Nat) :
    (s.fetchRead f part off n).memories = s.memories := by
  simp only [State.fetchRead]
  split <;> simp

@[simp] theorem State.fetchHeader_memories (s : State) (f : Fetch) :
    (s.fetchHeader f).memories = s.memories := by
  simp [State.fetchHeader]

@[simp] theorem State.fetchPayload_memories (s : State) (f : Fetch) (len : Nat) :
    (s.fetchPayload f len).memories = s.memories := by
  simp [State.fetchPayload]

@[simp] theorem State.fetchJudge_memories (s : State) (f : Fetch) :
    (s.fetchJudge f).memories = s.memories := by
  simp [State.fetchJudge]

@[simp] theorem State.intakeGo_memories (s : State) (r k : Nat) :
    (s.intakeGo r k).memories = s.memories := by
  simp only [State.intakeGo, memories_ite, State.raise_memories, State.fetchHeader_memories, memories_mk,
    State.fset_memories, ite_self]

@[simp] theorem State.intakeRelease_memories (s : State) (r j : Nat) :
    (s.intakeRelease r j).memories = s.memories := by
  obtain ⟨f, hf⟩ : ∃ f, f = State.xlat := ⟨_, rfl⟩
  delta State.intakeRelease
  rw [← hf]
  dsimp only
  generalize (if after32 j _ then _ else j) = k
  split
  · rfl
  · rw [State.fset_memories, memories_mk, memories_foldl]
    intro s e
    simp only [memories_ite, State.count_memories, ite_self]
    split <;> simp

@[simp] theorem State.fetchComplete_memories (s : State) (f : Fetch) :
    (s.fetchComplete f).memories = s.memories := by
  simp only [State.fetchComplete]
  split <;> simp

@[simp] theorem State.fetchAck_memories (s : State) (op : Nat) :
    (s.fetchAck op).memories = s.memories := by
  simp [State.fetchAck]

@[simp] theorem State.dmaEnd_memories (s : State) (r : DmaReq) (data : List Byte) (poison refused : Bool) :
    (s.dmaEnd r data poison refused).memories = s.memories := by
  simp only [State.dmaEnd]
  split <;> simp

@[simp] theorem State.msixFlush_memories (s : State) :
    s.msixFlush.memories = s.memories := by
  simp [State.msixFlush]

/-! ## Operations of jobs -/

@[simp] theorem State.jobPut_memories (s : State) (j off : Nat) (data : List Byte) :
    (s.jobPut j off data).memories = s.memories := by
  simp [State.jobPut]

@[simp] theorem State.jobShow_memories (s : State) :
    s.jobShow.memories = s.memories := by
  simp only [State.jobShow]
  split <;> simp

@[simp] theorem State.slotFill_memories (s : State) (t : Nat) (d : List Byte) :
    (s.slotFill t d).memories = s.memories := by
  simp [State.slotFill]

@[simp] theorem State.jobSlotSet_memories (s : State) (t k : Nat) :
    (s.jobSlotSet t k).memories = s.memories := by
  simp [State.jobSlotSet]

@[simp] theorem State.jobUnplace_memories (s : State) :
    s.jobUnplace.memories = s.memories := by
  simp [State.jobUnplace]

@[simp] theorem State.jobPlace_memories (s : State) (j : Nat) (l : List (Nat × Nat)) : (s.jobPlace j l).1.memories = s.memories := by
  induction l generalizing s with
  | nil => rfl
  | cons e rest ih =>
    simp only [State.jobPlace]
    split
    · simp
    · simp [ih]

@[simp] theorem State.jobLoad_memories (s : State) (c : JobCmd) (hostTable : Option (List Byte)) :
    (s.jobLoad c hostTable).1.memories = s.memories := by
  simp only [State.jobLoad, apply_ite Prod.fst, memories_ite]
  refine ite_eq_left_iff.2 fun _ => ite_eq_left_iff.2 fun _ => ite_eq_left_iff.2 fun _ => ite_eq_left_iff.2 fun _ =>
    ite_eq_left_iff.2 fun _ => ?_
  split
  next s1 k why hp =>
    have h1 : s1.memories = s.memories := by rw [show s1 = _ from (congrArg Prod.fst hp).symm]; simp
    simp [h1]
  next s1 hp =>
    have h1 : s1.memories = s.memories := by rw [show s1 = _ from (congrArg Prod.fst hp).symm]; simp
    split
    · simp [h1]
    · split
      · simp [h1]
      · rw [memories_foldl]
        · simp [h1]
        · simp

@[simp] theorem State.jobDiscard_memories (s : State) :
    s.jobDiscard.memories = s.memories := by
  simp [State.jobDiscard]

@[simp] theorem State.setJobCmd_memories (s : State) (c : JobCmd) :
    (s.setJobCmd c).memories = s.memories := by
  simp [State.setJobCmd]

@[simp] theorem State.jobPoll_memories (s : State) :
    s.jobPoll.memories = s.memories := by
  simp [State.jobPoll]

@[simp] theorem State.slotFreed_memories (s : State) (t : Nat) :
    (s.slotFreed t).memories = s.memories := by
  simp [State.slotFreed]

@[simp] theorem State.jobRejected_memories (s : State) (c : JobCmd) :
    (s.jobRejected c).memories = s.memories := by
  simp [State.jobRejected]

@[simp] theorem State.jobFields_memories (s : State) (c : JobCmd) (state : Nat) :
    (s.jobFields c state).memories = s.memories := by
  simp [State.jobFields]

@[simp] theorem State.jobComplete_memories (s : State) (c : JobCmd) :
    (s.jobComplete c).memories = s.memories := by
  simp [State.jobComplete]

@[simp] theorem State.jobReconcile_memories (s : State) :
    (s.jobReconcile).1.memories = s.memories := by
  simp [State.jobReconcile]

/-! ## Job commands -/

@[simp] theorem State.jobOwnerWrite_memories (s : State) (j : Nat) :
    (s.jobOwnerWrite j).memories = s.memories := by
  simp [State.jobOwnerWrite]

@[simp] theorem execJobOwnerWrite_memories (job : JobId) (s : State) :
    LeavesMemories s (execJobOwnerWrite job s) := by
  simp [execJobOwnerWrite]

@[simp] theorem execJobTablePoll_memories (s : State) :
    LeavesMemories s (execJobTablePoll s) := by
  simp [execJobTablePoll]

@[simp] theorem execJobLoad_memories (job : JobId) (hostTable : Option (List Byte)) (s : State) :
    LeavesMemories s (execJobLoad job hostTable s) := by
  simp only [execJobLoad]
  split <;> simp

@[simp] theorem execJobStart_memories (job : JobId) (s : State) :
    LeavesMemories s (execJobStart job s) := by
  simp only [execJobStart]
  split <;> simp

@[simp] theorem execJobStop_memories (job : JobId) (s : State) :
    LeavesMemories s (execJobStop job s) := by
  simp only [execJobStop]
  split <;> simp

@[simp] theorem execJobUnload_memories (job : JobId) (s : State) :
    LeavesMemories s (execJobUnload job s) := by
  simp only [execJobUnload]
  split <;> simp

@[simp] theorem execJobCommandComplete_memories (job : JobId) (s : State) :
    LeavesMemories s (execJobCommandComplete job s) := by
  simp only [execJobCommandComplete]
  split <;> simp

@[simp] theorem execReadySet_memories (s : State) :
    LeavesMemories s (execReadySet s) := by
  delta execReadySet
  dsimp -zeta only
  split
  · exact (leavesMemories_next _ _).2 rfl
  · extract_lets cls waits s1 us s3 s4 s5 s6 s7 s8 s9
    rw [leavesMemories_next, memories_foldl _ _ _ (by simp)]
    simp only [s1, s3, s4, s5, s6, s7, s8, s9, State.msix_memories, State.pinsResume_memories, State.fset_memories, memories_mk,
      State.setStage_memories, State.raise_memories, apply_ite Prod.fst, apply_ite State.memories, State.jobReconcile_memories,
      State.atWt_memories, ite_self]

/-! ## Streaming commands -/

@[simp] theorem execGsEnableWrite_memories (stream : Stream) (value : Bool) (s : State) :
    LeavesMemories s (execGsEnableWrite stream value s) := by
  simp [execGsEnableWrite]

@[simp] theorem execGsStoppingEnd_memories (stream : Stream) (s : State) :
    LeavesMemories s (execGsStoppingEnd stream s) := by
  simp [execGsStoppingEnd]

@[simp] theorem State.gsFetchPiece_memories (s : State) (i p k : Nat) (e : Piece) :
    (s.gsFetchPiece i p k e).memories = s.memories := by
  simp [State.gsFetchPiece]

@[simp] theorem State.gsFetchPieces_memories (s : State) (i p plist k n : Nat) :
    (s.gsFetchPieces i p plist k n).memories = s.memories := by
  induction n generalizing s k with
  | zero => rfl
  | succ n ih =>
    simp only [State.gsFetchPieces]
    split
    · simp
    · simp [ih]

@[simp] theorem execGristPositionFetch_memories (stream : Stream) (s : State) :
    LeavesMemories s (execGristPositionFetch stream s) := by
  simp [execGristPositionFetch]

@[simp] theorem State.bowEach_memories (s : State) (w : GsWrite) (id : Nat) (f : BowBus → BowBus) :
    (s.bowEach w id f).memories = s.memories := by
  simp [State.bowEach]

@[simp] theorem State.gsDrive_memories (s : State) (i : Nat) (w : GsWrite) (id : Nat) :
    (s.gsDrive i w id).memories = s.memories := by
  simp only [State.gsDrive]
  split <;> simp

@[simp] theorem execGristSourceResponse_memories (packet : Packet) (s : State) :
    LeavesMemories s (execGristSourceResponse packet s) := by
  simp only [execGristSourceResponse]
  repeat' split
  all_goals simp

@[simp] theorem execBowWriteInject_memories (east : Bool) (fy : Fin 5) (s : State) :
    LeavesMemories s (execBowWriteInject east fy s) := by
  delta execBowWriteInject
  extract_lets s'
  have hs' : s'.memories = s.memories := memories_foldl _ _ _ (by simp)
  clear_value s'
  split
  · exact (leavesMemories_next _ _).2 rfl
  · split
    · exact (leavesMemories_next _ _).2 rfl
    · extract_lets at0 t s1 id s2 bus s3 x s4
      rw [leavesMemories_next, State.gsDrive_memories, State.count_memories, State.setGrist_memories,
        memories_foldl _ _ _ (by simp), memories_mk, State.atTb_memories, hs']

@[simp] theorem execGneed_memories (core : Core) (payload : BitVec 76) (s : State) :
    LeavesMemories s (execGneed core payload s) := by
  simp [execGneed]

@[simp] theorem execGrel_memories (core : Core) (payload : BitVec 76) (s : State) :
    LeavesMemories s (execGrel core payload s) := by
  simp [execGrel]

@[simp] theorem execSave_memories (core : Core) (payload : BitVec 76) (s : State) :
    LeavesMemories s (execSave core payload s) := by
  simp [execSave]

@[simp] theorem execPfstart_memories (core : Core) (payload : BitVec 76) (s : State) :
    LeavesMemories s (execPfstart core payload s) := by
  simp [execPfstart]

@[simp] theorem execAneed_memories (core : Core) (payload : BitVec 76) (s : State) :
    LeavesMemories s (execAneed core payload s) := by
  simp [execAneed]

@[simp] theorem execArel_memories (core : Core) (payload : BitVec 76) (s : State) :
    LeavesMemories s (execArel core payload s) := by
  simp [execArel]

@[simp] theorem execSaveComplete_memories (core : Core) (s : State) :
    LeavesMemories s (execSaveComplete core s) := by
  simp only [execSaveComplete]
  split <;> simp

@[simp] theorem execPfRecordFetch_memories (core : Core) (s : State) :
    LeavesMemories s (execPfRecordFetch core s) := by
  simp only [execPfRecordFetch]
  repeat' split
  all_goals simp

@[simp] theorem execPfRecordComplete_memories (core : Core) (s : State) :
    LeavesMemories s (execPfRecordComplete core s) := by
  simp only [execPfRecordComplete]
  split <;> simp

@[simp] theorem State.stpEnable_memories (s : State) (c : Nat) (v : Bool) :
    (s.stpEnable c v).memories = s.memories := by
  simp [State.stpEnable]

@[simp] theorem execStpEnableWrite_memories (core : Core) (value : Bool) (s : State) :
    LeavesMemories s (execStpEnableWrite core value s) := by
  simp [execStpEnableWrite]

@[simp] theorem execStpStoppingEnd_memories (core : Core) (s : State) :
    LeavesMemories s (execStpStoppingEnd core s) := by
  simp [execStpStoppingEnd]

@[simp] theorem execStpEnablingEnd_memories (core : Core) (s : State) :
    LeavesMemories s (execStpEnablingEnd core s) := by
  simp only [execStpEnablingEnd]
  split <;> simp

@[simp] theorem State.rkWait_memories (s : State) (port n : Nat) :
    (s.rkWait port n).memories = s.memories := by
  simp only [State.rkWait]
  split <;> simp

@[simp] theorem execRackCopyResponse_memories (packet : Packet) (s : State) :
    LeavesMemories s (execRackCopyResponse packet s) := by
  simp [execRackCopyResponse]

@[simp] theorem State.rkEnable_memories (s : State) (v : Bool) :
    (s.rkEnable v).memories = s.memories := by
  simp [State.rkEnable]

@[simp] theorem execRkEnableWrite_memories (value : Bool) (s : State) :
    LeavesMemories s (execRkEnableWrite value s) := by
  simp [execRkEnableWrite]

@[simp] theorem execRkNowWrite_memories (value : Bool) (s : State) :
    LeavesMemories s (execRkNowWrite value s) := by
  simp [execRkNowWrite]

/-! ## Register reads -/

@[simp] theorem State.readWord_memories (s : State) (a : Nat) :
    (s.readWord a).1.memories = s.memories := by
  simp only [State.readWord]
  repeat' split
  all_goals simp

@[simp] theorem execCounterLowRead_memories (tag : Fin 16384) (lane : BitVec 24) (s : State) :
    LeavesMemories s (execCounterLowRead tag lane s) := by
  simp only [execCounterLowRead]
  split <;> simp

/-! ## Operations of security -/

@[simp] theorem State.setRwn_memories (s : State) (l : List (Nat × Nat)) :
    (s.setRwn l).memories = s.memories := by
  simp [State.setRwn]

@[simp] theorem State.rwnWrite_memories (s : State) (id v : Nat) :
    (s.rwnWrite id v).memories = s.memories := by
  simp [State.rwnWrite]

@[simp] theorem State.rwnCommit_memories (s : State) :
    s.rwnCommit.memories = s.memories := by
  simp only [State.rwnCommit]
  split <;> simp

@[simp] theorem State.answer_memories (s : State) (bytes : List Byte) :
    (s.answer bytes).memories = s.memories := by
  simp [State.answer]

@[simp] theorem State.newNonce_memories (s : State) :
    s.newNonce.memories = s.memories := by
  simp [State.newNonce]

@[simp] theorem State.tokenDeny_memories (s : State) (reason : Nat) :
    (s.tokenDeny reason).memories = s.memories := by
  simp [State.tokenDeny]

@[simp] theorem State.debugUnlock_memories (s : State) (t : Token) :
    (s.debugUnlock t).memories = s.memories := by
  simp only [State.debugUnlock]
  repeat' split
  all_goals simp

@[simp] theorem State.keyRevoke_memories (s : State) (t : Token) :
    (s.keyRevoke t).memories = s.memories := by
  simp only [State.keyRevoke]
  repeat' split
  all_goals simp

@[simp] theorem State.firmwareUpdate_memories (s : State) (dev : Nat) (image : List Byte) (writeError : Bool) :
    (s.firmwareUpdate dev image writeError).memories = s.memories := by
  simp only [State.firmwareUpdate]
  repeat' split
  all_goals simp

/-! ## Stack commands -/

@[simp] theorem execHbmReadComplete_memories (chan : Chan) (s : State) :
    LeavesMemories s (execHbmReadComplete chan s) := by
  simp only [execHbmReadComplete]
  split <;> simp

@[simp] theorem State.hbmFlush_memories (s : State) (st : Nat) :
    (s.hbmFlush st).memories = s.memories := by
  simp [State.hbmFlush]

@[simp] theorem execHbmFlushWrite_memories (stack : Stack) (s : State) :
    LeavesMemories s (execHbmFlushWrite stack s) := by
  simp [execHbmFlushWrite]

@[simp] theorem execHbmMapoutWrite_memories (stack : Stack) (s : State) :
    LeavesMemories s (execHbmMapoutWrite stack s) := by
  simp [execHbmMapoutWrite]

@[simp] theorem State.hbmEnable_memories (s : State) (st : Nat) (v : Bool) :
    (s.hbmEnable st v).memories = s.memories := by
  simp [State.hbmEnable]

@[simp] theorem execHbmEnableWrite_memories (stack : Stack) (value : Bool) (s : State) :
    LeavesMemories s (execHbmEnableWrite stack value s) := by
  simp [execHbmEnableWrite]

@[simp] theorem execHbmEnablingEnd_memories (stack : Stack) (s : State) :
    LeavesMemories s (execHbmEnablingEnd stack s) := by
  simp [execHbmEnablingEnd]

/-! ## Register writes -/

@[simp] theorem State.setPreset_memories (s : State) (b : Block) (i p : Nat) :
    (s.setPreset b i p).memories = s.memories := by
  simp [State.setPreset]

@[simp] theorem State.regStore_memories (s : State) (r : RegRef) (v : Nat) :
    (s.regStore r v).memories = s.memories := by
  simp [State.regStore]

@[simp] theorem State.brimPreset_memories (s : State) (rtb hops transit : Nat) :
    (s.brimPreset rtb hops transit).memories = s.memories := by
  simp [State.brimPreset]

@[simp] theorem State.hbmPreset_memories (s : State) (group glog scrub : Nat) :
    (s.hbmPreset group glog scrub).memories = s.memories := by
  simp [State.hbmPreset]

@[simp] theorem State.tractPreset_memories (s : State) (extra tag bar : Nat) :
    (s.tractPreset extra tag bar).memories = s.memories := by
  simp [State.tractPreset]

@[simp] theorem State.capHeld_memories (s : State) :
    s.capHeld.memories = s.memories := by
  simp [State.capHeld]

@[simp] theorem State.hlthHeld_memories (s : State) :
    s.hlthHeld.memories = s.memories := by
  simp [State.hlthHeld]

@[simp] theorem State.hlthPreset_memories (s : State) (thr strikes factor : Nat) :
    (s.hlthPreset thr strikes factor).memories = s.memories := by
  simp [State.hlthPreset]

@[simp] theorem State.pwrPreset_memories (s : State) (hyst down delta ms : Nat) :
    (s.pwrPreset hyst down delta ms).memories = s.memories := by
  simp [State.pwrPreset]

@[simp] theorem State.redPreset_memories (s : State) (en vlog : Nat) :
    (s.redPreset en vlog).memories = s.memories := by
  simp [State.redPreset]

@[simp] theorem State.spPreset_memories (s : State) (c lo hi : Nat) :
    (s.spPreset c lo hi).memories = s.memories := by
  simp [State.spPreset]

theorem State.presetLoad_memories {s t : State} {b : Block} {i p : Nat} (h : s.presetLoad b i p = some t) :
    t.memories = s.memories := by
  unfold State.presetLoad at h
  split at h <;> cases h <;> simp

@[simp] theorem State.presetWrite_memories (s : State) (b : Block) (i p : Nat) :
    (s.presetWrite b i p).memories = s.memories := by
  simp only [State.presetWrite]
  split
  · rfl
  · split
    · rfl
    next h => simp [State.presetLoad_memories h]

@[simp] theorem State.evtRdWrite_memories (s : State) (v : Nat) :
    (s.evtRdWrite v).memories = s.memories := by
  simp [State.evtRdWrite]

@[simp] theorem State.tractCtrl_memories (s : State) (t v : Nat) :
    (s.tractCtrl t v).memories = s.memories := by
  simp [State.tractCtrl]

@[simp] theorem State.wdogWrite_memories (s : State) (r : RegRef) (v : Nat) :
    (s.wdogWrite r v).memories = s.memories := by
  simp [State.wdogWrite]

@[simp] theorem State.hbmCtrl_memories (s : State) (st v : Nat) :
    (s.hbmCtrl st v).memories = s.memories := by
  simp [State.hbmCtrl]

@[simp] theorem State.gsCtrl_memories (s : State) (r : RegRef) (v : Nat) :
    (s.gsCtrl r v).memories = s.memories := by
  simp [State.gsCtrl]

@[simp] theorem State.rkCtrl_memories (s : State) (v : Nat) :
    (s.rkCtrl v).memories = s.memories := by
  simp [State.rkCtrl]

@[simp] theorem State.winCtrl_memories (s : State) (r : RegRef) (v : Nat) :
    (s.winCtrl r v).memories = s.memories := by
  simp [State.winCtrl]

@[simp] theorem State.flowReg_memories (s : State) (r : RegRef) (v : Nat) :
    (s.flowReg r v).memories = s.memories := by
  simp [State.flowReg]

@[simp] theorem State.monCtrl_memories (s : State) (r : RegRef) (v : Nat) :
    (s.monCtrl r v).memories = s.memories := by
  simp [State.monCtrl]

@[simp] theorem State.stpNow_memories (s : State) (c : Nat) :
    (s.stpNow c).memories = s.memories := by
  simp [State.stpNow]

@[simp] theorem State.ringWrite_memories (s : State) (r : RegRef) (v : Nat) :
    (s.ringWrite r v).memories = s.memories := by
  simp [State.ringWrite]

@[simp] theorem State.planWrite_memories (s : State) (r : RegRef) (v : Nat) :
    (s.planWrite r v).memories = s.memories := by
  simp [State.planWrite]

@[simp] theorem State.capWrite_memories (s : State) (r : RegRef) (v : Nat) :
    (s.capWrite r v).memories = s.memories := by
  simp [State.capWrite]

@[simp] theorem State.pwrCtrl_memories (s : State) (v : Nat) :
    (s.pwrCtrl v).memories = s.memories := by
  simp [State.pwrCtrl]

@[simp] theorem State.fldCtrl_memories (s : State) (f v : Nat) :
    (s.fldCtrl f v).memories = s.memories := by
  simp [State.fldCtrl]

@[simp] theorem State.brimCtrl_memories (s : State) (p v : Nat) :
    (s.brimCtrl p v).memories = s.memories := by
  simp [State.brimCtrl]

@[simp] theorem State.msixWrite_memories (s : State) (w v : Nat) :
    (s.msixWrite w v).memories = s.memories := by
  simp [State.msixWrite]

@[simp] theorem State.jobWrite_memories (s : State) (o v : Nat) :
    (s.jobWrite o v).memories = s.memories := by
  simp [State.jobWrite]

@[simp] theorem State.windowWrite_memories (s : State) (a v : Nat) :
    (s.windowWrite a v).memories = s.memories := by
  simp [State.windowWrite]

@[simp] theorem State.lowWrite_memories (s : State) (r : RegRef) (v : Nat) :
    (s.lowWrite r v).memories = s.memories := by
  simp [State.lowWrite]

/-! ## Register commands -/

@[simp] theorem execSplitLowWordWrite_memories (lane : BitVec 24) (low : BitVec 32) (s : State) :
    LeavesMemories s (execSplitLowWordWrite lane low s) := by
  simp only [execSplitLowWordWrite]
  split <;> simp

@[simp] theorem execModLockWrite_memories (s : State) :
    LeavesMemories s (execModLockWrite s) := by
  simp [execModLockWrite]

@[simp] theorem execProfilePresetWrite_memories (offset : BitVec 27) (preset : Fin 16) (s : State) :
    LeavesMemories s (execProfilePresetWrite offset preset s) := by
  simp only [execProfilePresetWrite]
  split <;> simp

@[simp] theorem execEvtRdWrite_memories (index : BitVec 13) (s : State) :
    LeavesMemories s (execEvtRdWrite index s) := by
  simp [execEvtRdWrite]

@[simp] theorem execRwnWrite_memories (setting : Fin 4) (value : BitVec 32) (s : State) :
    LeavesMemories s (execRwnWrite setting value s) := by
  simp [execRwnWrite]

@[simp] theorem execRwnCommit_memories (s : State) :
    LeavesMemories s (execRwnCommit s) := by
  simp [execRwnCommit]

@[simp] theorem State.csrRead_memories (s : State) (a : Nat) :
    (s.csrRead a).1.memories = s.memories := by
  simp only [State.csrRead]
  repeat' split
  all_goals simp

@[simp] theorem execCsrr_memories (core : Core) (rd : RegNo) (offset : BitVec 11) (s : State) :
    LeavesMemories s (execCsrr core rd offset s) := by
  simp only [execCsrr]
  split
  · simp
  next h => simp [State.epBegin_memories h]

@[simp] theorem State.regReply_memories (s : State) (p a : Packet) :
    (s.regReply p a).memories = s.memories := by
  simp [State.regReply]

@[simp] theorem State.regTake_memories (s : State) (p : Packet) :
    (s.regTake p).1.memories = s.memories := by
  simp only [State.regTake]
  repeat' split
  all_goals simp

@[simp] theorem execRegrdDeliver_memories (packet : Packet) (s : State) :
    LeavesMemories s (execRegrdDeliver packet s) := by
  obtain ⟨f, hf⟩ : ∃ f, f = State.readWord := ⟨_, rfl⟩
  have h : ∀ s n, (f s n).1.memories = s.memories := by rw [hf]; exact State.readWord_memories
  rw [execRegrdDeliver, ← hf]
  dsimp only
  split
  · simp
  · split
    · simp
    · split <;> simp [h]

/-! ## Host commands -/

@[simp] theorem execBar2Read_memories (tag : Fin 16384) (offset : BitVec 41) (n : Fin 4097) (s : State) :
    LeavesMemories s (execBar2Read tag offset n s) := by
  simp [execBar2Read]

@[simp] theorem execBar2Write_memories (offset : BitVec 41) (data : List Byte) (be : List Bool) (poison : Bool) (s : State) :
    LeavesMemories s (execBar2Write offset data be poison s) := by
  simp [execBar2Write]

@[simp] theorem execBar4Read_memories (tag : Fin 16384) (offset : BitVec 34) (n : Fin 4097) (s : State) :
    LeavesMemories s (execBar4Read tag offset n s) := by
  simp [execBar4Read]

@[simp] theorem execBar4Write_memories (offset : BitVec 34) (data : List Byte) (be : List Bool) (s : State) :
    LeavesMemories s (execBar4Write offset data be s) := by
  simp [execBar4Write]

@[simp] theorem execHostDmaWrite_memories (packet : Packet) (s : State) :
    LeavesMemories s (execHostDmaWrite packet s) := by
  obtain ⟨e, he⟩ : ∃ e, e = execHostDmaWrite := ⟨_, rfl⟩
  obtain ⟨f, hf⟩ : ∃ f, f = State.xlat := ⟨_, rfl⟩
  rw [← he]
  delta execHostDmaWrite at he
  rw [← hf] at he
  subst he
  dsimp only
  split
  · simp
  · split <;> simp

@[simp] theorem execHostDmaRead_memories (packet : Packet) (s : State) :
    LeavesMemories s (execHostDmaRead packet s) := by
  obtain ⟨e, he⟩ : ∃ e, e = execHostDmaRead := ⟨_, rfl⟩
  obtain ⟨f, hf⟩ : ∃ f, f = State.xlat := ⟨_, rfl⟩
  rw [← he]
  delta execHostDmaRead at he
  rw [← hf] at he
  subst he
  dsimp only
  split <;> simp

@[simp] theorem execHostCompletion_memories (id : Nat) (status : Fin 3) (data : List Byte) (poison : Bool) (s : State) :
    LeavesMemories s (execHostCompletion id status data poison s) := by
  simp only [execHostCompletion]
  split <;> simp

@[simp] theorem execHostCompletionTimeout_memories (s : State) :
    LeavesMemories s (execHostCompletionTimeout s) := by
  simp only [execHostCompletionTimeout]
  split <;> simp

@[simp] theorem execIntakeGo_memories (ring : Ring) (k : BitVec 32) (s : State) :
    LeavesMemories s (execIntakeGo ring k s) := by
  simp [execIntakeGo]

@[simp] theorem execIntakeHeaderArrive_memories (ring : Ring) (s : State) :
    LeavesMemories s (execIntakeHeaderArrive ring s) := by
  simp only [execIntakeHeaderArrive]
  split <;> simp

@[simp] theorem execIntakeHeaderRetry_memories (ring : Ring) (s : State) :
    LeavesMemories s (execIntakeHeaderRetry ring s) := by
  simp only [execIntakeHeaderRetry]
  split <;> simp

@[simp] theorem execIntakeWaitExpire_memories (ring : Ring) (s : State) :
    LeavesMemories s (execIntakeWaitExpire ring s) := by
  simp only [execIntakeWaitExpire]
  split <;> simp

@[simp] theorem execIntakeFetchComplete_memories (ring : Ring) (s : State) :
    LeavesMemories s (execIntakeFetchComplete ring s) := by
  simp only [execIntakeFetchComplete]
  split <;> simp

@[simp] theorem execIntakeRelease_memories (ring : Ring) (k : BitVec 32) (s : State) :
    LeavesMemories s (execIntakeRelease ring k s) := by
  simp [execIntakeRelease]

@[simp] theorem execConfigurationWrite_memories (write : CfgWrite) (s : State) :
    LeavesMemories s (execConfigurationWrite write s) := by
  simp only [execConfigurationWrite]
  repeat' split
  all_goals simp

/-! ## Management commands -/

@[simp] theorem execI3cAddressAssign_memories (address : BitVec 7) (s : State) :
    LeavesMemories s (execI3cAddressAssign address s) := by
  simp [execI3cAddressAssign]

@[simp] theorem execMctpSetEndpointId_memories (pcie : Bool) (eid : BitVec 8) (s : State) :
    LeavesMemories s (execMctpSetEndpointId pcie eid s) := by
  simp [execMctpSetEndpointId]

@[simp] theorem execPldmBaseCommand_memories (_command : BitVec 8) (s : State) :
    LeavesMemories s (execPldmBaseCommand _command s) := by
  simp [execPldmBaseCommand]

@[simp] theorem execPldmGetSensorReading_memories (sensor : BitVec 16) (s : State) :
    LeavesMemories s (execPldmGetSensorReading sensor s) := by
  simp only [execPldmGetSensorReading]
  split <;> simp

@[simp] theorem execPldmFirmwareUpdate_memories (device : Fin 2) (image : List Byte) (writeError : Bool) (s : State) :
    LeavesMemories s (execPldmFirmwareUpdate device image writeError s) := by
  simp [execPldmFirmwareUpdate]

@[simp] theorem execPldmActivateFirmware_memories (device : Fin 2) (s : State) :
    LeavesMemories s (execPldmActivateFirmware device s) := by
  simp [execPldmActivateFirmware]

@[simp] theorem execSpdmNegotiate_memories (version : BitVec 8) (falcon sha3 : Bool) (s : State) :
    LeavesMemories s (execSpdmNegotiate version falcon sha3 s) := by
  simp [execSpdmNegotiate]

@[simp] theorem execSpdmGetCertificate_memories (slot : Fin 8) (s : State) :
    LeavesMemories s (execSpdmGetCertificate slot s) := by
  simp [execSpdmGetCertificate]

@[simp] theorem execSpdmChallenge_memories (slot : Fin 8) (nonce : List Byte) (s : State) :
    LeavesMemories s (execSpdmChallenge slot nonce s) := by
  simp [execSpdmChallenge]

@[simp] theorem execSpdmGetMeasurements_memories (index : BitVec 8) (nonce : List Byte) (s : State) :
    LeavesMemories s (execSpdmGetMeasurements index nonce s) := by
  simp [execSpdmGetMeasurements]

@[simp] theorem execMctpWdogKick_memories (s : State) :
    LeavesMemories s (execMctpWdogKick s) := by
  simp [execMctpWdogKick]

@[simp] theorem execMctpRegRead_memories (offset : BitVec 27) (s : State) :
    LeavesMemories s (execMctpRegRead offset s) := by
  simp [execMctpRegRead]

@[simp] theorem execDebugUnlock_memories (token : Token) (s : State) :
    LeavesMemories s (execDebugUnlock token s) := by
  simp [execDebugUnlock]

@[simp] theorem execKeyRevoke_memories (token : Token) (s : State) :
    LeavesMemories s (execKeyRevoke token s) := by
  simp [execKeyRevoke]

@[simp] theorem execJtagInstruction_memories (instr : Fin 8) (s : State) :
    LeavesMemories s (execJtagInstruction instr s) := by
  simp [execJtagInstruction]

@[simp] theorem State.logSecond_memories (s : State) :
    s.logSecond.memories = s.memories := by
  simp [State.logSecond]

@[simp] theorem execLogSecondUpdate_memories (s : State) :
    LeavesMemories s (execLogSecondUpdate s) := by
  simp [execLogSecondUpdate]

@[simp] theorem execLogPeriodicCommit_memories (s : State) :
    LeavesMemories s (execLogPeriodicCommit s) := by
  simp [execLogPeriodicCommit]

/-! ## Received packets -/

@[simp] theorem State.readLatch_memories (s : State) (c : Nat) (p : Packet) :
    (s.readLatch c p).memories = s.memories := by
  simp [State.readLatch]

@[simp] theorem State.coreRdr_memories (s : State) (c : Nat) (p : Packet) :
    (s.coreRdr c p).memories = s.memories := by
  simp only [State.coreRdr]
  repeat' split
  all_goals simp

@[simp] theorem execRdrReceive_memories (packet : Packet) (s : State) :
    LeavesMemories s (execRdrReceive packet s) := by
  simp only [execRdrReceive]
  repeat' split
  all_goals simp

@[simp] theorem State.coreWack_memories (s : State) (c : Nat) (p : Packet) :
    (s.coreWack c p).memories = s.memories := by
  simp [State.coreWack]

@[simp] theorem execWackReceive_memories (packet : Packet) (s : State) :
    LeavesMemories s (execWackReceive packet s) := by
  simp only [execWackReceive]
  repeat' split
  all_goals simp

@[simp] theorem State.coreRegr_memories (s : State) (c : Nat) (p : Packet) :
    (s.coreRegr c p).memories = s.memories := by
  simp only [State.coreRegr]
  split <;> simp

@[simp] theorem execRegrReceive_memories (packet : Packet) (s : State) :
    LeavesMemories s (execRegrReceive packet s) := by
  simp only [execRegrReceive]
  repeat' split
  all_goals simp

/-! ## Operations of the step boundary -/

@[simp] theorem State.slotLeave_memories (s : State) (t : Nat) :
    (s.slotLeave t).memories = s.memories := by
  simp [State.slotLeave]

@[simp] theorem State.winOpen_memories (s : State) (b w : Nat) :
    (s.winOpen b w).memories = s.memories := by
  simp [State.winOpen]

@[simp] theorem State.stepEnd_memories (s : State) :
    s.stepEnd.memories = s.memories := by
  simp only [State.stepEnd]
  rw [memories_foldl]
  · simp
  · intro s t
    split
    · simp
    · split
      · split <;> simp
      · rfl

@[simp] theorem State.stepBegin_memories (s : State) :
    s.stepBegin.memories = s.memories := by
  simp [State.stepBegin]

/-! ## Recovery -/

@[simp] theorem State.coresMove_memories (before after : State) (seg : Nat) :
    (before.coresMove after seg).memories = after.memories := by
  simp only [State.coresMove, memories_mk]

@[simp] theorem State.slotRestore_memories (s : State) (t : Nat) :
    (s.slotRestore t).memories = s.memories := by
  simp only [State.slotRestore]
  split <;> simp

@[simp] theorem State.changeDone_memories (s : State) :
    s.changeDone.memories = s.memories := by
  simp [State.changeDone]

@[simp] theorem State.spareLost_memories (s : State) (pos code : Nat) :
    (s.spareLost pos code).memories = s.memories := by
  simp [State.spareLost]

@[simp] theorem State.spareTry_memories (s : State) (seg p : Nat) (l : List (Bool × Fin 7)) :
    (s.spareTry seg p l).1.memories = s.memories := by
  induction l generalizing s with
  | nil => rfl
  | cons e rest ih =>
    simp only [State.spareTry]
    split
    · rfl
    · split
      · simp [ih]
      · split <;> simp [ih]

@[simp] theorem State.originRecord_memories (s : State) (k row col : Nat) :
    (s.originRecord k row col).memories = s.memories := by
  simp only [State.originRecord]
  split <;> simp

@[simp] theorem State.slotReplace_memories (s : State) (t : Nat) :
    (s.slotReplace t).memories = s.memories := by
  obtain ⟨f, hf⟩ : ∃ f, f = State.originFor := ⟨_, rfl⟩
  obtain ⟨g, hg⟩ : ∃ g, g = State.tractBad := ⟨_, rfl⟩
  delta State.slotReplace
  rw [← hf, ← hg]
  dsimp only
  split
  · simp
  · split
    · simp
    · split <;> simp

@[simp] theorem State.awayReplace_memories (s : State) (k : Nat) :
    (s.awayReplace k).memories = s.memories := by
  obtain ⟨f, hf⟩ : ∃ f, f = State.originFor := ⟨_, rfl⟩
  delta State.awayReplace
  rw [← hf]
  dsimp only
  split <;> simp

@[simp] theorem execRePlacement_memories (s : State) :
    LeavesMemories s (execRePlacement s) := by
  simp only [execRePlacement]
  split <;> simp

/-! ## Step-boundary commands -/

@[simp] theorem State.reservedRelease_memories (s : State) (c q payload : Nat) :
    (s.reservedRelease c q payload).memories = s.memories := by
  simp only [State.reservedRelease]
  split <;> simp

@[simp] theorem execReservedOpcodeRelease_memories (core : Core) (queue : Fin 3) (payload : BitVec 80) (s : State) :
    LeavesMemories s (execReservedOpcodeRelease core queue payload s) := by
  simp [execReservedOpcodeRelease]

@[simp] theorem execDeferredBundleRelease_memories (core : Core) (s : State) :
    LeavesMemories s (execDeferredBundleRelease core s) := by
  simp only [execDeferredBundleRelease]
  repeat' split
  all_goals simp

/-! ## Vector commands -/

@[simp] theorem execVxNop_memories (core : Core) (payload : BitVec 76) (s : State) :
    LeavesMemories s (execVxNop core payload s) := by
  simp only [execVxNop]
  split <;> simp

@[simp] theorem execVsetl_memories (core : Core) (payload : BitVec 76) (s : State) :
    LeavesMemories s (execVsetl core payload s) := by
  simp only [execVsetl]
  split <;> simp

@[simp] theorem execChain_memories (core : Core) (payload : BitVec 76) (s : State) :
    LeavesMemories s (execChain core payload s) := by
  simp only [execChain]
  repeat' split
  all_goals simp

@[simp] theorem execVxBeatEntry_memories (core : Core) (s : State) :
    LeavesMemories s (execVxBeatEntry core s) := by
  delta execVxBeatEntry
  extract_lets x
  split
  · exact (leavesMemories_next _ _).2 rfl
  · split
    · exact (leavesMemories_next _ _).2 rfl
    · extract_lets b nat stalled a bb cfmt cc idxOk
      have hst : LeavesMemories s (.next stalled) := by
        rw [leavesMemories_next]
        simp only [stalled, State.setVx_memories, State.count_memories, State.atTb_memories]
      clear_value stalled a bb cc idxOk
      split
      · extract_lets t s1 s2 q' wend
        split
        · exact hst
        · simp only [leavesMemories_next, s2, s1, State.setVx_memories, apply_ite State.memories, State.count_memories,
            State.atTb_memories, ite_self]
      · exact hst

@[simp] theorem execVxBeatWritten_memories (core : Core) (s : State) :
    LeavesMemories s (execVxBeatWritten core s) := by
  unfold execVxBeatWritten
  split
  · exact (leavesMemories_next _ _).2 rfl
  · extract_lets s1 b len i0 i1 env res last s2 els dmask keep fmt cs x3 s3 w code x4 s4 sat satOn x5 s5 w1 data kb x6 s6
    have h2 : s2.memories = s.memories := (memories_foldl _ _ _ fun s e => by simp).trans (by simp [s1])
    have h4 : s4.memories = s.memories := by
      simp only [s4]
      split
      · split <;> simp [s3, h2]
      · simp [s3, h2]
    have h5 : s5.memories = s.memories := by
      simp only [s5, satOn]
      split <;> simp [h4]
    clear_value s4 s5
    split
    · split
      · simpa using h4
      · rw [leavesMemories_next, memories_foldl _ _ _ fun s i => by simp]
        simpa using h4
    · rw [leavesMemories_next, memories_foldl _ _ _ fun s i => by simp]
      simpa [s6] using h5
    · simpa using h5
    · simpa using h4

@[simp] theorem execVxChainComplete_memories (core : Core) (s : State) :
    LeavesMemories s (execVxChainComplete core s) := by
  simp only [execVxChainComplete]
  split <;> simp

@[simp] theorem execChload_memories (core : Core) (payload : BitVec 76) (s : State) :
    LeavesMemories s (execChload core payload s) := by
  simp only [execChload]
  split <;> simp

@[simp] theorem execVxChloadComplete_memories (core : Core) (s : State) :
    LeavesMemories s (execVxChloadComplete core s) := by
  simp only [execVxChloadComplete]
  split
  · simp
  · split
    · simp
    · rw [leavesMemories_next, memories_foldl]
      · simp
      · intro s q
        split
        · rfl
        · split <;> simp

@[simp] theorem execPosBase_memories (core : Core) (selHigh : Bool) (payload : BitVec 74) (s : State) :
    LeavesMemories s (execPosBase core selHigh payload s) := by
  simp only [execPosBase]
  split <;> simp

@[simp] theorem execPosWindow_memories (core : Core) (selHigh : Bool) (payload : BitVec 74) (s : State) :
    LeavesMemories s (execPosWindow core selHigh payload s) := by
  simp only [execPosWindow]
  split <;> simp

@[simp] theorem execDocld_memories (core : Core) (payload : BitVec 76) (s : State) :
    LeavesMemories s (execDocld core payload s) := by
  simp only [execDocld]
  split <;> simp

@[simp] theorem execVdrain_memories (core : Core) (payload : BitVec 76) (s : State) :
    LeavesMemories s (execVdrain core payload s) := by
  simp only [execVdrain]
  split <;> simp

@[simp] theorem execVxVdrainComplete_memories (core : Core) (s : State) :
    LeavesMemories s (execVxVdrainComplete core s) := by
  simp only [execVxVdrainComplete]
  repeat' split
  all_goals simp

@[simp] theorem execVxEnableWrite_memories (core : Core) (value : Bool) (s : State) :
    LeavesMemories s (execVxEnableWrite core value s) := by
  simp [execVxEnableWrite]

@[simp] theorem execVxStoppingEnd_memories (core : Core) (s : State) :
    LeavesMemories s (execVxStoppingEnd core s) := by
  simp only [execVxStoppingEnd]
  repeat' split
  all_goals simp

@[simp] theorem execVxEnablingEnd_memories (core : Core) (s : State) :
    LeavesMemories s (execVxEnablingEnd core s) := by
  simp only [execVxEnablingEnd]
  split <;> simp

/-! ## Step -/

@[simp] theorem State.idle_memories (s : State) :
    s.idle.memories = s.memories := by
  simp [State.idle]

@[simp] theorem State.withFetchWord_memories (s : State) (nbits w : Nat) :
    (s.withFetchWord nbits w).memories = s.memories := by
  simp only [State.withFetchWord]
  split <;> simp

end Sys2Proof.Machine
end

section
/-! # Canonical memories (R203)

The operations that do write the memories keep them in canonical form; with the operations that leave them alone this gives each
command, and so each step. -/

namespace Sys2Proof.Machine
open Sys2Proof

/-- The memories of scratchpads and stacks are in canonical form (R203). -/
def Memories.Ok (m : Memories) : Prop := Memory.wf m.sp = true ∧ Memory.wf m.hbm = true

theorem memOk_iff (s : State) : MemOk s ↔ s.memories.Ok := Iff.rfl

@[simp] theorem ok_ite (p : Prop) [Decidable p] (m n : Memories) :
    (if p then m else n).Ok ↔ if p then m.Ok else n.Ok := by split <;> rfl

/-- A step over a list keeps the canonical form when each of its steps does. -/
theorem ok_foldl {α : Type} (f : State → α → State) (l : List α) (s : State) (h : s.memories.Ok)
    (hf : ∀ s a, s.memories.Ok → (f s a).memories.Ok) : (l.foldl f s).memories.Ok :=
  foldl_keeps (fun s => s.memories.Ok) f hf l s h

theorem ok_foldl_fst {α β : Type} (f : State × β → α → State × β) (l : List α) (p : State × β) (h : p.1.memories.Ok)
    (hf : ∀ p a, p.1.memories.Ok → (f p a).1.memories.Ok) : (l.foldl f p).1.memories.Ok :=
  foldl_keeps (fun p => p.1.memories.Ok) f hf l p h

/-- What a command answers, if it is a state, has memories in canonical form. -/
def AnswersOk (o : Out) : Prop := ∀ t, o = .next t → t.memories.Ok

@[simp] theorem answersOk_next (t : State) : AnswersOk (.next t) ↔ t.memories.Ok :=
  ⟨fun h => h t rfl, fun h _ e => by cases e; exact h⟩

@[simp] theorem answersOk_ite (p : Prop) [Decidable p] (o u : Out) :
    AnswersOk (if p then o else u) ↔ if p then AnswersOk o else AnswersOk u := by split <;> rfl

theorem LeavesMemories.answersOk {s : State} {o : Out} (ho : LeavesMemories s o) (h : s.memories.Ok) : AnswersOk o :=
  fun t e => (ho t e).symm ▸ h

/-- Bytes put into the scratchpads, whatever the codes and tags become. -/
theorem ok_mputs_sp (s : State) (k : Nat) (bytes : List Byte) (code tag : SMap Nat) (h : s.memories.Ok) :
    ({ s with sp := mputs 0 s.sp k bytes, spCode := code, spTag := tag } : State).memories.Ok :=
  ⟨mputs_wf _ _ _ _ h.1, h.2⟩

/-- The scratchpads emptied, whatever the codes and tags become. -/
theorem ok_clear_sp (s : State) (code tag : SMap Nat) (h : s.memories.Ok) :
    ({ s with sp := [], spCode := code, spTag := tag } : State).memories.Ok := ⟨rfl, h.2⟩

/-! ## Operations of the scratchpads -/

@[simp] theorem State.spWrite_ok (s : State) (c line port : Nat) (w : SpWr) (h : s.memories.Ok) :
    (s.spWrite c line port w).memories.Ok := s.spWrite_memOk c line port w h

@[simp] theorem State.setTagF_ok (s : State) (c line : Nat) (f : Bool) (h : s.memories.Ok) :
    (s.setTagF c line f).memories.Ok := h

@[simp] theorem State.setTagC_ok (s : State) (c line : Nat) (f : Bool) (h : s.memories.Ok) :
    (s.setTagC c line f).memories.Ok := h

theorem State.tagAccess_ok (s : State) (c line port : Nat) (wr : Option Nat) (t : State) (h : s.memories.Ok)
    (e : s.tagAccess c line port wr = some t) :
    t.memories.Ok := by
  simp only [State.tagAccess] at e
  repeat' split at e
  all_goals cases e
  all_goals simp [h]

theorem State.serve_ok (s : State) (c port b : Nat) (r : SpServed) (h : s.memories.Ok) (e : s.serve c port b = some r) :
    r.s.memories.Ok := by
  unfold State.serve at e
  extract_lets x at e
  split at e
  · cases e
  next q hq =>
    split at e
    · cases e
    · split at e
      · cases e
      next n hn =>
        extract_lets s1 at e
        split at e
        · cases e
        next s2 hs2 =>
          have h2 : s2.memories.Ok := State.tagAccess_ok _ _ _ _ _ _ (by simpa [s1] using h) hs2
          extract_lets x2 l x3 s3 at e
          have h3 : s3.memories.Ok := by simpa [s3] using h2
          have h4 : (s3.spRead c q.line port).1.memories.Ok := by simpa using h3
          clear_value s3
          split at e
          · rw [← Option.some.inj e]
            exact State.spWrite_ok _ _ _ _ _ h3
          · rw [← Option.some.inj e]
            exact h4

@[simp] theorem State.rowWrite_ok (s : State) (c row : Nat) (data : List Byte) (h : s.memories.Ok) :
    (s.rowWrite c row data).memories.Ok := s.rowWrite_memOk c row data h

/-! ## Operations of the tracts -/

@[simp] theorem State.serveAll_ok (s : State) (c port : Nat) (p : SpUse → Bool) (n : Nat) (h : s.memories.Ok) :
    (s.serveAll c port p n).memories.Ok := by
  induction n generalizing s with
  | zero => exact h
  | succ n ih =>
    unfold State.serveAll
    split
    · exact h
    · split
      · exact h
      next v hv => exact ih _ (State.serve_ok _ _ _ _ _ h hv)

/-! ## Matrix commands -/

@[simp] theorem execMxOutputRowServed_ok (core : Core) (s : State) (h : s.memories.Ok) :
    AnswersOk (execMxOutputRowServed core s) := by
  simp only [execMxOutputRowServed]
  repeat' split
  all_goals simp [h]

/-! ## Operations of the memory stacks -/

@[simp] theorem State.hbmStore_ok (s : State) (ch a : Nat) (data : List Byte) (poison : Bool) (h : s.memories.Ok) :
    (s.hbmStore ch a data poison).memories.Ok := s.hbmStore_memOk ch a data poison h

@[simp] theorem State.hbmUpset_ok (s : State) (ch : Nat) (accs : List Nat) (ups : List Upset) (h : s.memories.Ok) :
    (s.hbmUpset ch accs ups).memories.Ok := ok_foldl _ _ _ h fun s u h => by
  split
  · exact h
  · split <;> exact h

theorem State.coalAlloc_ok (s : State) (ch a : Nat) (t : State) (h : s.memories.Ok) (e : s.coalAlloc ch a = some t) :
    t.memories.Ok := by
  unfold State.coalAlloc at e
  extract_lets x set_ s? at e
  split at e
  · cases e; exact h
  · obtain ⟨s1, h1, rfl⟩ := Option.map_eq_some_iff.1 e
    have h1 : s1.memories.Ok := by
      simp only [s?] at h1
      repeat' split at h1
      all_goals cases h1
      all_goals simp [h]
    simpa using h1

@[simp] theorem State.coalFlush_ok (s : State) (ch : Nat) (p : Nat → Bool) (h : s.memories.Ok) :
    (s.coalFlush ch p).memories.Ok := by
  simp only [State.coalFlush, State.setChan_memories]
  exact ok_foldl _ _ _ h fun s e h => by simp [h]

@[simp] theorem State.accPut_ok (s : State) (ch a : Nat) (data : List Byte) (poison : Bool) (h : s.memories.Ok) :
    (s.accPut ch a data poison).memories.Ok := s.accPut_memOk ch a data poison h

@[simp] theorem State.memPut_ok (s : State) (a : Nat) (data : List Byte) (poison : Bool) (h : s.memories.Ok) :
    (s.memPut a data poison).memories.Ok := s.memPut_memOk a data poison h

@[simp] theorem State.hbmApplyWrite_ok (s : State) (ch : Nat) (r : HReq) (h : s.memories.Ok) :
    (s.hbmApplyWrite ch r).memories.Ok := ok_foldl _ _ _ h fun s a h => by
  dsimp only
  split
  · simpa using h
  · split <;> simp [h]

theorem State.hbmApplyAcc_ok (s : State) (ch : Nat) (r : HReq) (t : State) (h : s.memories.Ok) (e : s.hbmApplyAcc ch r = some t) :
    t.memories.Ok := by
  unfold State.hbmApplyAcc at e
  refine foldl_keeps (fun o : Option State => ∀ t, o = some t → t.memories.Ok) _ ?_ _ _ ?_ t e
  · intro o a ho t e
    obtain ⟨s1, rfl, e⟩ := Option.bind_eq_some_iff.1 e
    obtain ⟨s2, h2, rfl⟩ := Option.map_eq_some_iff.1 e
    have h2 : s2.memories.Ok := State.coalAlloc_ok _ _ _ _ (ho _ rfl) h2
    dsimp only
    split
    · exact h2
    · simpa using h2
  · rintro t ⟨⟩; exact h

theorem State.hbmApply_ok (s : State) (ch : Nat) (r : HReq) (t : State) (h : s.memories.Ok) (e : s.hbmApply ch r = some t) :
    t.memories.Ok := by
  unfold State.hbmApply at e
  extract_lets s? at e
  obtain ⟨s1, h1, rfl⟩ := Option.map_eq_some_iff.1 e
  have h1 : s1.memories.Ok := by
    simp only [s?] at h1
    split at h1
    · cases h1; simp [h]
    · exact State.hbmApplyAcc_ok _ _ _ _ h h1
  simpa using h1

@[simp] theorem State.hbmSettle_ok (s : State) (ch : Nat) (h : s.memories.Ok) :
    (s.hbmSettle ch).memories.Ok := ok_foldl _ _ _ h fun s r h => by
  split
  · exact h
  · cases e : s.hbmApply ch r with
    | none => exact h
    | some t => exact State.hbmApply_ok _ _ _ _ h e

@[simp] theorem State.readClear_ok (s : State) (ch a : Nat) (ups : List Upset) (h : s.memories.Ok) :
    (s.readClear ch a ups).1.memories.Ok := by
  unfold State.readClear
  extract_lets s1
  have h1 : s1.memories.Ok := by simp [s1, h]
  clear_value s1
  split
  · exact h1
  next t ht =>
    have ht := State.coalAlloc_ok _ _ _ _ h1 ht
    simpa [apply_ite Prod.fst] using ht

/-! ## Operations of the streams -/

@[simp] theorem State.rackMark_ok (s : State) (a n : Nat) (h : s.memories.Ok) :
    (s.rackMark a n).memories.Ok := by
  unfold State.rackMark
  split
  · exact h
  · exact ok_foldl _ _ _ h fun s e h => by simp [h]

/-! ## Operations of reduction -/

@[simp] theorem State.zeroFill_ok (s : State) (r : Nat × Nat) (h : s.memories.Ok) :
    (s.zeroFill r).memories.Ok := by
  unfold State.zeroFill
  extract_lets ch caddr
  split
  · exact h
  · exact ok_foldl _ _ _ h fun s e h => by simp [h]

@[simp] theorem State.hbmSettleAll_ok (s : State) (h : s.memories.Ok) :
    s.hbmSettleAll.memories.Ok := ok_foldl _ _ _ h fun s e h => by simp [h]

@[simp] theorem State.countAdd_ok (s : State) (u : CntUpd) (h : s.memories.Ok) :
    (s.countAdd u).memories.Ok := by simp [State.countAdd, h]

@[simp] theorem State.countSettle_ok (s : State) (w : Nat) (h : s.memories.Ok) :
    (s.countSettle w).memories.Ok := by
  unfold State.countSettle
  exact ok_foldl _ _ _ (by simpa using h) fun s u h => by simp [h]

@[simp] theorem State.winTake_ok (s : State) (w a : Nat) (ups : List Upset) (h : s.memories.Ok) :
    (s.winTake w a ups).memories.Ok := by
  unfold State.winTake
  extract_lets ca ac x
  split
  · exact h
  · have h1 := State.readClear_ok _ ca.chan ac ups (State.hbmSettle_ok s ca.chan h)
    generalize (s.hbmSettle ca.chan).readClear ca.chan ac ups = o at h1
    obtain ⟨s1, d, p⟩ := o
    dsimp only at h1 ⊢
    split <;> simp [h1]

@[simp] theorem State.closeChunk_ok (s : State) (w c : Nat) (r : CloseRec) (h : s.memories.Ok) :
    (s.closeChunk w c r).1.memories.Ok := by
  unfold State.closeChunk
  extract_lets a nb cw slot addrs s1 fp asVal k ofmt mean b toF
  have h1 : s1.memories.Ok := ok_foldl _ _ _ h fun s e h => by simp [h]
  clear_value s1 slot
  obtain ⟨d, dp⟩ := s1.winTakenRun w a nb
  obtain ⟨cb, cp⟩ := s1.winTaken w cw 4
  dsimp -zeta only
  extract_lets cnt sums outs s2 exp isEmpty isShort s3 s4 r1 s5 s6
  have h2 : s2.memories.Ok := State.memPut_ok _ _ _ _ h1
  have h4 : s4.memories.Ok := by simpa [s4, s3] using h2
  have h5 : s5.memories.Ok := by simpa [s5] using h4
  have h6 : s6.memories.Ok := by simpa [s6] using h5
  clear_value s4 s5 s6
  split
  · exact h4
  · extract_lets vc vsums
    split
    · exact h4
    · split
      · exact h5
      · simpa using h6

@[simp] theorem State.closeOut_ok (s : State) (w : Nat) (h : s.memories.Ok) :
    (s.closeOut w).memories.Ok := by
  unfold State.closeOut
  extract_lets out s1 r m26 s2 s3 s4 s5 x
  have h1 : s1.memories.Ok := ok_foldl_fst _ _ _ h fun p c h => by simp [h]
  have h2 : s2.memories.Ok := by simp [s2, h1]
  have h3 : s3.memories.Ok := by simp [s3, h2]
  simp [s5, s4, h3]

/-! ## Reduction commands -/

@[simp] theorem State.chanAccept_ok (s : State) (p : Packet) (h : s.memories.Ok) :
    (s.chanAccept p).memories.Ok := by
  unfold State.chanAccept
  split
  · exact h
  · extract_lets ch taken kind n ca waits rk s1 s2
    have ht : taken.memories.Ok := by simpa [taken] using h
    have h1 : s1.memories.Ok := by
      simp only [s1]
      split <;> simp [ht]
    have h2 : s2.memories.Ok := by simpa [s2] using h1
    clear_value taken s1 s2
    split
    · simpa using ht
    · split
      · simpa using ht
      · split
        · simpa using ht
        · split
          · exact h
          · split
            · exact h
            · split
              · simpa using h1
              · split <;> simp [h2]

@[simp] theorem State.raccAccept_ok (s : State) (p : Packet) (h : s.memories.Ok) :
    (s.raccAccept p).memories.Ok := by
  simp only [State.raccAccept]
  repeat' split
  all_goals simp [h]

@[simp] theorem execChannelRequestAccept_ok (packet : Packet) (s : State) (h : s.memories.Ok) :
    AnswersOk (execChannelRequestAccept packet s) := by simp [execChannelRequestAccept, h]

@[simp] theorem execRaccAccept_ok (packet : Packet) (s : State) (h : s.memories.Ok) :
    AnswersOk (execRaccAccept packet s) := by simp [execRaccAccept, h]

@[simp] theorem execLocalRedAccept_ok (packet : Packet) (s : State) (h : s.memories.Ok) :
    AnswersOk (execLocalRedAccept packet s) := by simp [execLocalRedAccept, h]

@[simp] theorem execCountUpdate_ok (chan : Chan) (s : State) (h : s.memories.Ok) :
    AnswersOk (execCountUpdate chan s) := by
  simp only [execCountUpdate]
  repeat' split
  all_goals simp [h]

@[simp] theorem execHbmReadClear_ok (chan : Chan) (access : Fin 41943040) (upsets : List Upset) (s : State) (h : s.memories.Ok) :
    AnswersOk (execHbmReadClear chan access upsets s) := by
  unfold execHbmReadClear
  extract_lets a holds
  split <;> simp [h]

@[simp] theorem State.winZero_ok (s : State) (w : Nat) (verify : Bool) (h : s.memories.Ok) :
    (s.winZero w verify).memories.Ok := by
  unfold State.winZero
  extract_lets x s1 s2 s3
  have h1 : s1.memories.Ok := State.countSettle_ok _ _ (State.hbmSettleAll_ok _ h)
  have h3 : s3.memories.Ok := State.zeroFill_ok _ _ (State.zeroFill_ok _ _ h1)
  simp [h3]

@[simp] theorem execWindowClearingComplete_ok (win : Win) (s : State) (h : s.memories.Ok) :
    AnswersOk (execWindowClearingComplete win s) := by simp [execWindowClearingComplete, h]

@[simp] theorem execCloseOutStart_ok (win : Win) (s : State) (h : s.memories.Ok) :
    AnswersOk (execCloseOutStart win s) := by simp [execCloseOutStart, h]

@[simp] theorem State.closeEnd_ok (s : State) (w : Nat) (h : s.memories.Ok) :
    (s.closeEnd w).memories.Ok := by simp [State.closeEnd, h]

@[simp] theorem State.hbmStopEnd_ok (s : State) (st : Nat) (h : s.memories.Ok) :
    (s.hbmStopEnd st).memories.Ok := by
  unfold State.hbmStopEnd
  extract_lets chs s1 s2 s3 x s4 s5
  have h1 : s1.memories.Ok := ok_foldl _ _ _ h fun s e h => by simp [h]
  have h2 : s2.memories.Ok := ok_foldl _ _ _ h1 fun s e h => by simp [h]
  have h3 : s3.memories.Ok := by simpa [s3] using h2
  have h4 : s4.memories.Ok := by simpa [s4] using h3
  have h5 : s5.memories.Ok := by simpa [s5] using h3
  clear_value s1 s3 s4 s5
  split
  · exact h
  · split
    · exact h1
    · split
      · simpa using h4
      · split <;> simp [h5]

@[simp] theorem execHbmStoppingEnd_ok (stack : Stack) (s : State) (h : s.memories.Ok) :
    AnswersOk (execHbmStoppingEnd stack s) := by simp [execHbmStoppingEnd, h]

/-! ## Instructions of the Epru -/

@[simp] theorem State.epLd_ok (s : State) (core rd ra imm n : Nat) (h : s.memories.Ok) :
    (s.epLd core rd ra imm n).memories.Ok := by
  unfold State.epLd
  extract_lets s1
  have h1 : s1.memories.Ok := by
    simp only [s1]
    split <;> simp [h]
  clear_value s1
  split
  · exact h1
  next t ht =>
    have ht : t.memories.Ok := by rwa [State.epBegin_memories ht]
    extract_lets a u e
    split
    · simpa using ht
    · split
      · simpa [u] using h1
      next v hv =>
        have hv := State.tagAccess_ok _ _ _ _ _ _ ht hv
        simpa using hv

@[simp] theorem execLd_ok (core : Core) (rd ra : RegNo) (imm : BitVec 16) (s : State) (h : s.memories.Ok) :
    AnswersOk (execLd core rd ra imm s) := by simp [execLd, h]

@[simp] theorem execLw_ok (core : Core) (rd ra : RegNo) (imm : BitVec 16) (s : State) (h : s.memories.Ok) :
    AnswersOk (execLw core rd ra imm s) := by simp [execLw, h]

theorem State.epStoreOut_ok (s : State) (c : Nat) (t : State) (h : s.memories.Ok) (e : s.epStoreOut c = some t) :
    t.memories.Ok := by
  unfold State.epStoreOut at e
  split at e
  · cases e
  · extract_lets line at e
    split at e
    · cases e
    · extract_lets s1 at e
      split at e
      · cases e
      next s2 hs2 =>
        have h2 : s2.memories.Ok := State.tagAccess_ok _ _ _ _ _ _ (by simpa [s1] using h) hs2
        rw [← Option.some.inj e]
        simp [h2]

@[simp] theorem State.epSt_ok (s : State) (core rd ra imm n : Nat) (h : s.memories.Ok) :
    (s.epSt core rd ra imm n).memories.Ok := by
  unfold State.epSt
  split
  · exact h
  next u hu =>
    have hu : u.memories.Ok := by rwa [State.epBegin_memories hu]
    extract_lets a place
    split
    · simpa using hu
    · split
      · simpa [place] using hu
      · split
        · simpa using h
        next v hv =>
          have hv := State.epStoreOut_ok _ _ _ hu hv
          simpa [place] using hv

@[simp] theorem execSd_ok (core : Core) (rd ra : RegNo) (imm : BitVec 16) (s : State) (h : s.memories.Ok) :
    AnswersOk (execSd core rd ra imm s) := by simp [execSd, h]

@[simp] theorem execSw_ok (core : Core) (rd ra : RegNo) (imm : BitVec 16) (s : State) (h : s.memories.Ok) :
    AnswersOk (execSw core rd ra imm s) := by simp [execSw, h]

@[simp] theorem execEpruStoreWrite_ok (core : Core) (s : State) (h : s.memories.Ok) :
    AnswersOk (execEpruStoreWrite core s) := by
  unfold execEpruStoreWrite
  split
  next t ht => simpa using State.epStoreOut_ok _ _ _ h ht
  · split <;> simp [h]

/-! ## Operations of resets -/

@[simp] theorem State.storesBack_ok (s : State) (h : s.memories.Ok) :
    s.storesBack.memories.Ok := ok_foldl _ _ _ (State.hbmSettleAll_ok s h) fun _ _ h => State.coalFlush_ok _ _ _ h

@[simp] theorem State.coldReset_ok (s : State) (h : s.memories.Ok) :
    s.coldReset.memories.Ok := by
  have h1 := State.resetRegs_memories s true (fun r : RegRef => resetsBlock 1 r.blk) ▸ h
  simp only [State.coldReset, State.restrictedKept_memories, State.fset_memories, State.wr_memories, State.free_memories]
  exact ⟨h1.1, rfl⟩

@[simp] theorem State.warmReset_ok (s : State) (h : s.memories.Ok) :
    s.warmReset.memories.Ok := by simp [State.warmReset, h]

@[simp] theorem State.computeReset_ok (s : State) (h : s.memories.Ok) :
    s.computeReset.memories.Ok := by
  simp only [State.computeReset]
  repeat' split
  all_goals simp [h]

@[simp] theorem State.moduleReset_ok (s : State) (cls src : Nat) (h : s.memories.Ok) :
    (s.moduleReset cls src).memories.Ok := by simp [State.moduleReset, h]

/-! ## Operations of the start-up -/

@[simp] theorem State.phaseStacks_ok (s : State) (fails : List (Stack × Fin 4)) (h : s.memories.Ok) :
    (s.phaseStacks fails).memories.Ok := by
  unfold State.phaseStacks
  extract_lets n s1 s2
  have h1 : s1.memories.Ok := by simpa [s1] using h
  have h2 : s2.memories.Ok := ok_foldl _ _ _ h1 fun s e h => by simp [h]
  simpa using h2

@[simp] theorem State.firmwareAt_ok (s : State) (pos : Nat) (h : s.memories.Ok) :
    (s.firmwareAt pos).memories.Ok := s.firmwareAt_memOk pos h

@[simp] theorem State.phaseCores_ok (s : State) (undelivered : List Pos) (h : s.memories.Ok) :
    (s.phaseCores undelivered).memories.Ok := by
  unfold State.phaseCores
  extract_lets b s1 lost s2 s3
  have h1 : s1.memories.Ok := by simpa [s1] using h
  have h2 : s2.memories.Ok := ok_foldl _ _ _ h1 fun s e h => by split <;> simp [h]
  have h3 : s3.memories = s2.memories := memories_foldl _ _ _ fun s c => by simp
  rw [State.setStage_memories, memories_foldl _ _ _ fun s p => by simp, h3]
  exact h2

@[simp] theorem State.phaseRun_ok (s : State) (bistBad : List Pos) (h : s.memories.Ok) :
    (s.phaseRun bistBad).memories.Ok := by
  delta State.phaseRun
  extract_lets s1 s2 s3 s4
  have h1 : s1.memories = s.memories := memories_foldl _ _ _ fun s p => by
    split
    · simp only [State.karFail_memories, State.raise_memories]
    · rfl
  have h2 : s2.memories = s1.memories := memories_foldl _ _ _ fun s p => by
    rw [memories_ite, State.karFail_memories, ite_self]
  have h3 : s3.memories.Ok := by
    apply ok_clear_sp
    rw [h2, h1]
    exact h
  have h4 : s4.memories = s3.memories := memories_foldl _ _ _ fun s p => by
    rw [State.setEpState_memories]
  rw [State.setStage_memories, State.bootMap_memories, h4]
  exact h3

@[simp] theorem State.rstCmd_ok (s : State) (path : CmdPath) (key cls : Nat) (phys : Bool) (target : Nat) (h : s.memories.Ok) :
    (s.rstCmd path key cls phys target).memories.Ok := by
  simp only [State.rstCmd]
  repeat' split
  all_goals simp [h]

@[simp] theorem State.domainReset_ok (s : State) (domain f : Nat) (h : s.memories.Ok) :
    (s.domainReset domain f).memories.Ok := by
  simp only [State.domainReset]
  repeat' split
  all_goals simp [h]

/-! ## Reset and start-up commands -/

@[simp] theorem execPwrOkLow_ok (s : State) (h : s.memories.Ok) :
    AnswersOk (execPwrOkLow s) := by simp [execPwrOkLow, h]

@[simp] theorem execBusbarUvloFall_ok (s : State) (h : s.memories.Ok) :
    AnswersOk (execBusbarUvloFall s) := by simp [execBusbarUvloFall, h]

@[simp] theorem execPerstNAssert_ok (s : State) (h : s.memories.Ok) :
    AnswersOk (execPerstNAssert s) := by simp [execPerstNAssert, h]

@[simp] theorem execModRstNLow_ok (s : State) (h : s.memories.Ok) :
    AnswersOk (execModRstNLow s) := by simp [execModRstNLow, h]

@[simp] theorem execRstCmdWarm_ok (path : CmdPath) (key : BitVec 8) (s : State) (h : s.memories.Ok) :
    AnswersOk (execRstCmdWarm path key s) := by simp [execRstCmdWarm, h]

@[simp] theorem execRstCmdCompute_ok (path : CmdPath) (key : BitVec 8) (s : State) (h : s.memories.Ok) :
    AnswersOk (execRstCmdCompute path key s) := by simp [execRstCmdCompute, h]

@[simp] theorem execRstCmdTract_ok (path : CmdPath) (key : BitVec 8) (target : Fin 32768) (s : State) (h : s.memories.Ok) :
    AnswersOk (execRstCmdTract path key target s) := by simp [execRstCmdTract, h]

@[simp] theorem execRstCmdCore_ok (path : CmdPath) (key : BitVec 8) (phys : Bool) (target : Fin 32768) (s : State) (h : s.memories.Ok) :
    AnswersOk (execRstCmdCore path key phys target s) := by simp [execRstCmdCore, h]

@[simp] theorem execWatchdogExpiry_ok (s : State) (h : s.memories.Ok) :
    AnswersOk (execWatchdogExpiry s) := by simp [execWatchdogExpiry, h]

@[simp] theorem execPllLossOfLock_ok (field : FieldId) (s : State) (h : s.memories.Ok) :
    AnswersOk (execPllLossOfLock field s) := by
  simp only [execPllLossOfLock]
  repeat' split
  all_goals simp [h]

@[simp] theorem execClockLoss_ok (domain : Fin 6) (field : FieldId) (s : State) (h : s.memories.Ok) :
    AnswersOk (execClockLoss domain field s) := by simp [execClockLoss, h]

@[simp] theorem execStartUpPhaseEnd_ok (facts : PhaseFacts) (s : State) (h : s.memories.Ok) :
    AnswersOk (execStartUpPhaseEnd facts s) := by
  simp only [execStartUpPhaseEnd]
  repeat' split
  all_goals simp [h]

/-! ## Tract commands -/

@[simp] theorem State.mapTags_ok (s : State) (t : Nat) (f : Nat → Nat) (h : s.memories.Ok) :
    (s.mapTags t f).memories.Ok := h

@[simp] theorem State.barrierDone_ok (s : State) (t : Nat) (r : Rel) (h : s.memories.Ok) :
    (s.barrierDone t r).memories.Ok := by simp [State.barrierDone, h]

@[simp] theorem State.segStart_ok (s : State) (t : Nat) (r : Rel) (h : s.memories.Ok) :
    (s.segStart t r).memories.Ok := by simp [State.segStart, h]

@[simp] theorem State.tractRelease_ok (s : State) (t : Nat) (r : Rel) (h : s.memories.Ok) :
    (s.tractRelease t r).1.memories.Ok := by
  simp only [State.tractRelease]
  repeat' split
  all_goals simp [h]

/-! ## Operations of power -/

@[simp] theorem State.cellarStop_ok (s : State) (h : s.memories.Ok) :
    s.cellarStop.memories.Ok := by
  unfold State.cellarStop
  extract_lets s1
  have h1 : s1.memories = s.memories := memories_foldl _ _ _ fun s p => by simp
  exact ok_foldl _ _ _ (h1 ▸ h) fun s e h => by simp [h]

@[simp] theorem State.cellarOff_ok (s : State) (h : s.memories.Ok) :
    s.cellarOff.memories.Ok := by
  rw [State.cellarOff, State.resetRegs_memories]
  exact ⟨rfl, (State.atCyc_memories s _ ▸ h : (s.atCyc (upTo 16 s.clk.cyc)).memories.Ok).2⟩

@[simp] theorem State.trip_ok (s : State) (kind idx reading : Nat) (stack : Bool) (h : s.memories.Ok) :
    (s.trip kind idx reading stack).memories.Ok := by simp [State.trip, h]

/-! ## Power commands -/

@[simp] theorem execPowerRungReached_ok (s : State) (h : s.memories.Ok) :
    AnswersOk (execPowerRungReached s) := by
  simp only [execPowerRungReached]
  repeat' split
  all_goals simp [h]

@[simp] theorem execCoresReadySet_ok (s : State) (h : s.memories.Ok) :
    AnswersOk (execCoresReadySet s) := by
  unfold execCoresReadySet
  split
  · exact (answersOk_next _).2 h
  · extract_lets fw s1 s2
    have h2 : s2.memories.Ok := ok_foldl _ _ _ ⟨rfl, h.2⟩ fun s c h => by
      rw [State.ifill_memories]
      exact ⟨mputs_wf _ _ _ _ h.1, h.2⟩
    simpa using h2

@[simp] theorem execFieldTempSample_ok (field : FieldId) (reading : BitVec 12) (vcore watts : BitVec 16) (s : State) (h : s.memories.Ok) :
    AnswersOk (execFieldTempSample field reading vcore watts s) := by simp [execFieldTempSample, h]

@[simp] theorem execStackTempSample_ok (stack : Stack) (celsius : BitVec 8) (s : State) (h : s.memories.Ok) :
    AnswersOk (execStackTempSample stack celsius s) := by simp [execStackTempSample, h]

/-! ## Scratchpad commands -/

@[simp] theorem execScratchpadAccessServed_ok (core : Core) (port : Fin 16) (bank : Fin 32) (s : State) (h : s.memories.Ok) :
    AnswersOk (execScratchpadAccessServed core port bank s) := by
  unfold execScratchpadAccessServed
  split
  next v hv => simpa using State.serve_ok _ _ _ _ _ h hv
  · split
    · simpa using h
    · split <;> simp [h]

@[simp] theorem State.rowHost_ok (s : State) (c : Nat) (r : RowReq) (p : Packet) (h : s.memories.Ok) :
    (s.rowHost c r p).memories.Ok := by
  simp only [State.rowHost]
  repeat' split
  all_goals simp [h]

@[simp] theorem execRowAccessServed_ok (core : Core) (group : Fin 4) (s : State) (h : s.memories.Ok) :
    AnswersOk (execRowAccessServed core group s) := by
  simp only [execRowAccessServed]
  repeat' split
  all_goals simp [h]

@[simp] theorem State.spZero_ok (s : State) (pos : Nat) (h : s.memories.Ok) :
    (s.spZero pos).memories.Ok := s.spZero_memOk pos h

@[simp] theorem execSpBistComplete_ok (core : Core) (row : Option (Fin 10240)) (line : Option (Fin 81920)) (s : State)
    (h : s.memories.Ok) :
    AnswersOk (execSpBistComplete core row line s) := by
  simp only [execSpBistComplete]
  repeat' split
  all_goals simp [h]

/-! ## Streaming commands -/

@[simp] theorem execRackGranuleCopy_ok (s : State) (h : s.memories.Ok) :
    AnswersOk (execRackGranuleCopy s) := by
  simp only [execRackGranuleCopy]
  repeat' split
  all_goals simp [h]

/-! ## Stack commands -/

@[simp] theorem execHbmRead_ok (chan : Chan) (upsets : List Upset) (s : State) (h : s.memories.Ok) :
    AnswersOk (execHbmRead chan upsets s) := by
  simp only [execHbmRead]
  repeat' split
  all_goals simp [h]

@[simp] theorem execHbmWrite_ok (chan : Chan) (upsets : List Upset) (s : State) (h : s.memories.Ok) :
    AnswersOk (execHbmWrite chan upsets s) := by
  unfold execHbmWrite
  split
  · simpa using h
  next r hr =>
    extract_lets s1
    have h1 : s1.memories.Ok := by simp [s1, h]
    clear_value s1
    cases e : s1.hbmApply chan r with
    | none => simpa using h1
    | some t => simpa using State.hbmApply_ok _ _ _ _ h1 e

@[simp] theorem execHbmAccumulate_ok (chan : Chan) (upsets : List Upset) (s : State) (h : s.memories.Ok) :
    AnswersOk (execHbmAccumulate chan upsets s) := by
  unfold execHbmAccumulate
  split
  · simpa using h
  next r hr =>
    extract_lets s1
    have h1 : s1.memories.Ok := by simp [s1, h]
    clear_value s1
    cases e : s1.hbmApply chan r with
    | none => simpa using h1
    | some t => simpa using State.hbmApply_ok _ _ _ _ h1 e

@[simp] theorem execHbmRequestTimeout_ok (chan : Chan) (s : State) (h : s.memories.Ok) :
    AnswersOk (execHbmRequestTimeout chan s) := by
  unfold execHbmRequestTimeout
  extract_lets x reqs oldest
  clear_value oldest
  split
  · simpa using h
  next r hr =>
    extract_lets s1 st s2 s3 s4 s5 s6 y n s7 thr
    have h5 : s5.memories.Ok := by simpa [s5, s4, s3, s2, s1] using h
    have h6 : s6.memories.Ok := by
      simp only [s6]
      split
      · simpa using h5
      · exact ok_foldl _ _ _ h5 fun s a h => by simp [h]
    have h7 : s7.memories.Ok := by simpa [s7] using h6
    simp [h7]

@[simp] theorem execEccWriteback_ok (chan : Chan) (s : State) (h : s.memories.Ok) :
    AnswersOk (execEccWriteback chan s) := by
  unfold execEccWriteback
  extract_lets x
  split
  · simpa using h
  · exact (answersOk_next _).2 h

@[simp] theorem execPatrolScrubRead_ok (chan : Chan) (upsets : List Upset) (s : State) (h : s.memories.Ok) :
    AnswersOk (execPatrolScrubRead chan upsets s) := by simp [execPatrolScrubRead, h]

@[simp] theorem execHbmFlushEnd_ok (stack : Stack) (s : State) (h : s.memories.Ok) :
    AnswersOk (execHbmFlushEnd stack s) := by
  unfold execHbmFlushEnd
  split
  · simpa using h
  · extract_lets x s1
    have h1 : s1.memories.Ok := ok_foldl _ _ _ h fun s e h => by simp [h]
    simpa using h1

/-! ## Register writes -/

@[simp] theorem State.regWrite_ok (s : State) (path : CmdPath) (r : RegRef) (v : Nat) (h : s.memories.Ok) :
    (s.regWrite path r v).memories.Ok := by
  simp only [State.regWrite]
  repeat' split
  all_goals simp [h]

@[simp] theorem State.highWrite_ok (s : State) (path : CmdPath) (r : RegRef) (v : Nat) (h : s.memories.Ok) :
    (s.highWrite path r v).memories.Ok := by simp [State.highWrite, h]

@[simp] theorem State.writeWord_ok (s : State) (path : CmdPath) (a v : Nat) (h : s.memories.Ok) :
    (s.writeWord path a v).1.memories.Ok := by
  simp only [State.writeWord]
  repeat' split
  all_goals simp [h]

@[simp] theorem State.writeWide_ok (s : State) (path : CmdPath) (a v : Nat) (h : s.memories.Ok) :
    (s.writeWide path a v).1.memories.Ok := by
  simp only [State.writeWide]
  repeat' split
  all_goals simp [h]

/-! ## Register commands -/

@[simp] theorem State.busWrite_ok (s : State) (host wide : Bool) (a v : Nat) (h : s.memories.Ok) :
    (s.busWrite host wide a v).memories.Ok := by
  simp only [State.busWrite]
  repeat' split
  all_goals simp [h]

@[simp] theorem execRegisterWrite_ok (lane : BitVec 24) (be : BitVec 8) (data : BitVec 64) (host : Bool) (s : State) (h : s.memories.Ok) :
    AnswersOk (execRegisterWrite lane be data host s) := by simp [execRegisterWrite, h]

@[simp] theorem execSplitHighWordWrite_ok (lane : BitVec 24) (high : BitVec 32) (s : State) (h : s.memories.Ok) :
    AnswersOk (execSplitHighWordWrite lane high s) := by
  simp only [execSplitHighWordWrite]
  repeat' split
  all_goals simp [h]

@[simp] theorem State.csrWrite_ok (s : State) (a v : Nat) (h : s.memories.Ok) :
    (s.csrWrite a v).memories.Ok := by
  simp only [State.csrWrite]
  repeat' split
  all_goals simp [h]

@[simp] theorem execCsrw_ok (core : Core) (ra : RegNo) (offset : BitVec 11) (s : State) (h : s.memories.Ok) :
    AnswersOk (execCsrw core ra offset s) := by
  unfold execCsrw
  split
  · simpa using h
  next t ht =>
    have ht : t.memories.Ok := by rwa [State.epBegin_memories ht]
    split <;> simp [ht]

@[simp] theorem execRegwrDeliver_ok (packet : Packet) (s : State) (h : s.memories.Ok) :
    AnswersOk (execRegwrDeliver packet s) := by
  obtain ⟨f, hf⟩ : ∃ f, f = State.writeWord := ⟨_, rfl⟩
  delta execRegwrDeliver
  rw [← hf]
  split
  · exact (answersOk_next _).2 h
  · have h1 : (s.regTake packet).1.memories.Ok := by
      rw [State.regTake_memories s packet]
      exact h
    generalize s.regTake packet = o at h1
    obtain ⟨s1, ok⟩ := o
    dsimp only at h1 ⊢
    split
    · exact (answersOk_next _).2 h1
    · have h2 : (f s1 (regPath packet.src) (regOffset packet.addr) (leNat (packet.data.take 4))).1.memories.Ok := by
        rw [hf]
        exact State.writeWord_ok _ _ _ _ h1
      split
      · rw [answersOk_next, State.regReply_memories]
        exact h2
      · rw [answersOk_next, State.regReply_memories, State.raiseLim_memories]
        exact h2

/-! ## Management commands -/

@[simp] theorem execMctpReset_ok (value : BitVec 32) (s : State) (h : s.memories.Ok) :
    AnswersOk (execMctpReset value s) := by simp [execMctpReset, h]

@[simp] theorem execMctpRegWrite_ok (offset : BitVec 27) (value : BitVec 32) (s : State) (h : s.memories.Ok) :
    AnswersOk (execMctpRegWrite offset value s) := by simp [execMctpRegWrite, h]

/-! ## Operations of the step boundary -/

@[simp] theorem State.coreOut_ok (s : State) (t k c : Nat) (h : s.memories.Ok) :
    (s.coreOut t k c).memories.Ok := by
  unfold State.coreOut
  extract_lets a code page tags
  exact State.memPut_ok _ _ _ _ (State.memPut_ok _ _ _ _ (State.memPut_ok _ _ _ _ (State.memPut_ok _ _ _ _ h)))

@[simp] theorem State.coreIn_ok (s : State) (t k c : Nat) (h : s.memories.Ok) :
    (s.coreIn t k c).memories.Ok := by
  unfold State.coreIn
  extract_lets a key sp code page n tags s1 s2 s3 g ctr e snap ist s4
  have h1 : s1.memories.Ok := by simpa [s1] using h
  have h2 : s2.memories.Ok := ok_mputs_sp s1 _ _ _ _ h1
  clear_value s2
  have h3 : s3.memories = s2.memories := memories_foldl _ _ _ fun s i => by simp
  simpa [s4, h3] using h2

@[simp] theorem State.tractOut_ok (s : State) (t k : Nat) (h : s.memories.Ok) :
    (s.tractOut t k).memories.Ok := by
  unfold State.tractOut
  extract_lets x s1 cores s2 s3 o
  have h1 : s1.memories.Ok := by simp [s1, h]
  have h2 : s2.memories.Ok := ok_foldl _ _ _ h1 fun s e h => by simp [h]
  clear_value s1
  split
  · simpa using h1
  · simpa [s3] using h2

@[simp] theorem State.tractIn_ok (s : State) (t k : Nat) (h : s.memories.Ok) :
    (s.tractIn t k).memories.Ok := by
  unfold State.tractIn
  extract_lets s1 first s2 cores bad s3 line n s4
  have h1 : s1.memories.Ok := by simpa [s1] using h
  have h2 : s2.memories.Ok := by simpa [s2] using h1
  have h3 : s3.memories.Ok := ok_foldl _ _ _ h2 fun s e h => by simp [h]
  have h4 : s4.memories.Ok := by
    simp only [s4]
    split
    · rw [memories_foldl _ _ _ fun s c => by simp]
      exact h3
    · exact h3
  clear_value s1 s2 bad s4
  split
  · simpa using h1
  · split
    · simpa using h2
    · simpa using h4

@[simp] theorem State.shiftChange_ok (s : State) (n m : Nat) (h : s.memories.Ok) :
    (s.shiftChange n m).memories.Ok := by
  unfold State.shiftChange
  extract_lets out s1 left slots incoming s2
  have h1 : s1.memories.Ok := ok_foldl _ _ _ h fun s e h => by simp [h]
  have h2 : s2.memories.Ok := ok_foldl _ _ _ h1 fun s e h => by simp [h]
  rw [memories_foldl _ _ _ fun s t => by simp]
  exact h2

@[simp] theorem State.shiftStep_ok (s : State) (h : s.memories.Ok) :
    s.shiftStep.memories.Ok := by
  simp only [State.shiftStep]
  repeat' split
  all_goals simp [h]

@[simp] theorem State.stepFinish_ok (s : State) (b : Nat) (h : s.memories.Ok) :
    (s.stepFinish b).memories.Ok := by simp [State.stepFinish, h]

@[simp] theorem State.stepContinue_ok (s : State) (h : s.memories.Ok) :
    s.stepContinue.memories.Ok := by
  simp only [State.stepContinue]
  repeat' split
  all_goals simp [h]

/-! ## Recovery -/

@[simp] theorem State.spareFresh_ok (s : State) (pos : Nat) (h : s.memories.Ok) :
    (s.spareFresh pos).memories.Ok := s.spareFresh_memOk pos h

@[simp] theorem State.substitute_ok (s : State) (seg p q : Nat) (h : s.memories.Ok) :
    (s.substitute seg p q).memories.Ok := by
  simp only [State.substitute]
  repeat' split
  all_goals simp [h]

@[simp] theorem execSpareSubstitution_ok (tries : List (Bool × Fin 7)) (s : State) (h : s.memories.Ok) :
    AnswersOk (execSpareSubstitution tries s) := by
  unfold execSpareSubstitution
  split
  · simpa using h
  next ch chs hch =>
    extract_lets seg p
    split
    · simpa using h
    · have h1 : (s.spareTry seg p tries).1.memories.Ok := by simpa using h
      generalize s.spareTry seg p tries = o at h1
      obtain ⟨s1, q⟩ := o
      cases q with
      | none => simpa using h1
      | some q =>
        dsimp -zeta only
        extract_lets c detail s2 s3 s4
        have h2 : s2.memories.Ok := by
          simp only [s2, State.spareGen_memories, State.logRecord_memories]
          exact State.substitute_ok _ _ _ _ (by simpa using h1)
        have h3 : s3.memories = s2.memories := memories_foldl _ _ _ fun s t => by simp
        rw [answersOk_next, State.changeDone_memories, State.count_memories, State.raise_memories, h3]
        exact h2

/-! ## Step-boundary commands -/

@[simp] theorem execStepBoundaryProcessing_ok (s : State) (h : s.memories.Ok) :
    AnswersOk (execStepBoundaryProcessing s) := by simp [execStepBoundaryProcessing, h]

@[simp] theorem execCloseOutEnd_ok (win : Win) (s : State) (h : s.memories.Ok) :
    AnswersOk (execCloseOutEnd win s) := by simp [execCloseOutEnd, h]

@[simp] theorem execAmaxApply_ok (packet : Packet) (s : State) (h : s.memories.Ok) :
    AnswersOk (execAmaxApply packet s) := by simp [execAmaxApply, h]

@[simp] theorem execBarrierRelease_ok (slot : Slot) (s : State) (h : s.memories.Ok) :
    AnswersOk (execBarrierRelease slot s) := by
  simp only [execBarrierRelease]
  repeat' split
  all_goals simp [h]

/-! ## One step -/

/-- Every command keeps the memories canonical: those that write them by their own lemmas, the others by leaving them alone. -/
theorem exec_ok (i : Instr) (s : State) (h : s.memories.Ok) : AnswersOk (exec i s) := by
  cases i
  case registerWrite => exact execRegisterWrite_ok _ _ _ _ _ h
  case splitHighWordWrite => exact execSplitHighWordWrite_ok _ _ _ h
  case amaxApply => exact execAmaxApply_ok _ _ h
  case mxOutputRowServed => exact execMxOutputRowServed_ok _ _ h
  case ld => exact execLd_ok _ _ _ _ _ h
  case lw => exact execLw_ok _ _ _ _ _ h
  case sd => exact execSd_ok _ _ _ _ _ h
  case sw => exact execSw_ok _ _ _ _ _ h
  case epruStoreWrite => exact execEpruStoreWrite_ok _ _ h
  case csrw => exact execCsrw_ok _ _ _ _ h
  case barrierRelease => exact execBarrierRelease_ok _ _ h
  case scratchpadAccessServed => exact execScratchpadAccessServed_ok _ _ _ _ h
  case rowAccessServed => exact execRowAccessServed_ok _ _ _ h
  case spBistComplete => exact execSpBistComplete_ok _ _ _ _ h
  case regwrDeliver => exact execRegwrDeliver_ok _ _ h
  case hbmRead => exact execHbmRead_ok _ _ _ h
  case hbmWrite => exact execHbmWrite_ok _ _ _ h
  case hbmAccumulate => exact execHbmAccumulate_ok _ _ _ h
  case hbmReadClear chan access upsets => exact execHbmReadClear_ok chan access upsets s h
  case channelRequestAccept => exact execChannelRequestAccept_ok _ _ h
  case hbmRequestTimeout => exact execHbmRequestTimeout_ok _ _ h
  case eccWriteback => exact execEccWriteback_ok _ _ h
  case patrolScrubRead => exact execPatrolScrubRead_ok _ _ _ h
  case hbmFlushEnd => exact execHbmFlushEnd_ok _ _ h
  case hbmStoppingEnd => exact execHbmStoppingEnd_ok _ _ h
  case stackTempSample => exact execStackTempSample_ok _ _ _ h
  case rackGranuleCopy => exact execRackGranuleCopy_ok _ h
  case raccAccept => exact execRaccAccept_ok _ _ h
  case localRedAccept => exact execLocalRedAccept_ok _ _ h
  case countUpdate => exact execCountUpdate_ok _ _ h
  case windowClearingComplete => exact execWindowClearingComplete_ok _ _ h
  case closeOutStart => exact execCloseOutStart_ok _ _ h
  case closeOutEnd => exact execCloseOutEnd_ok _ _ h
  case stepBoundaryProcessing => exact execStepBoundaryProcessing_ok _ h
  case spareSubstitution => exact execSpareSubstitution_ok _ _ h
  case pwrOkLow => exact execPwrOkLow_ok _ h
  case busbarUvloFall => exact execBusbarUvloFall_ok _ h
  case perstNAssert => exact execPerstNAssert_ok _ h
  case modRstNLow => exact execModRstNLow_ok _ h
  case rstCmdWarm => exact execRstCmdWarm_ok _ _ _ h
  case rstCmdCompute => exact execRstCmdCompute_ok _ _ _ h
  case rstCmdTract => exact execRstCmdTract_ok _ _ _ _ h
  case rstCmdCore => exact execRstCmdCore_ok _ _ _ _ _ h
  case watchdogExpiry => exact execWatchdogExpiry_ok _ h
  case pllLossOfLock => exact execPllLossOfLock_ok _ _ h
  case clockLoss => exact execClockLoss_ok _ _ _ h
  case startUpPhaseEnd => exact execStartUpPhaseEnd_ok _ _ h
  case powerRungReached => exact execPowerRungReached_ok _ h
  case coresReadySet => exact execCoresReadySet_ok _ h
  case fieldTempSample => exact execFieldTempSample_ok _ _ _ _ _ h
  case mctpReset => exact execMctpReset_ok _ _ h
  case mctpRegWrite => exact execMctpRegWrite_ok _ _ _ h
  all_goals
    refine LeavesMemories.answersOk ?_ h
    simp only [exec]
    simp

/-- Settles O59: a step is a tick, which leaves the memories alone, or a command, and every command keeps them canonical. -/
theorem stepsKeepMemoriesCanonical : Obligations.StepsKeepMemoriesCanonical := by
  unfold Obligations.StepsKeepMemoriesCanonical
  intro s t h e
  unfold step at e
  split at e
  · cases e
    exact s.adv_memOk 1 h
  next c rest hq =>
    have hrest : ({ s with pending := rest } : State).memories.Ok := h
    generalize ({ s with pending := rest } : State) = s' at e hrest
    exact exec_ok c s' hrest t e

end Sys2Proof.Machine
end

section
/-! # Lines written at a port (R206 to R208, R215, R220) -/

namespace Sys2Proof

theorem length_flatMap_range {α : Type} (f : Nat → List α) (n m : Nat) (hf : ∀ k < m, (f k).length = n) :
    ((List.range m).flatMap f).length = m * n := by
  rw [List.length_flatMap, List.map_congr_left (g := fun _ => n) fun k hk => hf k (List.mem_range.1 hk)]
  simp

/-- Element e of a run of elements of n each. -/
theorem take_drop_flatMap_range {α : Type} (f : Nat → List α) (n m e : Nat) (hf : ∀ k < m, (f k).length = n) (he : e < m) :
    (((List.range m).flatMap f).drop (e * n)).take n = f e := by
  have hlen := length_flatMap_range f n e fun k hk => hf k (by omega)
  have hsplit : List.range m = List.range e ++ e :: (List.range (m - e - 1)).map (e + 1 + ·) := by
    rw [show m = e + 1 + (m - e - 1) by omega, List.range_add, List.range_succ, List.append_assoc,
      show e + 1 + (m - e - 1) - e - 1 = m - e - 1 by omega, List.singleton_append]
  rw [hsplit, List.flatMap_append, List.drop_left' hlen, List.flatMap_cons, List.take_left' (hf e he)]

end Sys2Proof

namespace Sys2Proof.Machine
open Sys2Proof

variable (s : State) (c : Nat)

/-! ## The elements of a line -/

/-- Element e of a line: its new bytes under a mask that covers it, else its old ones (R215). -/
def elementAfter (wop mask : Nat) (old new : List Byte) (e : Nat) : List Byte :=
  let n := wopSize wop
  let o := (old.drop (e * n)).take n
  if maskAll mask (e * n) n then leBytes n (wopApply wop (leNat o) (leNat ((new.drop (e * n)).take n))).1 else o

theorem elementAfter_length (wop mask : Nat) (old new : List Byte) (e : Nat) (hl : e * wopSize wop + wopSize wop ≤ old.length) :
    (elementAfter wop mask old new e).length = wopSize wop := by
  simp only [elementAfter]
  split
  · exact leBytes_length _ _
  · rw [List.length_take, List.length_drop]
    omega

theorem elementAfter_length_line {wop mask : Nat} {old new : List Byte} (e : Nat) (ho : old.length = 64) (he : e < 64 / wopSize wop) :
    (elementAfter wop mask old new e).length = wopSize wop :=
  elementAfter_length wop mask old new e <| by
    have := Nat.mul_le_of_le_div _ _ _ (Nat.succ_le_of_lt he)
    rw [ho]
    linarith

theorem foldl_append_fst {α β γ : Type} (f : γ → List α) (l : List γ) (a : List α) (b : β) :
    l.foldl (fun acc e => (acc.1 ++ f e, acc.2)) (a, b) = (a ++ l.flatMap f, b) := by
  induction l generalizing a with
  | nil => simp
  | cons e l ih => rw [List.foldl_cons, ih, List.flatMap_cons, List.append_assoc]

/-- A line whose elements are all covered whole or not at all, by an operation that does not overflow. -/
theorem lineAfter_elements (wop mask : Nat) (old new : List Byte)
    (hmask : ∀ e < 64 / wopSize wop,
      maskAll mask (e * wopSize wop) (wopSize wop) = true ∨ maskAny mask (e * wopSize wop) (wopSize wop) = false)
    (hov : ∀ o v, (wopApply wop o v).2 = false) :
    lineAfter wop mask old new = ((List.range (64 / wopSize wop)).flatMap (elementAfter wop mask old new), false, []) := by
  unfold lineAfter
  rw [List.foldl_ext (g := fun acc e => (acc.1 ++ elementAfter wop mask old new e, acc.2)), foldl_append_fst, List.nil_append]
  intro acc e he
  unfold elementAfter
  by_cases hall : maskAll mask (e * wopSize wop) (wopSize wop) = true
  · simp only [hall, if_true, hov, Bool.false_eq_true, if_false]
  · simp only [hall, Bool.false_eq_true, if_false, (hmask e (List.mem_range.1 he)).resolve_left hall, Bool.or_false]

theorem lineAfter_replace (mask : Nat) (old new : List Byte) :
    lineAfter 0 mask old new = ((List.range 64).flatMap (elementAfter 0 mask old new), false, []) := by
  refine lineAfter_elements 0 mask old new (fun e _ => ?_) fun _ _ => rfl
  have hb : bits mask e e < 2 := by simpa using bits_lt mask e e
  simp only [wopSize, maskAll, maskAny, Nat.mul_one, Nat.add_sub_cancel, beq_iff_eq, bne_eq_false_iff_eq]
  omega

theorem lineAfter_addI32 (old new : List Byte) :
    lineAfter 4 fullMask old new = ((List.range 16).flatMap (elementAfter 4 fullMask old new), false, []) :=
  lineAfter_elements 4 fullMask old new (fun e he => .inl ((by decide : ∀ e < 16, maskAll fullMask (e * 4) 4 = true) e he)) fun _ _ => rfl

/-- The single byte of a run of one. -/
theorem take_one_drop {l : List Byte} {i : Nat} (h : i < l.length) : (l.drop i).take 1 = [l.getD i 0] := by
  rw [List.drop_eq_getElem_cons h, List.take_succ_cons, List.take_zero, List.getD_eq_getElem _ _ h]

theorem leBytes_leNat_byte (b : Byte) : leBytes 1 (leNat [b]) = [b] := by simp [leBytes, leNat]

/-- Byte i of a line that REPLACE has written (R206). -/
theorem getD_replace (mask i : Nat) (old new : List Byte) (ho : old.length = 64) (hn : new.length = 64) (hi : i < 64) :
    ((List.range 64).flatMap (elementAfter 0 mask old new)).getD i 0 = if bit mask i then new.getD i 0 else old.getD i 0 := by
  have helem : elementAfter 0 mask old new i = [if bit mask i then new.getD i 0 else old.getD i 0] := by
    simp only [elementAfter, wopSize, wopApply, Nat.mul_one, take_one_drop (ho ▸ hi), take_one_drop (hn ▸ hi), leBytes_leNat_byte,
      maskAll, Nat.add_sub_cancel, bit_eq_bits, Nat.reducePow, Nat.reduceSub]
    exact (apply_ite (fun b => [b]) _ _ _).symm
  have h := take_drop_flatMap_range (elementAfter 0 mask old new) 1 64 i (fun k hk => elementAfter_length_line k ho hk) hi
  rw [helem, Nat.mul_one] at h
  simpa [List.getD_eq_getElem?_getD, List.getElem?_take, List.getElem?_drop] using congrArg (fun l => l.getD 0 0) h

/-- Element e of a line to which ADD_I32 has added (R215). -/
theorem leNat_addI32 (e : Nat) (old new : List Byte) (ho : old.length = 64) (he : e < 16) :
    leNat ((((List.range 16).flatMap (elementAfter 4 fullMask old new)).drop (4 * e)).take 4)
      = (leNat ((old.drop (4 * e)).take 4) + leNat ((new.drop (4 * e)).take 4)) % 2 ^ 32 := by
  have hmask : maskAll fullMask (e * 4) 4 = true := (by decide : ∀ e < 16, maskAll fullMask (e * 4) 4 = true) e he
  rw [Nat.mul_comm 4 e, take_drop_flatMap_range _ 4 16 e (fun k hk => elementAfter_length_line (wop := 4) k ho hk) he]
  simp only [elementAfter, wopSize, hmask, if_true, wopApply, leNat_leBytes]
  exact Nat.mod_mod _ _

/-- What a served write leaves of a line (R206, R215). -/
theorem lineAfter_served (w : SpWr) (old : List Byte) (ho : old.length = 64) (hn : w.data.length = 64)
    (hop : w.wop = 0 ∨ w.wop = 4 ∧ w.mask = fullMask) :
    ∃ bytes, lineAfter w.wop w.mask old w.data = (bytes, false, []) ∧ bytes.length = 64
      ∧ (w.wop = 0 → ∀ i, i < 64 → bytes.getD i 0 = if bit w.mask i then w.data.getD i 0 else old.getD i 0)
      ∧ (w.wop = 4 → ∀ e, e < 16 → leNat ((bytes.drop (4 * e)).take 4)
          = (leNat ((old.drop (4 * e)).take 4) + leNat ((w.data.drop (4 * e)).take 4)) % 2 ^ 32) := by
  obtain h0 | ⟨h4, hm⟩ := hop
  · rw [h0]
    exact ⟨_, lineAfter_replace _ _ _, length_flatMap_range _ 1 64 fun k hk => elementAfter_length_line k ho hk,
       fun _ i hi => getD_replace _ i _ _ ho hn hi, fun h => absurd h (by decide)⟩
  · rw [h4, hm]
    exact ⟨_, lineAfter_addI32 _ _, length_flatMap_range _ 4 16 fun k hk => elementAfter_length_line k ho hk,
       fun h => absurd h (by decide), fun _ e he => leNat_addI32 e _ _ ho he⟩

/-! ## What the slot leaves of a line -/

section
variable (port t line : Nat) (r : SpReq)

theorem State.atSlot_spByte (c : Core) (b : Nat) : (s.atSlot c port t r).spByte c b = s.spByte c b := by
  rw [State.spByte, State.spByte, (s.atSlot_regsKept c port t r).phys c]

theorem State.atSlot_lineKey (c : Core) : (s.atSlot c port t r).lineKey c line = s.lineKey c line := by
  rw [State.lineKey, State.lineKey, (s.atSlot_regsKept c port t r).phys c]

theorem State.atSlot_spLine (c : Core) : (s.atSlot c port t r).spLine c line = s.spLine c line := by
  rw [State.spLine, s.atSlot_spByte port t r c]
  exact mgets_congr _ _ _ _ _ fun j _ _ => (s.atSlot_engFrame c port t r).memKept.1.1 j

theorem State.atSlot_lineBad (c : Core) : (s.atSlot c port t r).lineBad c line = s.lineBad c line := by
  rw [State.lineBad, State.lineBad, s.atSlot_lineKey port t line r c, (s.atSlot_engFrame c port t r).memKept.1.2.1]

end

/-! ## The line written -/

theorem State.spLine_length (line : Nat) : (s.spLine c line).length = 64 := mgets_length _ _ _ _

/-- The bytes that have been put into a line are read there. -/
theorem State.spLine_put (line : Nat) (bytes : List Byte) (code : SMap Nat) (hl : bytes.length = 64) :
    ({ s with sp := mputs 0 s.sp (s.spByte c (64 * line)) bytes, spCode := code } : State).spLine c line = bytes := by
  show mgets 0 (mputs 0 s.sp (s.spByte c (64 * line)) bytes) (s.spByte c (64 * line)) 64 = bytes
  rw [← hl, mgets_mputs]

variable {s c} in
/-- A right code has no difference stored (R219). -/
theorem State.lineBad_eq_false {line : Nat} : s.lineBad c line = false ↔ mget 0 s.spCode (s.lineKey c line) = 0 := bne_eq_false_iff_eq

/-- A write that covers its elements whole, to a line whose code is right: the new bytes, a fresh code, and nothing else. -/
theorem State.spWrite_plain (line port : Nat) (w : SpWr) (bytes : List Byte)
    (hb : lineAfter w.wop w.mask (s.spLine c line) w.data = (bytes, false, [])) (hp : w.poison = false)
    (hbad : s.lineBad c line = false) (hi : s.flag F.SP_CTRL_INJ_ARM c = false) : s.spWrite c line port w = { s with
      sp := mputs 0 s.sp (s.spByte c (64 * line)) bytes
      spCode := mput 0 s.spCode (s.lineKey c line) 0 } := by
  unfold State.spWrite
  simp only [hbad, Bool.and_false, Bool.false_and, Bool.false_eq_true, if_false, hb, hp, hi, Bool.or_self, List.foldl_nil]

/-- A port's single request, an untagged write, is served by its bank. -/
theorem exec_scratchpadWrite (c : Core) (port : Fin 16) (bank : Fin 32) (r : SpReq) (w : SpWr) (t : Nat)
    (hr : mget [] (s.spCore c).reqs port = [r]) (hb : r.line % 32 = bank.val) (huse : r.use = .out 0 0) (hw : r.wr = some w)
    (hu : Untagged s c r.line) (hrow : (s.spCore c).rowHeld (bank.val / 8) = false)
    (ht : s.slotFor c port bank (max r.tb s.clk.tb) = some t) :
    exec (.scratchpadAccessServed c port bank) s = .next ((s.atSlot c port t r).spWrite c r.line port w) := by
  show execScratchpadAccessServed c port bank s = _
  rw [← hb] at hrow ht
  unfold execScratchpadAccessServed
  rw [← hb, s.serve_write c port t r w hr hw hrow ht hu]
  simp only [State.portServed, huse]

/-- Settles O18: the served line is `lineAfter` of the old one, whose elements are covered whole or not at all. -/
theorem scratchpadWriteServed : Obligations.ScratchpadWriteServed := by
  intro s c port bank r w hr hb huse hw hl hp hu hbad hi hrow hslot old hop
  obtain ⟨t, ht⟩ := Option.isSome_iff_exists.1 hslot
  have hexec := exec_scratchpadWrite s c port bank r w t hr hb huse hw hu hrow ht
  have hk := s.atSlot_regsKept c port t r
  have hm := (s.atSlot_engFrame c port t r).memKept
  have hreqs := s.atSlot_reqs c port t r hr
  have hinj : (s.atSlot c port t r).flag F.SP_CTRL_INJ_ARM c = false := by
    rw [State.flag, hk.fget F.SP_CTRL_INJ_ARM c 0 0 (by rw [List.mem_singleton]; exact RegId.addr_ne_skimmed _ _ _ _ rfl)]
    exact hi
  have hbyte := s.atSlot_spByte port t r c (64 * r.line)
  have hbad' := (s.atSlot_lineBad port t r.line r c).trans hbad
  obtain ⟨bytes, hafter, hlen, hrep, hadd⟩ := lineAfter_served w old (s.spLine_length c r.line) hl hop
  have hwrite := State.spWrite_plain _ c r.line port w bytes ((s.atSlot_spLine port t r.line r c).symm ▸ hafter) hp hbad' hinj
  rw [hwrite] at hexec
  generalize s.atSlot c port t r = u at *
  refine ⟨_, hexec, fun h0 i hi => ?_, fun h4 e he => ?_, fun a ha => ?_, fun k => ?_, hm.1.2.2, hreqs, hm.2, hk⟩
  · rw [State.spLine_put _ _ _ _ _ hlen]
    exact hrep h0 i hi
  · rw [State.spLine_put _ _ _ _ _ hlen]
    exact hadd h4 e he
  · rw [spRange, ← hbyte] at ha
    show mget 0 (mputs 0 u.sp (u.spByte c (64 * r.line)) bytes) a = mget 0 s.sp a
    rw [mget_mputs, hlen, if_neg ha]
    exact hm.1.1 a
  · show mget 0 (mput 0 u.spCode (u.lineKey c r.line) 0) k = mget 0 s.spCode k
    rw [mget_mput, ← hm.1.2.1 k]
    split
    next hk' => rw [hk', State.lineBad_eq_false.1 hbad']
    next => rfl

end Sys2Proof.Machine
end

section
/-! # Lines read at a port (R208, R221) -/

namespace Sys2Proof.Machine
open Sys2Proof

variable (s : State) (c : Nat)

/-! ## A detection (R221, R227) -/

section
variable (line port : Nat)

/-- The registers that a detection in word mode writes. -/
def State.spDetectRegs (s : State) (c line port : Nat) : State :=
  ((s.fset F.SP_STATUS_DETECTED 1 c).count .SP_DETECTS 1 c).wr .SP_DET_INFO (BitVec.ofNat 64 (line + port * 2 ^ 20)) c

theorem State.spDetect_eq : s.spDetect c line port = (s.spDetectRegs c line port).raiseLim 0x2001 kCORE c
    (line + port * 2 ^ 20 + (s.spDetectRegs c line port).rerunCount c * 2 ^ 24) := by
  unfold State.spDetect
  extract_lets s1 s2 s3
  rfl

/-- What a failed check of a line read at a port does. -/
def State.readDetect (s : State) (c line port : Nat) : State :=
  if portLatches port then (s.spDetect c line port).latchRerun c 0 else s.spDetect c line port

theorem State.spRead_right (h : s.lineBad c line = false) : s.spRead c line port = (s, s.spLine c line, false) := by
  simp only [State.spRead, h, Bool.false_eq_true, if_false]

theorem State.spRead_wrong (h : s.lineBad c line = true) :
    s.spRead c line port = (s.readDetect c line port, s.spLine c line, true) := by
  simp only [State.spRead, h, if_true, State.readDetect]

@[simp] theorem State.readDetect_memories : (s.readDetect c line port).memories = s.memories := by
  simp [State.readDetect]

theorem State.count_spc (r : RegId) (n i : Nat) : (s.count r n i).spc = s.spc := by
  obtain ⟨l, e⟩ := s.count_eq r n i 0 0
  rw [e]

theorem State.spDetectRegs_keeps : (s.spDetectRegs c line port).ep = s.ep ∧ (s.spDetectRegs c line port).spc = s.spc := by
  rw [State.spDetectRegs, State.wr_ep, State.wr_spc, State.count_spc, (State.count_keeps _ _ _ _).2.1, State.fset_ep, State.fset_spc]
  exact ⟨rfl, rfl⟩

theorem State.spDetect_keeps : (s.spDetect c line port).ep = s.ep ∧ (s.spDetect c line port).spc = s.spc := by
  obtain ⟨-, hep, hspc, -⟩ := (s.spDetectRegs c line port).raiseLim_keeps 0x2001 kCORE c
    (line + port * 2 ^ 20 + (s.spDetectRegs c line port).rerunCount c * 2 ^ 24)
  obtain ⟨hep', hspc'⟩ := s.spDetectRegs_keeps c line port
  rw [State.spDetect_eq]
  exact ⟨hep.trans hep', hspc.trans hspc'⟩

/-- A core's registers after a detection are those that it wrote: its event writes others. -/
theorem State.rd_spDetect (r : RegId) (hb : r.defn.blk.place.1 = 0x4000000) :
    (s.spDetect c line port).rd r c = (s.spDetectRegs c line port).rd r c := by
  have hr := (s.spDetectRegs c line port).raiseLim_regsKept 0x2001 kCORE c
    (line + port * 2 ^ 20 + (s.spDetectRegs c line port).rerunCount c * 2 ^ 24)
    [RegId.MOD_EVT_WR.addr 0 0 0, RegId.MOD_EVT_LOST.addr 0 0 0] (.head _) (.tail _ (.head _))
  rw [State.spDetect_eq]
  exact hr.rd_core r c 0 0 hb (by simp [RegId.addr, RegId.defn, Block.place])

theorem State.readDetect_spCore : (s.readDetect c line port).spCore c = s.spCore c := by
  have h := spCore_congr (s.spDetect_keeps c line port).2 c
  unfold State.readDetect
  split
  · exact h
  · exact h

theorem State.readDetect_rerun : ((s.readDetect c line port).core c).rerun
    = if portLatches port then (s.core c).rerun ||| 2 ^ 0 else (s.core c).rerun := by
  have h := core_congr (s.spDetect_keeps c line port).1 c
  unfold State.readDetect
  split
  · rw [State.latchRerun, State.core_setCore_same, h]
  · rw [h]

theorem State.rd_readDetect (r : RegId) (hb : r.defn.blk.place.1 = 0x4000000) :
    (s.readDetect c line port).rd r c = (s.spDetectRegs c line port).rd r c := by
  rw [← s.rd_spDetect c line port r hb]
  unfold State.readDetect
  split
  · exact State.rd_congr _ _ _ _ _ _ (State.latchRerun_keeps _ c 0).2.1
  · rfl

/-- A detection is shown, counted and described. -/
theorem State.readDetect_regs : (s.readDetect c line port).flag F.SP_STATUS_DETECTED c = true
    ∧ ((s.readDetect c line port).rd .SP_DETECTS c).toNat = min ((s.rd .SP_DETECTS c).toNat + 1) (2 ^ 64 - 1)
    ∧ (s.readDetect c line port).fget F.SP_DET_INFO_LINE c = line % 2 ^ 17 := by
  refine ⟨?_, ?_, ?_⟩
  · rw [State.flag, State.fget, s.rd_readDetect c line port _ rfl, State.spDetectRegs]
    simp (disch := decide) only [State.rd_wr_reg, State.rd_count_reg]
    exact beq_iff_eq.2 (s.fget_fset_same F.SP_STATUS_DETECTED 1 c 0 0 (by decide) (by decide))
  · rw [s.rd_readDetect c line port _ rfl, State.spDetectRegs]
    simp (disch := decide) only [State.rd_wr_reg, State.rd_count_same, State.fset]
  · rw [State.fget, s.rd_readDetect c line port _ rfl, State.spDetectRegs, State.rd_wr_same, BitVec.toNat_ofNat,
      bits_congr_mod (b := line) (n := 17) _ 16 0 (by decide)]
    · simp [bits]
    · omega

end

/-! ## The line served -/

/-- A port's only request, an untagged read, is served in its slot. -/
theorem State.serve_read (port t : Nat) (r : SpReq) (hr : mget [] (s.spCore c).reqs port = [r]) (hw : r.wr = none)
    (hrow : (s.spCore c).rowHeld (r.line % 32 / 8) = false) (ht : s.slotFor c port (r.line % 32) (max r.tb s.clk.tb) = some t)
    (hu : Untagged s c r.line) :
    s.serve c port (r.line % 32) = some ⟨((s.atSlot c port t r).spRead c r.line port).1, r,
      ((s.atSlot c port t r).spRead c r.line port).2.1, ((s.atSlot c port t r).spRead c r.line port).2.2, t⟩ := by
  have hk : RegsKept s (s.atTb t) [RegId.CLK_SKIMMED.addr 0 0 0] := s.atTb_regsKept t _ (.head _)
  have htag := (s.atTb t).tagAccess_untagged c r.line port none (hk.untagged hu)
  unfold State.serve
  simp only [hr, List.find?_cons, beq_self_eq_true, hrow, Bool.false_eq_true, if_false, ht, hw, Option.map_none, htag, s.atTb_spCore]
  rfl

/-- A read served at a port of the vector engine: its line waits there, beside what the read itself did. -/
def vxSrcRead (c : Nat) (r : SpReq) (o : State × List Byte × Bool) (t : Nat) : State :=
  o.1.setSp c { o.1.spCore c with rx := (o.1.spCore c).rx ++ [⟨r.use, o.2.1, t + 2, o.2.2⟩] }

theorem exec_scratchpadRead (c : Core) (port : Fin 16) (bank : Fin 32) (r : SpReq) (t : Nat)
    (hr : mget [] (s.spCore c).reqs port = [r]) (hb : r.line % 32 = bank.val) (huse : r.use = .vxSrc 0 0 0) (hw : r.wr = none)
    (hu : Untagged s c r.line) (hrow : (s.spCore c).rowHeld (bank.val / 8) = false)
    (ht : s.slotFor c port bank (max r.tb s.clk.tb) = some t) :
    exec (.scratchpadAccessServed c port bank) s
      = .next (vxSrcRead c r ((s.atSlot c port t r).spRead c r.line port) t) := by
  show execScratchpadAccessServed c port bank s = _
  rw [← hb] at hrow ht
  unfold execScratchpadAccessServed
  rw [← hb, s.serve_read c port t r hr hw hrow ht hu]
  simp only [State.portServed, huse, vxSrcRead]

/-- Settles O19: a line whose code is right changes nothing but the port's records, and a wrong one is a detection. -/
theorem scratchpadReadServed : Obligations.ScratchpadReadServed := by
  intro s c port bank r hr hb huse hw hu hrow hslot bad
  obtain ⟨t, ht⟩ := Option.isSome_iff_exists.1 hslot
  have hexec := exec_scratchpadRead s c port bank r t hr hb huse hw hu hrow ht
  have hk := s.atSlot_regsKept c port t r
  have hm := (s.atSlot_engFrame c port t r).memKept
  have hreqs := s.atSlot_reqs c port t r hr
  have hcore : (s.atSlot c port t r).core c = s.core c := s.atTb_core t c
  have hrx : ((s.atSlot c port t r).spCore c).rx = (s.spCore c).rx := by
    rw [State.atSlot, State.spCore_setSp_same, SpCore.servedAt]
  have hline := s.atSlot_spLine port t r.line r c
  have hbad : (s.atSlot c port t r).lineBad c r.line = bad := s.atSlot_lineBad port t r.line r c
  have hcount : (s.atSlot c port t r).rd .SP_DETECTS c = s.rd .SP_DETECTS c :=
    hk.rd .SP_DETECTS c 0 0 (by rw [List.mem_singleton]; exact RegId.addr_ne_skimmed _ _ _ _ rfl)
  generalize s.atSlot c port t r = u at *
  refine ⟨_, hexec, ?_⟩
  cases hbd : bad with
  | false =>
    rw [u.spRead_right c r.line port (hbad.trans hbd)]
    refine ⟨⟨⟨r.use, u.spLine c r.line, t + 2, false⟩, ?_, rfl, hline, rfl⟩, ?_, hm, fun _ => ⟨hk, hcore⟩,
      fun h => absurd h Bool.false_ne_true⟩
    · rw [vxSrcRead, State.spCore_setSp_same, hrx]
    · rw [vxSrcRead, State.spCore_setSp_same]
      exact hreqs
  | true =>
    rw [u.spRead_wrong c r.line port (hbad.trans hbd)]
    obtain ⟨hflag, hn, hinfo⟩ := u.readDetect_regs c r.line port
    refine ⟨⟨⟨r.use, u.spLine c r.line, t + 2, true⟩, ?_, rfl, hline, rfl⟩, ?_, ?_, fun h => absurd h Bool.true_eq_false.mp,
      fun _ => ⟨hflag, ?_, hinfo, ?_⟩⟩
    · rw [vxSrcRead, State.spCore_setSp_same, State.readDetect_spCore, hrx]
    · rw [vxSrcRead, State.spCore_setSp_same, State.readDetect_spCore]
      exact hreqs
    · exact hm.trans (MemKept.of_memories (by simp [vxSrcRead]))
    · rw [← hcount]
      exact hn
    · rw [← hcore]
      exact u.readDetect_rerun c r.line port

end Sys2Proof.Machine
end

section
/-! # Row mode and the host's window on it (R222, R224, R225, R464, R475) -/

namespace Sys2Proof.Machine
open Sys2Proof

variable (s : State) (c : Nat)

/-! ## What a scratchpad holds -/

/-- A core stays where it is while no register of its segment's spares is written. -/
theorem RegsKept.phys_of {s t : State} {l : List Nat} (h : RegsKept s t l) (c : Core)
    (hl : ∀ j < 600, RegId.MOD_SPARE_SKIP.addr 0 j 0 ∉ l) : t.phys c = s.phys c := by
  have hseg : c.val / 150 * 5 + c.val % 150 / 30 < 600 := by have := c.isLt; omega
  simp only [State.phys]
  rw [h.fget F.MOD_SPARE_SKIP_SKIP_A 0 _ 0 (hl _ hseg), h.fget F.MOD_SPARE_SKIP_SKIP_B 0 _ 0 (hl _ hseg)]

/-- Registers of the cores' blocks are none of those of the spares. -/
theorem spareSkip_ne_core (r : RegId) (hb : r.defn.blk.place.1 = 0x4000000) (i j : Nat) (hj : j < 600) :
    RegId.MOD_SPARE_SKIP.addr 0 j 0 ≠ r.addr i 0 0 := by
  rw [show r.addr i 0 0 = r.defn.blk.place.1 + i * r.defn.blk.place.2.1 + r.defn.off from by simp [RegId.addr], hb]
  simp only [RegId.addr, RegId.defn, Block.place]
  omega

section
variable {s c} {t : State} (hm : SpKept s t) (hp : t.phys c = s.phys c)
include hm hp

theorem SpKept.spBytes (b n : Nat) : t.spBytes c b n = s.spBytes c b n := by
  rw [State.spBytes, State.spBytes, State.spByte, State.spByte, hp]
  exact mgets_congr _ _ _ _ _ fun j _ _ => hm.1 j

theorem SpKept.spRow (row : Nat) : t.spRow c row = s.spRow c row := SpKept.spBytes hm hp _ _

theorem SpKept.lineBad (line : Nat) : t.lineBad c line = s.lineBad c line := by
  rw [State.lineBad, State.lineBad, State.lineKey, State.lineKey, hp, hm.2.1]

theorem SpKept.rowBad (row : Nat) : t.rowBad c row = s.rowBad c row := by
  simp only [State.rowBad, SpKept.lineBad hm hp]

end

/-! ## A row (R204, R218, R224) -/

/-- The bytes that have been written into a row are read there. -/
theorem State.spRow_rowWrite (row : Nat) (d : List Byte) (hl : d.length = 512) : (s.rowWrite c row d).spRow c row = d := by
  show mgets 0 (mputs 0 s.sp (s.spByte c (512 * row)) d) (s.spByte c (512 * row)) 512 = d
  rw [← hl, mgets_mputs]

/-- A key left out by a fold of erasures, or not there before, is not there after it. -/
theorem mget_foldl_merase (l : List Nat) (f : Nat → Nat) (m : SMap Nat) (k : Nat) (h : mget 0 m k = 0 ∨ ∃ i ∈ l, f i = k) :
    mget 0 (l.foldl (fun m i => merase m (f i)) m) k = 0 := by
  induction l generalizing m with
  | nil => simpa using h
  | cons a l ih =>
    refine ih _ ?_
    rw [mget_merase]
    obtain h | ⟨i, hi, rfl⟩ := h
    · rw [h]
      exact .inl (ite_self _)
    · obtain rfl | hi := List.mem_cons.1 hi
      · exact .inl (if_pos rfl)
      · exact .inr ⟨i, hi, rfl⟩

/-- A row that has been written has fresh codes. -/
theorem State.lineBad_rowWrite (row i : Nat) (d : List Byte) (hi : i < 8) : (s.rowWrite c row d).lineBad c (8 * row + i) = false :=
  State.lineBad_eq_false.2 <|
    mget_foldl_merase _ (fun i => s.lineKey c (8 * row + i)) _ _ (.inr ⟨i, List.mem_range.2 hi, rfl⟩)

/-! ## A row access answers (R222, R224) -/

/-- A packet that a core sends stands last among those under way. -/
theorem State.inject_flights (p : Packet) (t : Nat) :
    (s.inject c p t).flights = s.flights ++ [⟨p, .router c, upTo 2 t + 4, 4⟩] := by
  obtain ⟨l, e⟩ := s.count_eq .FB_INJECTED 1 c 0 0
  rw [State.inject, e]
  rfl

theorem State.inject_clk (p : Packet) (t : Nat) : (s.inject c p t).clk = s.clk := by
  obtain ⟨l, e⟩ := s.count_eq .FB_INJECTED 1 c 0 0
  rw [State.inject, e]
  rfl

theorem State.inject_spc (p : Packet) (t : Nat) : (s.inject c p t).spc = s.spc := s.count_spc .FB_INJECTED 1 c

/-- The core's row accesses are done, and a packet has answered the only one. -/
def RowAnswered (s : State) (c : Nat) (q : Packet) (t : State) : Prop :=
  (t.spCore c).rows = [] ∧ t.flights = s.flights ++ [⟨q, .router c, upTo 2 t.clk.tb + 4, 4⟩]
    ∧ (∀ k, mget 0 t.spTag k = mget 0 s.spTag k) ∧ StacksKept s t
    ∧ RegsKept s t [RegId.CLK_SKIMMED.addr 0 0 0, RegId.FB_INJECTED.addr c 0 0]

/-- The only row access leaves its queue in its NCLK. -/
def State.rowTaken (s : State) (c : Nat) : State := (s.atTb (upTo 2 s.clk.tb)).setSp c { s.spCore c with rows := [] }

theorem exec_rowAccessServed (c : Core) (g : Fin 4) (r : RowReq) (p : Packet) (hr : (s.spCore c).rows = [r]) (ha : r.agent = 4)
    (hg : r.row % 4 = g.val) (hp : r.pkt = some p) : exec (.rowAccessServed c g) s = .next ((s.rowTaken c).rowHost c r p) := by
  have hnext : (s.spCore c).rowNext g = some r := by
    simp [SpCore.rowNext, hr, ha, hg]
  show execRowAccessServed c g s = _
  unfold execRowAccessServed
  simp only [hnext, hp, State.atTb_spCore, hr, List.erase_cons_head, State.rowTaken]

theorem State.rowTaken_engFrame : EngFrame c [] s (s.rowTaken c) := ((EngFrame.refl s c []).atTb _).setSp _

theorem StacksKept.trans {s t u : State} (h : StacksKept s t) (h' : StacksKept t u) : StacksKept s u :=
  ⟨fun a => (h'.1 a).trans (h.1 a), fun k => (h'.2.1 k).trans (h.2.1 k), fun k => (h'.2.2 k).trans (h.2.2 k)⟩

/-- A packet that answers from a state in which the access has been taken, and its memory only at the row. -/
theorem RowAnswered.inject {s u : State} {c : Nat} (q : Packet) (hrows : (u.spCore c).rows = []) (hf : u.flights = s.flights)
    (htag : ∀ k, mget 0 u.spTag k = mget 0 s.spTag k) (hst : StacksKept s u) (hk : RegsKept s u [RegId.CLK_SKIMMED.addr 0 0 0]) :
    RowAnswered s c q (u.inject c q u.clk.tb) := by
  obtain ⟨-, hm, hr⟩ := u.inject_keeps c q u.clk.tb
  refine ⟨?_, ?_, fun k => (hm.1.2.2 k).trans (htag k), hst.trans hm.2, (hk.mono (by simp)).trans (hr.mono (by simp))⟩
  · rw [spCore_congr (u.inject_spc c q u.clk.tb), hrows]
  · rw [u.inject_flights, u.inject_clk, hf]

theorem rowAccessServed : Claim.RowAccessServed := by
  intro s c g r p hr ha hg hp answers
  have hexec := exec_rowAccessServed s c g r p hr ha hg hp
  have hf := s.rowTaken_engFrame c
  have hm := hf.memKept
  have hrows : ((s.rowTaken c).spCore c).rows = [] := by rw [State.rowTaken, State.spCore_setSp_same]
  have hbyte : (s.rowTaken c).spByte c (512 * r.row) = s.spByte c (512 * r.row) := by
    rw [State.spByte, State.spByte, hf.1.phys c]
  have hflights : (s.rowTaken c).flights = s.flights := (congrArg State.flights hf.2.2 :)
  refine ⟨fun d hd hl => ⟨_, hexec, ?_⟩, fun hd hbad => ⟨_, hexec, ?_⟩⟩
  · have hput : (s.rowTaken c).rowHost c r p = ((s.rowTaken c).rowWrite c r.row d).inject c (packetReply p Packet.WACK stOK)
        (s.rowTaken c).clk.tb := by rw [State.rowHost, hd]
    rw [hput]
    generalize s.rowTaken c = u at *
    obtain ⟨-, hm', hr'⟩ := (u.rowWrite c r.row d).inject_keeps c (packetReply p Packet.WACK stOK) u.clk.tb
    have hphys := hr'.phys_of c fun j hj => by
      rw [List.mem_singleton]
      exact spareSkip_ne_core _ rfl _ _ hj
    refine ⟨?_, fun i hi => ?_, fun a ha => ?_, RowAnswered.inject (u := u.rowWrite c r.row d) _ hrows hflights hm.1.2.2 hm.2 hf.1⟩
    · rw [hm'.1.spRow hphys, State.spRow_rowWrite _ _ _ _ hl]
    · rw [hm'.1.lineBad hphys, State.lineBad_rowWrite _ _ _ _ _ hi]
    · rw [spRange, ← hbyte] at ha
      rw [hm'.1.1, u.rowWrite_get c r.row a d, hl, if_neg ha, hm.1.1]
  · have hread : (s.rowTaken c).rowHost c r p = (s.rowTaken c).inject c (packetReply p Packet.RDR stOK
        (((s.spRow c r.row).drop (p.addr % 512)).take (p.lenm1 + 1))) (s.rowTaken c).clk.tb := by
      have hphys := hf.1.phys c
      rw [State.rowHost, hd]
      simp only [hm.1.rowBad hphys, hbad, hm.1.spRow hphys]
    rw [hread]
    generalize s.rowTaken c = u at *
    exact ⟨fun a => ((u.inject_keeps c _ _).2.1.1.1 a).trans (hm.1.1 a), RowAnswered.inject _ hrows hflights hm.1.2.2 hm.2 hf.1⟩

/-! ## The host asks for a row (R225, R464, R475) -/

/-- An access within one granule is cut nowhere. -/
theorem cutAt_one (g b n : Nat) (hn : 0 < n) (h : b % g + n ≤ g) : cutAt g b n = [(0, n)] := by
  have h1 : (b % g + n + g - 1) / g = 1 := Nat.div_eq_of_lt_le (by omega) (by omega)
  unfold cutAt
  rw [if_neg (by omega), h1]
  simp only [List.range_succ, List.range_zero, List.nil_append, List.map_cons, List.map_nil, if_true, Nat.zero_add, Nat.one_mul,
    Nat.sub_zero]
  rw [Nat.min_eq_left (by omega)]

/-- The packet of an access to one row, as the host port sends it. -/
def bar4Packet (s : State) (typ c b n : Nat) (d : List Byte) : Packet :=
  { rowPacket typ c b n d with op := 8 * s.host.nextId }

/-- The host port has asked core c for a row: its request waits for one answer, and the packet leaves. -/
def State.bar4Asked (s : State) (r : HostReq) (p : Packet) : State :=
  { s with
    host := { s.host with nextId := s.host.nextId + 1, reqs := [r] }
    flights := s.flights ++ [⟨p, .router (edgeCore destHost (p.dest / 150) (p.dest % 150)), upTo 2 s.clk.tb + 4, 5⟩] }

/-- The record of a request with one packet, once the packet has left. -/
def State.bar4Req (s : State) (tag n : Nat) (write : Bool) : HostReq :=
  { id := s.host.nextId, tag := tag, bar4 := true, write := write, n := n, wait := [], left := 1 }

theorem State.hostRequest_one (tag n typ c b k : Nat) (write : Bool) (d : List Byte) (hr : s.host.reqs = []) (hc : c < 18000) :
    s.hostRequest tag n true write [rowPacket typ c b k d]
      = s.bar4Asked (s.bar4Req tag n write) (bar4Packet s typ c b k d) := by
  cases write with
  | true =>
    simp [State.hostRequest, State.hostIssue, hr, State.rimSend, rowPacket, hc, State.send, State.bar4Asked, State.bar4Req,
      bar4Packet, opHost]
  | false =>
    simp [State.hostRequest, State.hostIssue, State.setReq, hr, State.rimSend, rowPacket, hc, State.send, State.bar4Asked,
      State.bar4Req, bar4Packet, opHost]

/-- What a refused access leaves: nothing sent, the refusal counted. -/
def Bar4Refused (s : State) (c : Nat) (t : State) : Prop :=
  (t.rd .SP_BAD_ACCESSES c).toNat = min ((s.rd .SP_BAD_ACCESSES c).toNat + 1) (2 ^ 64 - 1) ∧ MemKept s t

theorem State.msix_done (v : Nat) : (s.msix v).host.done = s.host.done := by
  unfold State.msix
  split <;> rfl

theorem State.raise_done (code kind idx detail : Nat) : (s.raise code kind idx detail).host.done = s.host.done := by
  unfold State.raise
  extract_lets wr n x s1 s2 tb s3 s4
  have h2 : s2.host.done = s.host.done := by
    obtain ⟨h, e⟩ := s1.strike_eq code kind idx
    rw [show s2 = _ from e]
  split
  · obtain ⟨l, e⟩ := s2.count_eq .MOD_EVT_LOST 1 0 0 0
    rw [e]
    exact h2
  · split
    · rw [State.msix_done]
      exact h2
    · exact h2

theorem State.raiseLim_done (code kind idx detail : Nat) : (s.raiseLim code kind idx detail).host.done = s.host.done := by
  obtain e | ⟨m, e⟩ := s.raiseLim_cases code kind idx detail
  · rw [e]
  · rw [e, State.raise_done]

theorem State.spBadAccess_refused (reason : Nat) : Bar4Refused s c (s.spBadAccess c reason) := by
  have hr := (s.count .SP_BAD_ACCESSES 1 c).raiseLim_regsKept 0x2004 kCORE c reason
    [RegId.MOD_EVT_WR.addr 0 0 0, RegId.MOD_EVT_LOST.addr 0 0 0] (.head _) (.tail _ (.head _))
  refine ⟨?_, MemKept.of_memories (State.spBadAccess_memories _ _ _)⟩
  rw [State.spBadAccess, hr.rd_core _ _ _ _ rfl (by simp [RegId.addr, RegId.defn, Block.place]), State.rd_count_same]

theorem State.spBadAccess_host (reason : Nat) : (s.spBadAccess c reason).host.done = s.host.done := by
  obtain ⟨l, e⟩ := s.count_eq .SP_BAD_ACCESSES 1 c 0 0
  rw [State.spBadAccess, State.raiseLim_done, e]

theorem State.spBadAccess_flights (reason : Nat) : (s.spBadAccess c reason).flights = s.flights := by
  obtain ⟨l, e⟩ := s.count_eq .SP_BAD_ACCESSES 1 c 0 0
  obtain ⟨m, g, h, p, seen, e', -⟩ := (s.count .SP_BAD_ACCESSES 1 c).raiseLim_eq 0x2004 kCORE c reason
  rw [State.spBadAccess, e', e]

/-- The host port is open, and the n bytes are of one row of a core's scratchpad (R464, R476, R492). -/
structure Bar4Open (s : State) (off n : Nat) : Prop where
  up : s.hostUp = true
  d0 : s.host.d3hot = false
  windows : s.windowsOpen = true
  cores : s.flag F.PWR_STATUS_CORES_READY = true
  core : s.bar4Core off < 18000
  some : 0 < n
  row : off % slotBytes % 512 + n ≤ 512
  inside : off % slotBytes + n ≤ 0x50_0000
  idle : s.host.reqs = []

section
variable {s} {off : BitVec 34} {n : Fin 4097} (tag : Fin 16384)

/-- An open access meets neither an unbacked core nor bytes beyond its scratchpad. -/
theorem Bar4Open.backed {n : Nat} (h : Bar4Open s off.toNat n) :
    ¬ (18000 ≤ s.bar4Core off.toNat ∨ 0x50_0000 < off.toNat % slotBytes + n) := by
  have := h.core
  have := h.inside
  omega

theorem Bar4Open.nonempty {n : Nat} (h : Bar4Open s off.toNat n) : (n == 0) = false := by
  have := h.some
  exact beq_false_of_ne (by omega)

theorem exec_bar4Read (h : Bar4Open s off.toNat n) (ha : s.rowAvail (s.bar4Core off.toNat) = true) :
    exec (.bar4Read tag off n) s = .next (s.bar4Asked (s.bar4Req tag n false)
      (bar4Packet s Packet.RD (s.bar4Core off.toNat) (off.toNat % slotBytes) n [])) := by
  show execBar4Read tag off n s = _
  unfold execBar4Read
  simp only [h.up, h.d0, h.windows, h.cores, ha, h.nonempty, if_neg h.backed, cutAt_one 512 _ _ h.some h.row, List.map_cons,
    List.map_nil, Nat.add_zero, s.hostRequest_one _ _ _ _ _ _ _ _ h.idle h.core, Bool.not_true, Bool.or_self, Bool.false_eq_true,
    if_false]

theorem exec_bar4Read_refused (h : Bar4Open s off.toNat n) (ha : s.rowAvail (s.bar4Core off.toNat) = false) :
    exec (.bar4Read tag off n) s = .next ((s.spBadAccess (s.bar4Core off.toNat) 3).hostDone tag 4 [] false) := by
  show execBar4Read tag off n s = _
  unfold execBar4Read
  simp only [h.up, h.d0, h.windows, h.cores, ha, h.nonempty, if_neg h.backed, Bool.not_true, Bool.not_false, Bool.or_self,
    Bool.false_eq_true, if_false, if_true]

/-- A write of a row's 512 bytes: all of them enabled ask the core for the row, some of them are refused. -/
theorem exec_bar4Write (data : List Byte) (be : List Bool) (hl : data.length = 512) (hbe : be.length = 512) (hany : be.any id = true)
    (h : Bar4Open s off.toNat 512) (ha : s.rowAvail (s.bar4Core off.toNat) = true) :
    exec (.bar4Write off data be) s = .next (if be.all id then s.bar4Asked (s.bar4Req 0 512 true)
      (bar4Packet s Packet.WR (s.bar4Core off.toNat) (off.toNat % slotBytes) 512 data) else s.spBadAccess (s.bar4Core off.toNat) 4) := by
  have hdata : data.take 512 = data := List.take_of_length_le (by omega)
  have hen : be.take 512 = be := List.take_of_length_le (by omega)
  show execBar4Write off data be s = _
  unfold execBar4Write
  simp only [h.up, h.d0, h.windows, h.cores, ha, hl, h.nonempty, if_neg h.backed, cutAt_one 512 _ _ h.some h.row, Bool.not_true,
    Bool.or_self, Bool.false_eq_true, if_false, List.drop_zero, hen, List.filter_cons, hany, if_true, List.filter_nil, List.all_cons,
    List.all_nil, hbe, beq_self_eq_true, Bool.true_and, Bool.and_true]
  cases be.all id with
  | true => simp only [if_true, List.map_cons, List.map_nil, Nat.add_zero, List.drop_zero, hdata,
      s.hostRequest_one _ _ _ _ _ _ _ _ h.idle h.core]
  | false => simp only [Bool.false_eq_true, if_false, List.map_nil, State.hostRequest, List.isEmpty_nil, if_true]

end

/-- Bytes that are all enabled, and all but the last. -/
theorem enabled_all (n : Nat) (hn : 0 < n) : (List.replicate n true).any id = true ∧ (List.replicate n true).all id = true := by
  rw [List.any_replicate, List.all_replicate, if_neg (by omega), if_neg (by omega)]
  exact ⟨rfl, rfl⟩

theorem enabled_butLast (n : Nat) (hn : 0 < n) : (List.replicate n true ++ [false]).length = n + 1
    ∧ (List.replicate n true ++ [false]).any id = true ∧ (List.replicate n true ++ [false]).all id = false := by
  rw [List.length_append, List.length_replicate, List.any_append, (enabled_all n hn).1, List.all_append]
  exact ⟨rfl, rfl, Bool.and_false _⟩

theorem bar4Accesses : Claim.Bar4Accesses := by
  intro s tag off n data c b hup hd hw hcr hc hr sends row
  have hasked (typ k w : Nat) (write : Bool) (d : List Byte) :
      sends (row typ k d) (s.bar4Asked (s.bar4Req w k write) (bar4Packet s typ c b k d)) :=
    ⟨rfl, ⟨_, rfl, rfl, rfl⟩, fun _ _ _ => rfl, MemKept.of_eq rfl rfl rfl rfl rfl rfl⟩
  refine ⟨fun hn hrow hin => ?_, fun hb hin hl ha => ?_⟩
  · have h : Bar4Open s off.toNat n := ⟨hup, hd, hw, hcr, hc, hn, hrow, hin, hr⟩
    refine ⟨fun ha => ⟨_, exec_bar4Read tag h ha, hasked _ _ _ _ _⟩, fun ha => ⟨_, exec_bar4Read_refused tag h ha, ?_, ?_⟩⟩
    · exact congrArg (· ++ [⟨tag, 4, [], false⟩]) (s.spBadAccess_host c 3)
    · exact s.spBadAccess_refused c 3
  · have hrow : b % 512 + 512 ≤ 512 := by omega
    have hend : b + 512 ≤ 0x50_0000 := by omega
    have h : Bar4Open s off.toNat 512 := ⟨hup, hd, hw, hcr, hc, by decide, hrow, hend, hr⟩
    obtain ⟨hany, hall⟩ := enabled_all 512 (by decide)
    obtain ⟨hlen, hany', hall'⟩ := enabled_butLast 511 (by decide)
    have hwhole := exec_bar4Write data _ hl List.length_replicate hany h ha
    have hpart := exec_bar4Write data _ hl hlen hany' h ha
    rw [hall, if_pos rfl] at hwhole
    rw [hall', if_neg Bool.false_ne_true] at hpart
    exact ⟨⟨_, hwhole, hasked _ _ _ _ _⟩, ⟨_, hpart, s.spBadAccess_flights c 4, s.spBadAccess_refused c 4⟩⟩

/-- Settles O20: a row access is taken and answered in one NCLK, and an access of BAR4 to one row is one request of one packet. -/
theorem rowAccesses : Obligations.RowAccesses := ⟨rowAccessServed, bar4Accesses⟩

end Sys2Proof.Machine
end

section
/-! # The scratchpad's controls (R207, R213, R221, R223, R224) -/

namespace Sys2Proof.Machine
open Sys2Proof

variable (s : State) (c : Nat)

/-! ## A scratchpad cleared (R218, R224) -/

/-- What a map holds once the entries of some keys have been left out. -/
theorem mget_filter_key {α : Type} (d : α) (p : Nat → Bool) (m : SMap α) (k : Nat) :
    mget d (m.filter fun e => p e.1) k = if p k then mget d m k else d := by
  induction m with
  | nil => exact (ite_self d).symm
  | cons e m ih =>
    rw [List.filter_cons]
    by_cases he : p e.1 = true
    · rw [if_pos he, mget, mget, ih]
      by_cases hk : e.1 = k
      · rw [if_pos hk, if_pos hk, if_pos (hk ▸ he)]
      · rw [if_neg hk, if_neg hk]
    · rw [if_neg he, ih, mget]
      by_cases hk : e.1 = k
      · rw [if_neg (hk ▸ he), if_neg (hk ▸ he)]
      · rw [if_neg hk]

theorem mgets_nil (a n : Nat) : mgets 0 ([] : Memory) a n = zeros n := by
  induction n generalizing a with
  | zero => rfl
  | succ n ih => exact congrArg (0 :: ·) (ih (a + 1))

/-- A cleared position holds zeros, and every other one what it held. -/
theorem State.spZero_sp (pos a : Nat) : mget 0 (s.spZero pos).sp a = if a / slotBytes = pos then 0 else mget 0 s.sp a := by
  rw [State.spZero, mget_filter_key 0 (fun k => k / slotBytes != pos)]
  by_cases h : a / slotBytes = pos
  · rw [if_pos h, if_neg (by simp [h])]
  · rw [if_neg h, if_pos (by simp [h])]

/-- Its lines have fresh codes. -/
theorem State.spZero_lineBad (line : Nat) (h : line < spLines) : (s.spZero (s.phys c)).lineBad c line = false := by
  have hkey : s.lineKey c line / spLines = s.phys c := by
    rw [State.lineKey, Nat.mul_comm, Nat.mul_add_div (Nat.zero_lt_of_lt h), Nat.div_eq_of_lt h, Nat.add_zero]
  refine State.lineBad_eq_false.2 ?_
  show mget 0 (s.spCode.filter fun e => e.1 / spLines != s.phys c) (s.lineKey c line) = 0
  rw [mget_filter_key 0 (fun k => k / spLines != s.phys c), if_neg (by simp [hkey])]

theorem State.spZero_spBytes (b n : Nat) (h : b + n ≤ slotBytes) : (s.spZero (s.phys c)).spBytes c b n = zeros n := by
  show mgets 0 (s.spZero (s.phys c)).sp (s.phys c * slotBytes + b) n = zeros n
  rw [← mgets_nil (s.phys c * slotBytes + b)]
  refine mgets_congr _ _ _ _ _ fun j hj hj' => ?_
  have hpos : j / slotBytes = s.phys c := Nat.div_eq_of_lt_le (by omega) (by rw [Nat.add_mul]; omega)
  rw [State.spZero_sp, if_pos hpos]
  rfl

/-! ## INJ_ARM, BIST and the slot plan -/

/-- A flag that has been set, and one that has been cleared. -/
theorem State.flag_fset_same (f : Fld) (b : Bool) (h : f.lo = f.hi ∧ f.hi < 64) : (s.fset f (b2n b) c).flag f c = b := by
  obtain ⟨hlo, hhi⟩ := h
  rw [State.flag, s.fget_fset_same f (b2n b) c 0 0 (by omega) hhi]
  cases b <;> simp [b2n, hlo]

/-- The plan no longer waits. -/
def State.planTaken (s : State) (c : Nat) : State := s.setSp c { s.spCore c with planWait := false }

/-- What becomes of a plan that no longer waits: it comes into force, or it is refused (R213). -/
def State.planDecide (s : State) (c : Nat) : State :=
  let lo := s.fget F.SP_PLAN_LO_ENTRIES c
  let hi := s.fget F.SP_PLAN_HI_ENTRIES c
  if planValid lo hi then
    let t := (s.fset F.SP_PLAN_CUR_LO_ENTRIES lo c).fset F.SP_PLAN_CUR_HI_ENTRIES hi c
    t.fset F.SP_STATUS_PLAN (t.fget F.SP_PROFILE_PRESET c) c
  else (s.fset F.SP_STATUS_PLAN_ERR 1 c).raise 0x2003 kCORE c (lo + hi * 2 ^ 32)

theorem State.planTake_waiting (hw : (s.spCore c).planWait = true) : s.planTake c = (s.planTaken c).planDecide c := by
  unfold State.planTake
  extract_lets x s1 lo hi s2
  rw [if_neg (by simp [x, hw])]
  have h : s.planTaken c = s1 := rfl
  rw [h]
  clear_value s1
  rfl

/-- An event leaves a core's registers. -/
theorem State.fget_raise_core (code kind idx detail : Nat) (f : Fld) (hb : f.reg.defn.blk.place.1 = 0x4000000) :
    (s.raise code kind idx detail).fget f c = s.fget f c := by
  have hr := s.raise_regsKept code kind idx detail [RegId.MOD_EVT_WR.addr 0 0 0, RegId.MOD_EVT_LOST.addr 0 0 0] (.head _)
    (.tail _ (.head _))
  rw [State.fget, State.fget, hr.rd_core _ _ _ _ hb (by simp [RegId.addr, RegId.defn, Block.place])]

theorem State.raise_spc (code kind idx detail : Nat) : (s.raise code kind idx detail).spc = s.spc := by
  obtain ⟨m, g, h, p, e, -⟩ := s.raise_eq code kind idx detail
  rw [e]

theorem State.planDecide_spc : (s.planDecide c).spc = s.spc := by
  unfold State.planDecide
  extract_lets lo hi t
  split
  · exact ((State.fset_spc _ _ _ _ _ _).trans (State.fset_spc _ _ _ _ _ _)).trans (State.fset_spc _ _ _ _ _ _)
  · exact (State.raise_spc _ _ _ _ _).trans (State.fset_spc _ _ _ _ _ _)

@[simp] theorem State.planDecide_memories : (s.planDecide c).memories = s.memories := by
  simp [State.planDecide]

theorem State.planDecide_valid (hv : planValid (s.fget F.SP_PLAN_LO_ENTRIES c) (s.fget F.SP_PLAN_HI_ENTRIES c) = true) :
    (s.planDecide c).fget F.SP_PLAN_CUR_LO_ENTRIES c = s.fget F.SP_PLAN_LO_ENTRIES c
      ∧ (s.planDecide c).fget F.SP_PLAN_CUR_HI_ENTRIES c = s.fget F.SP_PLAN_HI_ENTRIES c := by
  simp only [State.planDecide, if_pos hv]
  constructor
  · simp (disch := decide) only [State.fget_fset_reg]
    rw [State.fget_fset_same _ _ _ _ _ _ (by decide) (by decide)]
    exact Nat.mod_eq_of_lt (s.fget_lt F.SP_PLAN_LO_ENTRIES c 0 0)
  · simp (disch := decide) only [State.fget_fset_reg]
    rw [State.fget_fset_same _ _ _ _ _ _ (by decide) (by decide)]
    exact Nat.mod_eq_of_lt (s.fget_lt F.SP_PLAN_HI_ENTRIES c 0 0)

theorem State.planDecide_invalid (hv : planValid (s.fget F.SP_PLAN_LO_ENTRIES c) (s.fget F.SP_PLAN_HI_ENTRIES c) = false) :
    (s.planDecide c).flag F.SP_STATUS_PLAN_ERR c = true
      ∧ (s.planDecide c).fget F.SP_PLAN_CUR_LO_ENTRIES c = s.fget F.SP_PLAN_CUR_LO_ENTRIES c
      ∧ (s.planDecide c).fget F.SP_PLAN_CUR_HI_ENTRIES c = s.fget F.SP_PLAN_CUR_HI_ENTRIES c := by
  simp only [State.planDecide, hv, Bool.false_eq_true, if_false]
  refine ⟨?_, ?_, ?_⟩
  · rw [State.flag, State.fget_raise_core _ _ _ _ _ _ _ rfl]
    exact s.flag_fset_same c F.SP_STATUS_PLAN_ERR true (by decide)
  · rw [State.fget_raise_core _ _ _ _ _ _ _ rfl]
    simp (disch := decide) only [State.fget_fset_reg]
  · rw [State.fget_raise_core _ _ _ _ _ _ _ rfl]
    simp (disch := decide) only [State.fget_fset_reg]

/-- BIST has ended in core c: its scratchpad is zero (R224). -/
def State.bistCleared (s : State) (c : Nat) : State :=
  ((s.setSp c { s.spCore c with bist := false }).fset F.SP_BIST_BUSY 0 c).spZero (s.phys c)

/-- The record of a row that failed the test (R224, R227). -/
def State.bistFailed (s : State) (c r : Nat) : State :=
  (((s.fset F.SP_BIST_FAIL 1 c).fset F.SP_BIST_ROW r c).raise 0x2005 kCORE c r).critMet (s.phys c) 2

theorem exec_spBistComplete_ok (c : Core) (hb : s.flag F.SP_BIST_BUSY c = true) :
    exec (.spBistComplete c none none) s = .next ((s.bistCleared c).fset F.SP_BIST_FAIL 0 c) := by
  show execSpBistComplete c none none s = _
  unfold execSpBistComplete
  rw [if_neg (by simp [hb])]
  rfl

theorem exec_spBistComplete_bad (c : Core) (r : Fin 10240) (hb : s.flag F.SP_BIST_BUSY c = true) :
    exec (.spBistComplete c (some r) none) s = .next ((s.bistCleared c).bistFailed c r) := by
  show execSpBistComplete c (some r) none s = _
  unfold execSpBistComplete
  rw [if_neg (by simp [hb])]
  delta State.bistCleared State.bistFailed
  rfl

theorem State.bistCleared_regsKept : RegsKept s (s.bistCleared c) [RegId.SP_BIST.addr c 0 0] :=
  (s.setSp c { s.spCore c with bist := false }).fset_regsKept F.SP_BIST_BUSY 0 c 0 0 _ (.head _)

theorem RegsKept.phys_bist {s t : State} {c : Core} (h : RegsKept s t [RegId.SP_BIST.addr c 0 0]) : t.phys c = s.phys c :=
  h.phys_of c fun j hj => by
    rw [List.mem_singleton]
    exact spareSkip_ne_core _ rfl _ _ hj

theorem State.bistCleared_phys (c : Core) : (s.bistCleared c).phys c = s.phys c := (s.bistCleared_regsKept c).phys_bist

/-- Once BIST has ended, the core's scratchpad holds zeros with fresh codes, and no other has changed (R218, R224). -/
theorem State.bistCleared_zero (c : Core) : (∀ b n, b + n ≤ slotBytes → (s.bistCleared c).spBytes c b n = zeros n)
    ∧ (∀ l, l < spLines → (s.bistCleared c).lineBad c l = false)
    ∧ ∀ a, a / slotBytes ≠ s.phys c → mget 0 (s.bistCleared c).sp a = mget 0 s.sp a := by
  have hphys : ((s.setSp c { s.spCore c with bist := false }).fset F.SP_BIST_BUSY 0 c).phys c = s.phys c := s.bistCleared_phys c
  unfold State.bistCleared
  rw [← hphys]
  exact ⟨fun b n h => State.spZero_spBytes _ c b n h, fun l h => State.spZero_lineBad _ c l h,
    fun a ha => (State.spZero_sp _ _ a).trans (if_neg ha)⟩

theorem State.bistCleared_spCore : ((s.bistCleared c).spCore c).bist = false := by
  show (((s.setSp c { s.spCore c with bist := false }).fset F.SP_BIST_BUSY 0 c).spCore c).bist = false
  rw [spCore_congr (State.fset_spc _ _ _ _ _ _), State.spCore_setSp_same]

/-- A row that failed the test is named, and the core's position meets a criterion of failure (R224, R415). -/
theorem State.bistFailed_spec (r : Fin 10240) : (s.bistFailed c r).flag F.SP_BIST_FAIL c = true
    ∧ (s.bistFailed c r).fget F.SP_BIST_ROW c = r ∧ (s.phys c, 2) ∈ (s.bistFailed c r).hlth.crit := by
  have hfail (u : State) (f : Fld) (hf : f.reg.defn.blk.place.1 = 0x4000000) :
      ((u.raise 0x2005 kCORE c r).critMet (s.phys c) 2).fget f c = u.fget f c := u.fget_raise_core c _ _ _ _ f hf
  refine ⟨?_, ?_, List.mem_append_right _ (.head _)⟩
  · rw [State.bistFailed, State.flag, hfail _ _ rfl, State.fget_fset_beside _ F.SP_BIST_ROW F.SP_BIST_FAIL _ _ rfl (by decide)]
    exact s.flag_fset_same c F.SP_BIST_FAIL true (by decide)
  · rw [State.bistFailed, hfail _ _ rfl, State.fget_fset_same _ _ _ _ _ _ (by decide) (by decide)]
    exact Nat.mod_eq_of_lt (Nat.lt_trans r.isLt (by decide))

/-- Settles O21: INJ_ARM is one field, BIST ends with its core's part of the map left out, and the reference NCLK decides on a waiting
plan. -/
theorem scratchpadControls : Obligations.ScratchpadControls := by
  intro s c
  refine ⟨⟨_, rfl, ?_⟩, ⟨_, rfl, ?_⟩, fun hb => ⟨_, exec_spBistComplete_ok s c hb, ?_⟩,
    fun r hb => ⟨_, exec_spBistComplete_bad s c r hb, ?_⟩, fun hr hw => ⟨_, rfl, ?_⟩⟩
  · exact ⟨s.flag_fset_same c F.SP_CTRL_INJ_ARM true (by decide), s.fset_regsKept F.SP_CTRL_INJ_ARM 1 c 0 0 _ (.head _), rfl⟩
  · unfold State.bistStart
    by_cases ha : s.rowAvail c = true
    · beta_reduce
      rw [if_pos ha, if_neg (by simp [ha])]
      refine ⟨State.flag_fset_same _ c F.SP_BIST_BUSY true (by decide), ?_,
        State.fset_regsKept _ F.SP_BIST_BUSY 1 c 0 0 _ (.head _), MemKept.of_memories (by simp)⟩
      rw [spCore_congr (State.fset_spc _ _ _ _ _ _), State.spCore_setSp_same]
    · beta_reduce
      rw [if_neg ha, if_pos (by simpa using ha)]
  · have hk' := (s.bistCleared c).fset_regsKept F.SP_BIST_FAIL 0 c 0 0 [RegId.SP_BIST.addr c 0 0] (.head _)
    have hm : SpKept (s.bistCleared c) ((s.bistCleared c).fset F.SP_BIST_FAIL 0 c) := (MemKept.of_memories (by simp)).1
    obtain ⟨hzero, hfresh, hother⟩ := s.bistCleared_zero c
    refine ⟨?_, State.flag_fset_same _ c F.SP_BIST_FAIL false (by decide), s.bistCleared_spCore c, fun b n h => ?_, hother,
      fun l hl => ?_, ⟨fun _ => rfl, fun _ => rfl, fun _ => rfl⟩, (s.bistCleared_regsKept c).trans hk'⟩
    · rw [State.flag, State.fget_fset_beside _ F.SP_BIST_FAIL F.SP_BIST_BUSY 0 c rfl (by decide)]
      exact State.flag_fset_same (s.setSp c { s.spCore c with bist := false }) c F.SP_BIST_BUSY false (by decide)
    · rw [hm.spBytes hk'.phys_bist]
      exact hzero b n h
    · rw [hm.lineBad hk'.phys_bist]
      exact hfresh l hl
  · have h := (s.bistCleared c).bistFailed_spec c r
    rwa [s.bistCleared_phys c] at h
  · have hk : RegsKept s (s.atTb (upTo 32 s.clk.tb)) [RegId.CLK_SKIMMED.addr 0 0 0] := s.atTb_regsKept _ _ (.head _)
    have hmem := (EngFrame.refl s c []).atTb (upTo 32 s.clk.tb) |>.memKept
    have hrun : ((s.atTb (upTo 32 s.clk.tb)).running c) = false := by
      rw [State.running, hk.slotOf]
      simp only [hk.tstate]
      exact hr
    have hfget (f : Fld) (hb : f.reg.defn.blk.place.1 = 0x4000000) : (s.atTb (upTo 32 s.clk.tb)).fget f c = s.fget f c :=
      hk.fget f c 0 0 (by rw [List.mem_singleton]; exact RegId.addr_ne_skimmed _ _ _ _ hb)
    have hplan : ((s.atTb (upTo 32 s.clk.tb)).spCore c).planWait = true := by rw [s.atTb_spCore]; exact hw
    generalize s.atTb (upTo 32 s.clk.tb) = u at *
    rw [← hfget F.SP_PLAN_LO_ENTRIES rfl, ← hfget F.SP_PLAN_HI_ENTRIES rfl, ← hfget F.SP_PLAN_CUR_LO_ENTRIES rfl,
      ← hfget F.SP_PLAN_CUR_HI_ENTRIES rfl, hrun, if_neg Bool.false_ne_true, u.planTake_waiting c hplan]
    refine ⟨?_, hmem.trans (MemKept.of_memories (by simp [State.planTaken])), (u.planTaken c).planDecide_valid c,
      (u.planTaken c).planDecide_invalid c⟩
    rw [spCore_congr (State.planDecide_spc _ _), State.planTaken, State.spCore_setSp_same]

end Sys2Proof.Machine
end

section
/-! # Packets at the register port (R162, R251) -/

namespace Sys2Proof.Machine
open Sys2Proof

variable (s : State) (p : Packet) (r : RegRef)

/-- REG takes a packet that is nowhere in flight as the model has it. -/
theorem State.regTake_absent (hp : p ∉ s.flights.map (·.pkt)) (hdest : p.dest = destReg) : s.regTake p = (s, true) := by
  rw [State.regTake, if_neg (by rw [hdest]; decide), if_pos hdest, s.take_absent p _ hp]

/-- A write of four bytes at a 32-bit register. -/
theorem State.writeWord_narrow (path : CmdPath) (a v : Nat) (hr : regAt a = some r) (hw : r.id.defn.wide = false) :
    s.writeWord path a v = (s.regWrite path r v, true) := by
  simp only [State.writeWord, hr, hw, Bool.not_false, if_true]

/-- A REGWR at REG to a 32-bit register writes the register and is answered. -/
theorem exec_regwrDeliver_narrow (hp : p ∉ s.flights.map (·.pkt)) (htyp : p.typ = Packet.REGWR) (hdest : p.dest = destReg)
    (hr : regAt (regOffset p.addr) = some r) (hw : r.id.defn.wide = false) :
    exec (.regwrDeliver p) s
      = .next ((s.regWrite (regPath p.src) r (leNat (p.data.take 4))).regReply p (packetReply p Packet.REGR stOK)) := by
  show execRegwrDeliver p s = _
  unfold execRegwrDeliver
  rw [if_neg (not_not_intro htyp)]
  split
  next u ok htaken =>
    obtain ⟨rfl, rfl⟩ := Prod.mk.inj (htaken.symm.trans (s.regTake_absent p hp hdest))
    rw [if_neg (by decide)]
    split
    next v found hwritten =>
      obtain ⟨rfl, rfl⟩ := Prod.mk.inj (hwritten.symm.trans (State.writeWord_narrow _ r _ _ _ hr hw))
      rw [if_pos rfl]

/-- The answer of REG goes by the rim, where no port's counter is. -/
theorem State.regReply_regs (a : Packet) (hdest : p.dest = destReg) : (s.regReply p a).regs = s.regs := by
  rw [State.regReply, if_neg (by rw [hdest]; decide), State.rimSend]
  split
  · rfl
  · rfl

/-- A write of the read-only MOD_SPARE_GEN stores again what it reads. -/
theorem State.regWrite_spareGen (path : CmdPath) (v : Nat) :
    s.regWrite path ⟨.MOD_SPARE_GEN, 0, 0, 0⟩ v = s.wr .MOD_SPARE_GEN (s.rd .MOD_SPARE_GEN) := by
  have hm : s.merged ⟨.MOD_SPARE_GEN, 0, 0, 0⟩ v = (s.rd .MOD_SPARE_GEN).toNat := rfl
  show s.regStore ⟨.MOD_SPARE_GEN, 0, 0, 0⟩ v = _
  rw [State.regStore_noRWX _ _ _ (by decide), hm, BitVec.ofNat_toNat, BitVec.setWidth_eq]

/-! ## A register map that lists a Reset value

`State.regs` lists the registers that differ from their Reset values, but no premise of `Claim.RegisterDeliveries` says so, and
`RegsKept` compares two maps under every default. -/

/-- A module whose register map lists MOD_SPARE_GEN at its Reset value, 0. -/
def spareGenListed : State := { regs := [(RegId.MOD_SPARE_GEN.addr 0 0 0, 0)] }

/-- A REGWR of 0 to MOD_SPARE_GEN by the core of the router 0. -/
def spareGenZero : Packet :=
  { typ := Packet.REGWR, dest := destReg, src := 0, addr := regWindow + RegId.MOD_SPARE_GEN.addr 0 0 0, data := leBytes 4 0 }

theorem regAt_spareGenZero : regAt (regOffset spareGenZero.addr) = some ⟨.MOD_SPARE_GEN, 0, 0, 0⟩ :=
  regAt_addr .MOD_SPARE_GEN 0 0 0 0 (by decide) (by decide)

/-- The write of the register's own value takes the entry off the map. -/
theorem regs_spareGenZero (t : State) (h : exec (.regwrDeliver spareGenZero) spareGenListed = .next t) : t.regs = [] := by
  rw [exec_regwrDeliver_narrow _ _ _ (by decide) rfl rfl regAt_spareGenZero rfl, State.regWrite_spareGen] at h
  cases h
  rw [State.regReply_regs _ _ _ rfl]
  decide

/-- Refutes O23: after a REGWR to the read-only MOD_SPARE_GEN a map that listed its Reset value 0 lists it no longer. The register
reads 0 before and after; `RegsKept`, which asks the same of the maps under every default, fails under the default 1. The clause
lacks the premise that the map lists no Reset value. -/
theorem not_packetsDeliver : ¬ Obligations.PacketsDeliver := by
  intro h
  obtain ⟨-, -, hregwr, -⟩ := h.2 spareGenListed spareGenZero ⟨.MOD_SPARE_GEN, 0, 0, 0⟩ (by decide) rfl (by decide) (by decide)
  obtain ⟨t, ht, -, hkept, -⟩ := hregwr rfl (.inr (by decide))
  have hget := hkept (RegId.MOD_SPARE_GEN.addr 0 0 0) 1 (by simp)
  rw [regs_spareGenZero t ht] at hget
  exact absurd hget (by decide)

end Sys2Proof.Machine
end
